-- ==== Sys2Proof/Word.lean ====
section
/-! DEFINITION. The word types of the Kusyn-2 manual and the plainest arithmetic on them. -/
namespace Sys2Proof

/-- One byte of device memory. -/
abbrev Byte := BitVec 8
/-- A u16 of the manual. -/
abbrev U16 := BitVec 16
/-- A u32 of the manual: a register word, a command slot, a header word. -/
abbrev U32 := BitVec 32
/-- A u64 of the manual. -/
abbrev U64 := BitVec 64
/-- A 48-bit counter (R364, R280). -/
abbrev U48 := BitVec 48
/-- A K36 value as its 36 bits (R53). -/
abbrev K36 := BitVec 36

/-- The u32 of a natural number, modulo 2^32. -/
abbrev u32 (n : Nat) : U32 := BitVec.ofNat 32 n

end Sys2Proof
end

