-- ==== Sys2Proof/Syntax.lean ====
section
/-! DEFINITION. The commands of the block: one constructor per row of spec/opcode_table.json, with the row's
operands. The first rows are the run of a started command of that opcode, named by queue and queue index; the
others are the events at the boundary and the block's own steps. -/
namespace Sys2Proof

/-- A frame on a Pier: a DP2 slab, a ring frame or a Catwalk frame. The header is sixteen u32 words (R108, R198,
R370); the two marks are the router's sideband (R320). -/
structure Frame where
  hdr     : List U32
  payload : List Byte
  hdrBad  : Bool := false
  payBad  : Bool := false
  deriving DecidableEq, Repr, Inhabited

/-- A message on the Tap (R308): sixteen header words, the payload bytes, and whether a word had bad parity or a
SOM bit that disagrees with the header's length. -/
structure TapMsg where
  hdr     : List U32
  payload : List Byte
  parity  : Bool := false
  som     : Bool := false
  deriving DecidableEq, Repr, Inhabited

/-- A response on the Feed (section Feed of 13_boundary_ports): four words and the parity verdict. -/
structure FeedResp where
  w0 : U32
  w1 : U32
  w2 : U32
  w3 : U32
  parity : Bool := false
  deriving DecidableEq, Repr, Inhabited

/-- Status of a memory-port response (R317). -/
inductive MemStatus where
  | ok | decerr | uncorr
  deriving DecidableEq, Repr, Inhabited

/-- The transfer a memory-port response answers. -/
inductive MemTarget where
  /-- a transfer that the started command idx of queue q issued, at this address -/
  | command (q : Nat) (idx : U32) (addr : Nat)
  /-- the read that fetches the next slot of queue q (R51) -/
  | slotFetch (q : Nat)
  /-- a write of the oldest landing in progress with this number (R112) -/
  | landing (n : Nat)
  /-- a write of a control structure (BCB, counter, Ledger table) owned by context c (R353) -/
  | control (c : Nat) (addr : Nat)
  /-- a write of event ring e (R353) -/
  | eventRing (e : Nat)
  /-- any access of Caisson metadata (R265) -/
  | caisson (addr : Nat)
  /-- a read of the microcode fetch (R341) -/
  | microcode
  /-- a tag that a reset has forgotten (R338) -/
  | forgotten
  deriving DecidableEq, Repr, Inhabited

/-- Owner of an internal codeword that the scrubber visits (R346 table). -/
inductive CodeOwner where
  | none
  | command (q : Nat) (idx : U32)
  | context (c : Nat)
  deriving DecidableEq, Repr, Inhabited

/-- The straps as sampled when a reset is taken (R333). -/
structure Straps where
  boot   : BitVec 2 := 3
  timing : BitVec 2 := 3
  rstseq : BitVec 1 := 1
  deriving DecidableEq, Repr, Inhabited

/-- The commands of the block. -/
inductive Instr where
  -- the run of a started command (queue, queue index)
  | nop (q : Nat) (i : U32)
  | wait (q : Nat) (i : U32)
  | signal (q : Nat) (i : U32)
  | fence (q : Nat) (i : U32)
  | skipIf (q : Nat) (i : U32)
  | barrier (q : Nat) (i : U32)
  | mark (q : Nat) (i : U32)
  | trigger (q : Nat) (i : U32)
  | route (q : Nat) (i : U32)
  | scoreSelect (q : Nat) (i : U32)
  | seal (q : Nat) (i : U32)
  | admitJob (q : Nat) (i : U32)
  | sort (q : Nat) (i : U32)
  | countXchg (q : Nat) (i : U32)
  | dispatch (q : Nat) (i : U32)
  | ret (q : Nat) (i : U32)
  | drain (q : Nat) (i : U32)
  | groupTable (q : Nat) (i : U32)
  | feedArm (q : Nat) (i : U32)
  | combine (q : Nat) (i : U32)
  | copy (q : Nat) (i : U32)
  | gather (q : Nat) (i : U32)
  | scatter (q : Nat) (i : U32)
  | scatterAcc (q : Nat) (i : U32)
  | pagedGather (q : Nat) (i : U32)
  | ringReduce (q : Nat) (i : U32)
  | ringGather (q : Nat) (i : U32)
  | shift (q : Nat) (i : U32)
  | permute (q : Nat) (i : U32)
  | camberAccum (q : Nat) (i : U32)
  | camberUpdate (q : Nat) (i : U32)
  | ledgerAdmit (q : Nat) (i : U32)
  | ledgerStep (q : Nat) (i : U32)
  | ledgerRetire (q : Nat) (i : U32)
  | descCreate (q : Nat) (i : U32)
  | descRetire (q : Nat) (i : U32)
  | mapLoad (q : Nat) (i : U32)
  | publish (q : Nat) (i : U32)
  | fuLoad (q : Nat) (i : U32)
  | fuApply (q : Nat) (i : U32)
  | poolConfig (q : Nat) (i : U32)
  | digestBegin (q : Nat) (i : U32)
  | digestEnd (q : Nat) (i : U32)
  -- queues and the steps of a command; a window is a context number, or 16 for the system window
  | doorbell (win q : Nat) (v : U32) (priv : Bool)
  | commandDecode (q : Nat)
  | commandStart (q : Nat)
  | waitPoll (c : Nat)
  | commandCommit (q : Nat)
  | combinePrefetch (q : Nat) (i : U32)
  -- control-port writes: the written word and KCTL_PRIV
  | queueEnable (q : Nat) (w : U32) (priv : Bool)
  | queueHold (q : Nat) (w : U32) (priv : Bool)
  | queueKill (q : Nat) (w : U32) (priv : Bool)
  | killComplete (q : Nat)
  | teardownGo (c : Nat) (w : U32) (priv : Bool)
  | teardownClear (c : Nat) (w : U32) (priv : Bool)
  | contextSave (c : Nat) (w : U32) (priv : Bool)
  | saveImageWrite (c : Nat)
  | contextRestore (c : Nat) (w : U32) (priv : Bool)
  | genFloorWrite (c : Nat) (w : U32) (priv : Bool)
  | casRequest (c : Nat) (w : U32) (priv : Bool)
  | casFree (c : Nat) (w : U32) (priv : Bool)
  | casRef (c : Nat) (w : U32) (priv : Bool)
  | reclaim (w : U32) (priv : Bool)
  | eventQueueEnable (e : Nat) (w : U32) (priv : Bool)
  | eventRdWrite (e : Nat) (window : Bool) (w : U32) (priv : Bool)
  | eventCoalesceTimeout (e : Nat)
  | readClear (off : Nat) (priv : Bool)
  | counterLoRead (off : Nat) (priv : Bool)
  | registerWrite (off : Nat) (w : U32) (priv : Bool)
  | paceWrite (w : U32) (priv : Bool)
  | paceWindow (beats : Nat)
  -- boot, reset and clocks
  | bootGo (w : U32) (priv : Bool)
  | bootData (w : U32) (priv : Bool)
  | bootAccept (w : U32) (priv : Bool)
  | bootReject (w : U32) (priv : Bool)
  | microcodeLoaded (image : List Byte)
  | arrayInitDone
  | postReady
  | powerOnReset (straps : Straps)
  | systemReset (straps : Straps)
  | coreReset (straps : Straps)
  | isolationTimeout
  | resetDeassert
  | domainRelease
  | refclkReturn
  -- Piers and memory ports
  | pierLinkChange (p : Nat) (up : Bool)
  | pierCredit (p vc n : Nat)
  | memoryReadResponse (t : MemTarget) (st : MemStatus)
  | memoryWriteAck (t : MemTarget) (st : MemStatus)
  -- slabs received on Pier p
  | dispatchSlabRx (p : Nat) (f : Frame)
  | returnSlabRx (p : Nat) (f : Frame)
  | reserveRx (p : Nat) (f : Frame)
  | grantRx (p : Nat) (f : Frame)
  | countSlabRx (p : Nat) (f : Frame)
  | barrierArriveRx (p : Nat) (f : Frame)
  | barrierReleaseRx (p : Nat) (f : Frame)
  | barrierRelease (c : Nat) (gen bid : Nat)
  | markerRx (p : Nat) (f : Frame)
  | ackRx (p : Nat) (f : Frame)
  | nackRx (p : Nat) (f : Frame)
  | hello (p : Nat) (f : Frame)
  | helloAck (p : Nat) (f : Frame)
  -- timers of streams and exchanges
  | slabResend (c dst vc : Nat)
  | backoffExpiry (c dst vc : Nat)
  | streamTimeout (c dst vc : Nat)
  | helloResend (chip : Nat)
  | exchangeBroken (q : Nat) (i : U32)
  -- ring frames and their timers
  | ringDataRx (p : Nat) (f : Frame)
  | rackRx (p : Nat) (f : Frame)
  | rnackRx (p : Nat) (f : Frame)
  | reportRx (p : Nat) (f : Frame)
  | decideRx (p : Nat) (f : Frame)
  | ringResend (c : Nat) (gid : Nat) (gseq : U32) (dst : Nat)
  | collectiveTimeout (slot : Nat)
  | decideTimeout (slot : Nat)
  -- timeouts of waiting commands
  | waitTimeout (q : Nat)
  | barrierTimeout (q : Nat) (i : U32)
  | drainTimeout (q : Nat) (i : U32)
  -- Tap and Feed
  | tapHello (m : TapMsg)
  | tapTile (m : TapMsg)
  | tapStopped (m : TapMsg)
  | tapStopTimeout (stream : Nat)
  | feedDone (r : FeedResp)
  | feedAbortAck (r : FeedResp)
  | feedAbortTimeout (feed : Nat)
  -- error unit
  | scrubVisit (array inst idx flips : Nat) (own : CodeOwner)
  | fatalTimeout
  | logPop (w : U32) (priv : Bool)
  | firstClear (w : U32) (priv : Bool)
  | errorInject (w : U32) (priv : Bool)
  -- Catwalk
  | triggerFire
  | trigRx (p : Nat) (f : Frame)
  | tackRx (p : Nat) (f : Frame)
  | trigResend (dst tid : Nat)
  | traceRx (p : Nat) (f : Frame)
  | freezeClear (w : U32) (priv : Bool)
  | traceEnable (w : U32) (priv : Bool)
  | dump (w : U32) (priv : Bool)
  | dumpHalted
  | refclkStop
  | countXchgTimeout (q : Nat) (i : U32)
  | traceRateWindow
  deriving DecidableEq, Repr, Inhabited

end Sys2Proof
end

