-- ==== Sys2Proof/Decode.lean ====
section
/-! DEFINITION. Reading a command from the bits of a table word. The block is given no words: no row of
spec/opcode_table.json carries bits or fields, a command reaches the block as an event at its boundary or as a step of
its own. A word therefore spells no command. (The 64-byte slots of the block's own queues are decoded by
COMMAND_DECODE, in Machine/Fetch.lean.) -/
namespace Sys2Proof

/-- The command a table word spells: none, since the table gives no row any bits. -/
def decodeTableWord (_nbits _w : Nat) : Option Instr := none

end Sys2Proof
end

