-- ==== Sys2Proof/Config.lean ====
section
/-! DEFINITION. The free values: what the manual leaves open although the machine goes on. Each is an opaque
constant applied to a counter that the state advances, or to the operands; nothing can be proved of its value. -/
namespace Sys2Proof.Config

/-- A byte whose contents the manual leaves undefined (R34, R101 staging, R118, R284, R381). Log entry 7. -/
opaque freeByte : Nat → Byte

/-- Sample number n of the host's fabric-time input (R323): an input of the block. Log entry 8. -/
opaque freeTime : Nat → U64

/-- A choice that free mode leaves to timing (R156, R226): which of the remaining reads completes next. Log entry 9. -/
opaque freePick : Nat → Nat

/-- A feed id the device would choose (R313 section names only uniqueness). Log entry 12. -/
opaque freeFeed : Nat → U16

/-- A count of beats, bytes or energy that rests on timing the manual does not fix (R280, R281). Log entry 11. -/
opaque freeCount : Nat → U48

/-- The set of the Map cache in which a line lies (R98 section gives 512 sets, and no index): slot, bank, line. Log entry 58. -/
opaque freeSet : Nat → Nat → Nat → Nat

/-- Byte k of an entry of a dump region, by the region's offset and the values that the entry holds (R381 names the
values, and gives no layout within an entry). Log entry 16. -/
opaque dumpByte : Nat → List Nat → Nat → Byte

/-- Microseconds a command has spent in its wait state (R380 SINCE). Log entry 8. -/
opaque freeSince : Nat → U32

end Sys2Proof.Config
end

