-- ==== Sys2Proof/Machine/FMap.lean ====
section
/-! DEFINITION. Sparse maps as plain data: a list of (key, value) pairs in one canonical form, keys strictly rising
and no value equal to what an unlisted key reads as. Device memory, the register words and the counters are such
maps. -/
namespace Sys2Proof.Machine

variable {α : Type}

/-- The value at key k; an unlisted key reads as d. -/
def FMap.get (d : α) : List (Nat × α) → Nat → α
  | [], _ => d
  | (a, v) :: m, k => if a = k then v else FMap.get d m k

/-- Put (k, v) before the first larger key. -/
def FMap.ins (k : Nat) (v : α) : List (Nat × α) → List (Nat × α)
  | [] => [(k, v)]
  | (a, x) :: m => if a < k then (a, x) :: FMap.ins k v m else (k, v) :: (a, x) :: m

/-- Remove every pair of key k. -/
def FMap.del (k : Nat) : List (Nat × α) → List (Nat × α)
  | [] => []
  | (a, x) :: m => if a = k then FMap.del k m else (a, x) :: FMap.del k m

/-- Write v at key k; writing what an unlisted key reads as removes the pair. -/
def FMap.set [DecidableEq α] (d : α) (m : List (Nat × α)) (k : Nat) (v : α) : List (Nat × α) :=
  if v = d then FMap.del k m else FMap.ins k v (FMap.del k m)

/-- The canonical form. -/
def FMap.wf [DecidableEq α] (d : α) : List (Nat × α) → Bool
  | [] => true
  | (a, v) :: m => decide (v ≠ d) && m.all (fun p => decide (a < p.1)) && FMap.wf d m

end Sys2Proof.Machine
end

