-- ==== Sys2Proof/Machine/State.lean ====
section
/-! DEFINITION. The state of one Kusyn-2 as plain data: device memory, every register word at its offset in the
control window, the counters, the command queues, and what each unit holds between steps. State.reset is the block
at the moment a power-on reset is taken. -/
namespace Sys2Proof.Machine

/-- Why the machine stops. -/
inductive Fault where
  /-- Raised by no command: each has an effect in every state. Safe. -/
  | noPromise
  deriving DecidableEq, Repr

/-- Why a command has no meaning here. -/
inductive Refusal where
  /-- Raised by an arm of Dispatch whose command has no meaning yet. Safe. -/
  | notModelled (mnemonic : String)
  deriving DecidableEq, Repr

/-- Device memory and other sparse stores: (key, value) pairs, keys strictly rising, none equal to the default. -/
abbrev Memory := List Host.Cell

/-- What is fixed in the part (00_scope Variants, R386, R387, the determinism profile of 07). -/
structure Part where
  /-- this chip's id on the fabric -/
  chip     : Nat := 0
  /-- 0 Kusyn-2F, 1 Kusyn-2M, 2 Kusyn-2S -/
  variant  : Nat := 0
  stepping : Nat := 0
  grade    : Nat := 0
  /-- bit i: route pipe i, Pier i, FU cores 8i to 8i+7 disabled by grade -/
  disPipe  : Nat := 0
  disPier  : Nat := 0
  disFu    : Nat := 0
  disTrestle : Bool := false
  disLedger  : Bool := false
  disDigest  : Bool := false
  /-- KACCT_COEF after power-on (R281: calibrated at test) -/
  coef     : List U32 := []
  deriving DecidableEq, Repr, Inhabited

/-- States of a command between fetch and commit (02 Commit). -/
inductive Phase where
  | waiting | started | complete
  deriving DecidableEq, Repr, Inhabited

/-- How SKIP_IF treats a command (R43). -/
inductive Skip where
  | run | quiet | signal
  deriving DecidableEq, Repr, Inhabited

/-- A change a command applies at its commit (R33 step 2). -/
inductive Act where
  /-- bytes of a table, record, slot or output written at commit -/
  | write (a : Nat) (bs : List Byte)
  /-- bytes that another command committed here while this one was uncommitted (R36): they stand under its own -/
  | under (a : Nat) (bs : List Byte)
  /-- the descriptor cache is in line with entries h to h + n - 1 of the owner (R208, R216) -/
  | descSync (h n : Nat)
  /-- per-context Catwalk counter k of the owner grows by n (R365) -/
  | count (k n : Nat)
  /-- sticky bits of a register of the owner's window are set (R77) -/
  | stick (off : Nat) (m : U32)
  /-- accounting counter k of the owner grows by n (R280) -/
  | acct (k n : Nat)
  /-- the job of the owner is sealed, admitted, or ended (R71) -/
  | jobSealed | jobAdmitted | jobEnd
  /-- the shadow map bank of a block-wide slot is loaded (R93), or a bias bank is written (R204) -/
  | mapLoaded (slot : Nat)
  | biasWritten (slot : Nat)
  /-- the shadow FU bank is loaded (R243) -/
  | fuLoaded
  /-- the exchange slot is unbound (R158); recorded references of a kind are dropped (R145, R158) -/
  | unbindExch (gen xid : Nat)
  | dropBays (gen xid : Nat)
  | dropRets (gen xid : Nat)
  | dropPlanes (gen xid : Nat)
  /-- BCB of a local slot returns to the host (R145) -/
  | bayFree (lslot : Nat)
  /-- the exchange's COUNT_XCHG has committed (R165) -/
  | xchgDone (gen xid : Nat)
  /-- the ring slot, barrier slot or feed of the command ends -/
  | ringEnd | barrierEnd | feedShut
  /-- registers of a pool (R264) -/
  | pool (p : Nat) (cfg baseLo baseHi metaLo metaHi mask free : U32)
  /-- a digest session opens or closes (R174) -/
  | digestOpen (sid : Nat) (regions : List (List Byte)) (bytes : Nat)
  | digestClose (sid : Nat)
  /-- PUBLISH of slots first to first + n - 1 (R95) -/
  | publish (first n : Nat) (map bias fu : Bool)
  /-- counts added to a slot's Camber count vector, saturating (R203) -/
  | camberAdd (slot : Nat) (counts : List Nat)
  /-- a trigger raised (R379), a MARK record written (R378) -/
  | trigger (tid lead : Nat) (only : Bool)
  | mark (v : Nat) (trig : Bool)
  deriving DecidableEq, Repr, Inhabited

/-- A change to one route record made at commit (R85): record index, flag bits to set, ROW. -/
structure RecUpd where
  rix  : Nat
  adm  : Bool
  row  : Nat
  deriving DecidableEq, Repr, Inhabited

/-- A command of a queue that is decoded and not committed. -/
structure Cmd where
  /-- queue index -/
  idx    : U32 := 0
  /-- the sixteen words of the slot as fetched -/
  words  : List U32 := []
  /-- S0 to S7 as read when the waits were met (R39) -/
  slots  : List U32 := []
  phase  : Phase := .waiting
  skip   : Skip := .run
  /-- both header waits were found met (R30), and as which command of the block in that order (R181, R278) -/
  ready  : Bool := false
  tick   : Nat := 0
  /-- handle of an indirect slot that could not be read when the waits were met (R39) -/
  bad    : Option Nat := none
  /-- a COMBINE's prefetch wait was found met (R153) -/
  pre    : Bool := false
  /-- descriptor handles bound (R215), and those a started DESC_RETIRE has marked (R216) -/
  binds  : List Nat := []
  retire : List Nat := []
  /-- bound map slot and epoch (R96), bound bias slots and epochs (R63, R205), bound FU bank (R245) -/
  mapB   : Option (Nat × U32) := none
  biasB  : List (Nat × U32) := []
  fuB    : Option Nat := none
  /-- effects awaiting commit -/
  acts   : List Act := []
  recs   : List RecUpd := []
  /-- output bytes: (address, length), and the output ranges of other uncommitted commands that meet them (R34, R36) -/
  wrote  : List (Nat × Nat) := []
  mix    : List (Nat × Nat) := []
  /-- what stands in the output ranges of a command that reads them, or fills them in several steps, while device memory shows
  them undefined (R34) -/
  saved  : List (Nat × List Byte) := []
  /-- the run of the command has begun (its opcode's row has taken effect once) -/
  ran    : Bool := false
  /-- the tag was retired, or nothing is to be sent: no completion markers (R125) -/
  noMark : Bool := false
  /-- the route parameter block that a ROUTE read at its start (R60) -/
  rpb    : List U32 := []
  /-- the COMMIT set of a context-scope FENCE: commands that must commit first (R42) -/
  fence  : List (Nat × U32) := []
  deriving DecidableEq, Repr, Inhabited

/-- A SKIP_IF window (R43, R44): the SKIP_IF's index, N, MODE, and the outcome of the test once made. -/
structure SkipWin where
  at_  : U32
  n    : Nat
  sig  : Bool
  hit  : Option Bool := none
  /-- handles that a skipped DESC_CREATE of the window would have created -/
  made : List Nat := []
  deriving DecidableEq, Repr, Inhabited

/-- What a kill keeps of a command for its rerun (R215, R120, R146): index, bindings, and whether its exchange broke
(R127) or its Tap stream or Feed failed to end (R311, R316). -/
structure Kept where
  idx    : U32
  binds  : List Nat := []
  broken : Bool := false
  /-- Tap stream of a killed ROUTE -/
  stream : Option Nat := none
  tapBad : Bool := false
  deriving DecidableEq, Repr, Inhabited

/-- A command queue beside its registers (02 Queues). -/
structure Queue where
  /-- index of the next slot to decode -/
  dec     : U32 := 0
  /-- decoded, uncommitted commands, oldest first -/
  cmds    : List Cmd := []
  wins    : List SkipWin := []
  killing : Bool := false
  /-- a killed DISPATCH (GEN, XID, index) whose GRANTs the kill awaits (R127) -/
  killX   : Option (Nat × Nat × U32) := none
  kept    : List Kept := []
  /-- commands that a teardown or a fault abandoned, (index, opcode): their reads may still be answered (R357) -/
  gone    : List (U32 × Nat) := []
  /-- group of a communication queue once set (R201) -/
  commGid : Option Nat := none
  deriving DecidableEq, Repr, Inhabited

/-- One scored column of a row (section Scoring a row): clipped logit, value, key, and under FULL the exponential. -/
structure Score where
  /-- expert or group of the column -/
  j    : Nat := 0
  x    : K36 := 0
  v    : K36 := 0
  key  : K36 := 0
  e    : K36 := 0
  /-- unmasked and not a NaN -/
  live : Bool := false
  nan  : Bool := false
  inf  : Bool := false
  clip : Bool := false
  badBias : Bool := false
  deriving DecidableEq, Repr, Inhabited

/-- The selection of one sealed row (R68, R74): chosen (expert or group, FP32 weight) by k slot, and its marks. -/
structure Sel where
  ents   : List (Nat × U32) := []
  nan    : Bool := false
  masked : Bool := false
  inf    : Bool := false
  clip   : Bool := false
  deriving DecidableEq, Repr, Inhabited

/-- One assignment on its way through the Keystone (R99, R100). -/
structure KRec where
  token  : Nat
  kslot  : Nat
  expert : Nat
  repl   : Nat
  chip   : Nat
  lslot  : Nat
  weight : U32
  nolive : Bool
  deriving DecidableEq, Repr, Inhabited

/-- A route job of the separate form (R71). -/
structure Job where
  ctx    : Nat
  job    : Nat
  /-- queue of the first SCORE_SELECT -/
  q      : Nat
  t      : Nat
  param  : Nat
  stage  : Nat
  /-- the sixteen words of the route parameter block -/
  rpb    : List U32 := []
  /-- columns claimed by started SCORE_SELECTs, and the scored columns of each row in order -/
  cols   : Nat := 0
  rows   : List (List Score) := []
  /-- bound FU bank and the FU epoch at the binding (R245), bound bias and map slots with their epochs (R63, R96) -/
  fuB    : Option Nat := none
  fuE    : U32 := 0
  biasB  : List (Nat × U32) := []
  mapB   : Option (Nat × U32) := none
  sealed : Bool := false
  sel    : List Sel := []
  /-- an ADMIT has started; it has committed -/
  admitting : Bool := false
  admitted : Bool := false
  /-- the selections ADMIT took, their records with the replicas chosen, and C -/
  asel   : List Sel := []
  krecs  : List KRec := []
  cap    : Nat := 0
  deriving DecidableEq, Repr, Inhabited

/-- A row-state region that is held (R45): its pipe, its context, and the job or command that holds it. -/
structure Region where
  pipe  : Nat
  ctx   : Nat
  job   : Bool
  q     : Nat := 0
  idx   : U32 := 0
  block : Nat := 0
  deriving DecidableEq, Repr, Inhabited

/-- A started ROUTE, until it commits or faults (R45, R54 to R57): its Tap stream, or none from memory; the current pass,
the scored columns of the pass's rows, and the selections of the rows sealed so far. -/
structure TapRun where
  q      : Nat
  idx    : U32
  ctx    : Nat
  stream : Option Nat
  pass   : Nat := 0
  rows   : List (List Score) := []
  seals  : List Sel := []
  /-- effects for commit, of the passes sealed so far -/
  acts   : List Act := []
  done   : Bool := false
  deriving DecidableEq, Repr, Inhabited

/-- A reservation of a DISPATCH (R121): destination, bucket, its first route record and its record count. -/
structure Chunk where
  dst    : Nat
  bucket : Nat
  lslot  : Nat
  repl   : Nat
  expert : Nat
  rix    : Nat
  n      : Nat
  deriving DecidableEq, Repr, Inhabited

/-- A COUNT entry (R168). -/
structure CountEnt where
  lslot  : Nat
  repl   : Nat
  expert : Nat
  a      : Nat
  b      : Nat
  deriving DecidableEq, Repr, Inhabited

/-- A phase-0 or phase-1 COUNT slab received for an exchange (R165). -/
structure CountMsg where
  src   : Nat
  mis   : Bool
  epoch : U32
  cap   : U32
  layer : Nat
  ents  : List CountEnt
  deriving DecidableEq, Repr, Inhabited

/-- A bound exchange slot (R120, R164). -/
structure Exch where
  ctx   : Nat
  gen   : Nat
  xid   : Nat
  /-- handles of the exchange block, the route records, DEST and the offset table -/
  xb    : Nat
  rrec  : Nat := 0
  dest  : Nat := 0
  ofs   : Nat := 0
  /-- a COUNT_XCHG has started (queue and index), has sent its phase-0 slabs, has committed -/
  cxq   : Option (Nat × U32) := none
  cx0   : Bool := false
  xchg  : Bool := false
  ph0   : List CountMsg := []
  ph1   : List CountMsg := []
  /-- phase-1 slabs sent by this owner -/
  answered : Bool := false
  /-- per local slot refusals held until close (R165) -/
  refused  : List (Nat × Nat) := []
  /-- DISPATCH: its reservations have been listed; those to make, those made and unanswered -/
  listed : Bool := false
  todo  : List Chunk := []
  asked : List Chunk := []
  /-- segments recorded in the XB (R118), and what DISPATCH writes into route records at its commit -/
  nseg  : Nat := 0
  upd   : List RecUpd := []
  /-- data slabs handed to each destination's stream, kept through kills (R128) -/
  pushed : List (Nat × Nat) := []
  deriving DecidableEq, Repr, Inhabited

/-- A Bay of a RETURN (R122, R145): local slot, output tensor, landing list, and, once its FEED_ARM has committed, the
list's final length. -/
structure RetBay where
  lslot : Nat
  out   : Nat
  elems : Nat
  land  : Nat
  nland : Option Nat := none
  deriving DecidableEq, Repr, Inhabited

/-- A RETURN that has started, kept through kills (R122, R128): its Bays, and the slabs handed on as (slot, first row). -/
structure RetRun where
  q    : Nat
  idx  : U32
  ctx  : Nat
  gen  : Nat
  xid  : Nat
  bays : List RetBay := []
  sent : List (Nat × Nat) := []
  deriving DecidableEq, Repr, Inhabited

/-- Which step took a recorded Caisson reference (R268). -/
inductive RefKind where
  | bay | plane | ret | ring
  deriving DecidableEq, Repr, Inhabited

/-- A Caisson reference recorded under (GEN, XID) of a context, or for a ring slot. -/
structure Ref where
  ctx    : Nat
  gen    : Nat
  xid    : Nat
  kind   : RefKind
  handle : U32
  deriving DecidableEq, Repr, Inhabited

/-- A slab of a sequenced stream and the command that sends it. -/
structure OutSlab where
  q    : Nat
  idx  : U32
  f    : Frame
  deriving DecidableEq, Repr, Inhabited

/-- A sequenced transmit stream (R106, R117). -/
structure TxStream where
  ctx    : Nat
  dst    : Nat
  vc     : Nat
  /-- next SEQ to give -/
  next   : U32 := 0
  /-- sent and unanswered, oldest first; prepared and not yet sent -/
  unacked : List OutSlab := []
  waiting : List OutSlab := []
  /-- back-off in µs (0 none), the resend made and not yet answered, and the scheduled resend (R117) -/
  backoff : Nat := 0
  backSeq : Option U32 := none
  resend  : Option U32 := none
  /-- slabs that a DP1 peer refused NOT_READY, to be resent alone (R131) -/
  dp1     : List U32 := []
  deriving DecidableEq, Repr, Inhabited

/-- A HELLO in flight toward a chip whose version is unknown (R130). -/
structure Hello where
  chip : Nat
  deriving DecidableEq, Repr, Inhabited

/-- The transmit side of the Piers: frames waiting for credit and frames sent, as (Pier, VC, frame), and the credit of
each Pier and VC at key 8 × Pier + VC (R319). -/
structure Net where
  queued : List (Nat × Nat × Frame) := []
  sent   : List (Nat × Nat × Frame) := []
  credit : List (Nat × Nat) := []
  /-- bytes left in the last flit sent on each Pier and VC, at the same key -/
  room   : List (Nat × Nat) := []
  /-- frames that wait for the version of their destination chip (R130) -/
  held   : List (Nat × Nat × Frame) := []
  deriving DecidableEq, Repr, Inhabited

/-- A landing whose memory writes are not yet acknowledged (R112, R115, R269). -/
structure Landing where
  n    : Nat
  ctx  : Nat
  gen  : Nat
  /-- bytes written: (address, length) -/
  spans : List (Nat × Nat)
  /-- SEQ of the slab -/
  seq  : U32 := 0
  /-- the answer that leaves once the writes are visible, toward this chip -/
  ack  : Option (Nat × Frame) := none
  deriving DecidableEq, Repr, Inhabited

/-- An entry of an open feed (R137, R141 to R145). -/
structure FeedEnt where
  lslot  : Nat
  m      : Nat := 0
  ready  : Nat := 0
  done   : Nat := 0
  closed : Bool := false
  zero   : Bool := false
  deriving DecidableEq, Repr, Inhabited

/-- Why a feed is being aborted (R146, R147, R338). -/
inductive AbortWhy where
  | kill | retire | reset
  deriving DecidableEq, Repr, Inhabited

/-- A feed of a started, or killed and not yet acknowledged, FEED_ARM (R140 to R147). -/
structure Feed where
  id     : Nat
  q      : Nat
  idx    : U32
  ctx    : Nat
  gen    : Nat
  xid    : Nat
  gate   : Bool
  got    : Nat
  dmcnt  : Nat := 0
  dmval  : U32 := 0
  ents   : List FeedEnt := []
  abort  : Option AbortWhy := none
  /-- a RETURN of the exchange has started (R145) -/
  retSeen : Bool := false
  /-- the feed has been acknowledged after ABORT: kept for the rerun's RESUME -/
  ended  : Bool := false
  deriving DecidableEq, Repr, Inhabited

/-- A Bay armed for a tag (R140), until its FEED_ARM commits or the tag is retired. -/
structure ArmedBay where
  ctx   : Nat
  gen   : Nat
  xid   : Nat
  lslot : Nat
  deriving DecidableEq, Repr, Inhabited

/-- The Tap beside KTAP_STATUS: streams with a STOP pending (R311), and reverse messages sent. -/
structure TapSt where
  stops : List Nat := []
  out   : List (List U32) := []
  deriving DecidableEq, Repr, Inhabited

/-- A ring transmit direction: destination, DIR, next SEQ, unacknowledged frames and frames waiting for the window. -/
structure RingTx where
  dst    : Nat
  dir    : Nat
  next   : U32 := 0
  unacked : List Frame := []
  waiting : List Frame := []
  /-- back-off in µs (0 none), the resend made and not yet answered, and the scheduled resend (R199) -/
  backoff : Nat := 0
  backSeq : Option U32 := none
  resend  : Option U32 := none
  deriving DecidableEq, Repr, Inhabited

/-- A bound ring slot (R181, R198). -/
structure RingSlot where
  ctx     : Nat
  q       : Nat
  idx     : U32
  gid     : Nat
  gseq    : U32
  /-- OP of R198: 1 REDUCE, 2 GATHER, 3 SHIFT, 4 PERMUTE -/
  op      : Nat
  dfmt    : Nat
  retry   : Nat
  attempt : Nat := 0
  members : List Nat := []
  /-- own ring index -/
  me      : Nat := 0
  /-- SIZE of R198, element bytes, own COUNT -/
  size    : Nat := 0
  eb      : Nat := 0
  count   : Nat := 0
  src     : Nat := 0
  dst     : Nat := 0
  /-- RING_REDUCE input as bytes, read from SRC or from the Camber counts -/
  input   : List Byte := []
  /-- permutation, or the shift distance applied: destination ring index of own block and source ring index -/
  toIdx   : Nat := 0
  fromIdx : Nat := 0
  cnt     : Nat := 0
  buf     : U32 := 0
  finals  : Nat := 0
  /-- counts of the blocks received, by ring index -/
  cnts    : List (Nat × Nat) := []
  /-- receive entries: source chip, DIR, SESSION, next SEQ -/
  rx      : List (Nat × Nat × Nat × U32) := []
  tx      : List RingTx := []
  started : Bool := false
  /-- code of the REPORT sent, if any; reports held by the leader; the decision received -/
  reported : Option Nat := none
  decided  : Option Nat := none
  /-- chips waited on, the one waited on longest first, and those whose last answer was NOT_READY (R207) -/
  waits    : List Nat := []
  notrdy   : List Nat := []
  /-- the uncorrectable error found in the slot's data: address or codeword (low, high), array, INST (R196, R351) -/
  det      : List Nat := []
  dropped  : Nat := 0
  rerun    : Bool := false
  deriving DecidableEq, Repr, Inhabited

/-- A REPORT or DECIDE that no RACK has answered (R199). -/
structure RingCtl where
  ctx  : Nat
  gid  : Nat
  gseq : U32
  dst  : Nat
  f    : Frame
  deriving DecidableEq, Repr, Inhabited

/-- Reports a leader holds for a collective attempt, and whether it has decided; at another member, that a DECIDE of the
attempt has been taken (R193, R195, R199). -/
structure RingLead where
  ctx     : Nat
  gid     : Nat
  gseq    : U32
  attempt : Nat
  done    : List Nat := []
  decided : Bool := false
  deriving DecidableEq, Repr, Inhabited

/-- An entry of the abort table (R195). -/
structure AbortEnt where
  ctx   : Nat
  gid   : Nat
  gseq  : U32
  attempt : Nat
  code  : Nat
  rerun : Bool
  deriving DecidableEq, Repr, Inhabited

/-- A bound barrier slot (R171). -/
structure Barrier where
  ctx     : Nat
  q       : Nat
  idx     : U32
  gen     : Nat
  bid     : Nat
  members : List Nat
  lead    : Nat
  arrived : List Nat := []
  trel    : Option U64 := none
  mis     : Bool := false
  late    : Bool := false
  released : Bool := false
  deriving DecidableEq, Repr, Inhabited

/-- An open digest session (R174): items hashed into the program hash so far, in order. -/
structure Digest where
  ctx     : Nat
  sid     : Nat
  q       : Nat
  regions : List (List Byte) := []
  bytes   : Nat := 0
  items   : List Byte := []
  ncmd    : Nat := 0
  deriving DecidableEq, Repr, Inhabited

/-- One bank of the FU tables (R242): seed words (default 0) and program records by code (absent: empty slot). -/
structure FuBank where
  seed : List (Nat × K36) := []
  recs : List (Nat × List Byte) := []
  deriving DecidableEq, Repr, Inhabited

/-- The FU tables. LIVE and SHADOW marks are in KFU_STATUS. -/
structure FuSt where
  bank0 : FuBank := {}
  bank1 : FuBank := {}
  /-- the built-in image supplied with the accepted microcode (R391), by which a slot is known as a built-in function -/
  image : FuBank := {}
  deriving DecidableEq, Repr, Inhabited

/-- A line of the Map cache: where it lies, and which line of which bank of a slot it holds (R91, R98). -/
structure MapLine where
  way  : Nat
  set  : Nat
  slot : Nat
  bank : Nat
  line : Nat
  deriving DecidableEq, Repr, Inhabited

/-- A running or completed save (R284): the job and its regions. -/
structure Save where
  ctx  : Nat
  jobs : List Job := []
  regions : List Region := []
  /-- Map-cache lines of its PIN ways (R284) -/
  tags : List MapLine := []
  /-- accepted and not yet written -/
  open_ : Bool := true
  deriving DecidableEq, Repr, Inhabited

/-- The error unit beside its registers: the FIFO of log entries and the next SEQ (R354, R356). -/
structure ErrSt where
  fifo : List (List U32) := []
  seq  : U32 := 0
  /-- injections applied and not yet read: array and flipped bits (R363) -/
  hurt : List (Nat × Nat) := []
  deriving DecidableEq, Repr, Inhabited

/-- A fire that is pending (R369): trigger id, source chip, TFIRE, and whether its TRIG came late. -/
structure Fire where
  tid   : Nat
  src   : Nat
  tfire : U64
  late  : Bool := false
  deriving DecidableEq, Repr, Inhabited

/-- A TRIG that no TACK has answered (R368). -/
structure Trig where
  dst   : Nat
  tid   : Nat
  tries : Nat
  f     : Frame
  deriving DecidableEq, Repr, Inhabited

/-- The Catwalk beside its registers and counters. -/
structure CwSt where
  /-- records lost since the last one written: count, stamp of the first, its cause and source chip (R376) -/
  loss   : Option (Nat × U64 × Nat × Nat) := none
  /-- records written in the current 1 µs window, locally and bytes per Pier (R377) -/
  local_ : Nat := 0
  remote : List (Nat × Nat) := []
  /-- freeze mode: records still to take after a fire; stopped until EN is written 0 then 1 (R375) -/
  post    : Option Nat := none
  stopped : Bool := false
  fire   : Option Fire := none
  trigs  : List Trig := []
  seen   : List (Nat × Nat) := []
  dumping : Bool := false
  deriving DecidableEq, Repr, Inhabited

/-- The boot loader and the microcode store (R339 to R341). -/
structure BootSt where
  src   : Nat := 0
  dbg   : List Byte := []
  store : List Byte := []
  deriving DecidableEq, Repr, Inhabited

/-- Level of a reset (R330). -/
inductive Level where
  | power | system | core
  deriving DecidableEq, Repr, Inhabited

/-- The reset sequencer (R331 to R338). -/
structure RstSt where
  /-- level of the reset whose release or bring-up is not finished -/
  level  : Option Level := none
  /-- the filtered reset line is low -/
  low    : Bool := false
  /-- domains 0 to rel - 1 have been released -/
  rel    : Nat := 12
  /-- the internal arrays have been written (R342) -/
  arrays : Bool := true
  /-- ready has been posted and no reset has been taken since -/
  posted : Bool := false
  /-- the isolation wrapper still waits for a partner (R338), and it has timed out -/
  iso    : Bool := false
  isoTmo : Bool := false
  /-- the straps as sampled, and KERR_FATAL_N as it stood, when the reset was taken (R333, R345) -/
  straps : Straps := {}
  fpend  : Bool := false
  /-- a memory port of the wrapper waits for the response to a tag that is no landing's (R338) -/
  tags   : Bool := false
  /-- event queues of which a packet was still being built when the reset was taken (R258) -/
  evLost : List Nat := []
  deriving DecidableEq, Repr, Inhabited

/-- The pace of the current window; KPACE holds what the next window takes (R327). -/
structure PaceSt where
  en  : Bool := false
  bpw : Nat := 1024
  deriving DecidableEq, Repr, Inhabited

/-- The decode arbiter (R50): the queue served last in each class, and the decodes since one of a best-effort queue while
best-effort queues were ready. -/
structure ArbSt where
  sys : Nat := 63
  lc  : Nat := 63
  be  : Nat := 63
  n   : Nat := 0
  deriving DecidableEq, Repr, Inhabited

/-- A copy that the descriptor cache took of an entry at a fill (R208, R216). -/
structure DescCopy where
  own   : Nat
  h     : Nat
  words : List U32
  deriving DecidableEq, Repr, Inhabited

/-- The last response on the control port (R305). -/
structure CtlSt where
  rdata : U32 := 0
  rerr  : Bool := false
  deriving DecidableEq, Repr, Inhabited

/-- The state of the block. -/
structure State where
  /-- the MODEL's queue of waiting commands, first in first out -/
  pending : List Instr := []
  part    : Part := {}
  mem     : Memory := []
  /-- every register word that is not 0, at its byte offset in the 1 MiB window -/
  regs    : List (Nat × U32) := []
  /-- 48-bit counters at the offset of their LO word, and their latched HI words (R282) -/
  cnt48   : List (Nat × U48) := []
  /-- femtojoules below one microjoule carried by each owner's energy counter (R281) -/
  energyRem : List (Nat × Nat) := []
  hiLatch : List (Nat × U16) := []
  /-- address pairs as taken at the enable, GO or SAVE that uses them, at the offset of their LO word (R389) -/
  lat     : List (Nat × U48) := []
  queues  : List (Nat × Queue) := []
  jobs    : List Job := []
  regions : List Region := []
  /-- blocks that wait for a region, oldest first (R278) -/
  regWait : List Region := []
  /-- lines of the Map cache (R98) -/
  mapLines : List MapLine := []
  tapRuns : List TapRun := []
  exch    : List Exch := []
  rets    : List RetRun := []
  /-- exchanges (context, GEN, XID) whose FEED_ARM has armed every Bay of its table (R145) -/
  fed     : List (Nat × Nat × Nat) := []
  refs    : List Ref := []
  tx      : List TxStream := []
  hellos  : List Hello := []
  net     : Net := {}
  landings : List Landing := []
  landNo  : Nat := 0
  feeds   : List Feed := []
  arms    : List ArmedBay := []
  feedOut : List (List U32) := []
  tap     : TapSt := {}
  rings   : List (Nat × RingSlot) := []
  ringCtl : List RingCtl := []
  leads   : List RingLead := []
  aborts  : List AbortEnt := []
  barriers : List Barrier := []
  digests : List Digest := []
  fu      : FuSt := {}
  /-- block-wide slots whose shadow bias bank has been written since the last flip (R95) -/
  biasW   : List Nat := []
  saves   : List Save := []
  err     : ErrSt := {}
  cw      : CwSt := {}
  boot    : BootSt := {}
  rst     : RstSt := {}
  pace    : PaceSt := {}
  ctl     : CtlSt := {}
  /-- KERR_FATAL_N is asserted (R359) -/
  fatalPin : Bool := false
  /-- KREFCLK runs (R326) -/
  refclk  : Bool := true
  /-- fabric time last sampled (R323) -/
  ftime   : U64 := 0
  /-- the decode arbiter, and how many commands have been found ready (R50, R181, R278) -/
  arb     : ArbSt := {}
  ticks   : Nat := 0
  /-- copies in the descriptor cache (R208) -/
  dcache  : List DescCopy := []
  /-- event queues whose records have stood unread for TMO µs (R262) -/
  evHeld  : List Nat := []
  /-- the last packet of each event queue that may still be being built: where its records lie, and what lay there (R258) -/
  evNew   : List (Nat × List (Nat × List Byte)) := []
  /-- windows whose last Caisson request may still be pending (R267), and contexts whose reclaim waits for landings (R273) -/
  casPend : List Nat := []
  reclaims : List Nat := []
  /-- the MODEL's counter of free values used -/
  free    : Nat := 0
  deriving DecidableEq, Repr, Inhabited

/-- The register words that are not 0 while a power-on reset holds the block (R390 column PO, straps 0b11): KPACE,
KERR_CTL, KRSTCAUSE, KPIER_VCW, KTOPO, KCTX_CFG, KCTX_WAITCFG, KCTX_SPAN_QUOTA, KCTX_COLL_TMO and KCTX_CAS_RSTAT. The
words that are fixed in the part read from `part` (R386 to R388). -/
def resetWords : List (Nat × U32) :=
  [(0x100, 0x0000f801), (0x1000, 0x00186400), (0x10008, 0x60000400)]
    ++ [(0x40000, 0x221c688f), (0x40040, 0x221c688f), (0x40080, 0x221c688f), (0x400c0, 0x221c688f), (0x60004, 0xfff)]
    ++ (List.range 16).map (fun c => (0xb0000 + 0x40 * c, 0x00ff0000))
    ++ [(0xbc10c, 6), (0xbca08, 1)]
    ++ (List.range 16).flatMap (fun c =>
        [(0xc010c + 0x4000 * c, 6), (0xc0520 + 0x4000 * c, 0x2000), (0xc0800 + 0x4000 * c, 0x7d0),
         (0xc0a08 + 0x4000 * c, 1)])

/-- The block at the moment a power-on reset is taken: every register at its PO value, device memory with nothing
listed, no domain released. A program comes to run only after release, boot and configuration (log entry 5). -/
def State.reset : State :=
  { regs := resetWords, rst := { level := some .power, low := true, rel := 0, arrays := false, posted := false } }

end Sys2Proof.Machine
end

