-- ==== Sys2Proof/Machine/Mem.lean ====
section
/-! DEFINITION. Device memory by bytes (R317), little-endian words (R27, R108), the register words, the 48-bit
counters, and the free values. -/
namespace Sys2Proof.Machine

/-- The memory ports carry 48-bit addresses (section Memory ports of 13_boundary_ports). -/
def addrMod : Nat := 2 ^ 48

/-- What a byte that nothing has written reads as. Log entry 2. -/
def memDefault : Byte := 0

/-- The canonical form of device memory. -/
def Memory.wf (m : Memory) : Bool := FMap.wf memDefault m

/-- Read one byte. -/
def State.rd8 (s : State) (a : Nat) : Byte := FMap.get memDefault s.mem (a % addrMod)

/-- Write one byte. -/
def State.wr8 (s : State) (a : Nat) (b : Byte) : State :=
  { s with mem := FMap.set memDefault s.mem (a % addrMod) b }

/-- The little-endian value of some bytes. -/
def leNat : List Byte → Nat
  | [] => 0
  | b :: bs => b.toNat + 256 * leNat bs

/-- n little-endian bytes of a value. -/
def natLe : Nat → Nat → List Byte
  | 0, _ => []
  | n + 1, v => BitVec.ofNat 8 v :: natLe n (v / 256)

/-- Read n bytes from address a. -/
def State.rd (s : State) (a n : Nat) : List Byte := (List.range n).map (fun i => s.rd8 (a + i))

/-- Write bytes from address a. -/
def State.wr (s : State) (a : Nat) : List Byte → State
  | [] => s
  | b :: bs => (s.wr8 a b).wr (a + 1) bs

def State.rdLe (s : State) (a n : Nat) : Nat := leNat (s.rd a n)
def State.rd16 (s : State) (a : Nat) : Nat := s.rdLe a 2
def State.rd32 (s : State) (a : Nat) : Nat := s.rdLe a 4
def State.rd64 (s : State) (a : Nat) : Nat := s.rdLe a 8
def State.wr32 (s : State) (a v : Nat) : State := s.wr a (natLe 4 v)
def State.wr64 (s : State) (a v : Nat) : State := s.wr a (natLe 8 v)

/-- Some words as bytes. -/
def wordsBytes (ws : List Nat) : List Byte := ws.flatMap (natLe 4)

/-- Bits [hi:lo] of a value. -/
def fld (v hi lo : Nat) : Nat := v / 2 ^ lo % 2 ^ (hi + 1 - lo)

/-- Bit i of a value. -/
def bitOf (v i : Nat) : Bool := v / 2 ^ i % 2 == 1

/-- v with bits [hi:lo] replaced by x. -/
def putFld (v hi lo x : Nat) : Nat := v - fld v hi lo * 2 ^ lo + x % 2 ^ (hi + 1 - lo) * 2 ^ lo

def b2n (b : Bool) : Nat := if b then 1 else 0

/-- (a - b) as an i32 of u32 values. -/
def i32diff (a b : Nat) : Int := (BitVec.ofNat 32 a - BitVec.ofNat 32 b).toInt

/-- (a - b) as an i16 of u16 values. -/
def i16diff (a b : Nat) : Int := (BitVec.ofNat 16 a - BitVec.ofNat 16 b).toInt

/-- The register word at an offset of the 1 MiB window, as stored. -/
def State.reg (s : State) (off : Nat) : Nat := (FMap.get 0 s.regs off).toNat

/-- Store a register word. -/
def State.setReg (s : State) (off v : Nat) : State := { s with regs := FMap.set 0 s.regs off (u32 v) }

def State.rf (s : State) (off hi lo : Nat) : Nat := fld (s.reg off) hi lo
def State.rbit (s : State) (off i : Nat) : Bool := bitOf (s.reg off) i
def State.setRf (s : State) (off hi lo x : Nat) : State := s.setReg off (putFld (s.reg off) hi lo x)
def State.setRbit (s : State) (off i : Nat) (b : Bool) : State := s.setRf off i i (b2n b)

/-- Add n to a saturating 32-bit count. -/
def State.satAdd (s : State) (off n : Nat) : State := s.setReg off (min (s.reg off + n) 0xFFFFFFFF)

/-- An address pair of registers: LO at off, HI at off + 4 (R389). -/
def State.rpair (s : State) (off : Nat) : Nat := s.reg off + 2 ^ 32 * fld (s.reg (off + 4)) 15 0

/-- The address pair at off as it was when the enable, GO or SAVE that uses it was taken (R389). -/
def State.lpair (s : State) (off : Nat) : Nat := (FMap.get 0 s.lat off).toNat

/-- Take the address pair at off for the access that begins (R389). -/
def State.latch (s : State) (off : Nat) : State := { s with lat := FMap.set 0 s.lat off (BitVec.ofNat 48 (s.rpair off)) }

/-- The 48-bit counter whose LO word lies at off (R282, R364). -/
def State.cnt (s : State) (off : Nat) : Nat := (FMap.get 0 s.cnt48 off).toNat

/-- Advance a 48-bit counter, modulo 2^48. -/
def State.cntAdd (s : State) (off n : Nat) : State :=
  { s with cnt48 := FMap.set 0 s.cnt48 off (BitVec.ofNat 48 (s.cnt off + n)) }

-- offsets of the register map (R384, R385)
/-- Register block of command queue q. -/
def kq (q : Nat) : Nat := 0x20000 + 0x20 * q
/-- Window of context c; 16 is the system window. -/
def win (c : Nat) : Nat := if c = 16 then 0xBC000 else 0xC0000 + 0x4000 * c
/-- Context control block of context c. -/
def kctx (c : Nat) : Nat := 0xB0000 + 0x40 * c
/-- Event queue e. -/
def kevq (e : Nat) : Nat := 0x90100 + 0x20 * e
/-- Caisson pool p. -/
def kcas (p : Nat) : Nat := 0xA0000 + 0x40 * p
/-- Descriptor and memory-window set of context c; 16 is the system's (R385). -/
def kdsc (c : Nat) : Nat := 0x70000 + 0x20 * c

/-- A codeword of array a is written: an armed injection of that array is applied (R363). -/
def State.arrayWrite (s : State) (a : Nat) : State :=
  if s.rbit 0x1014 31 ∧ s.rf 0x1014 7 0 = a then
    let s1 := s.setRbit 0x1014 31 false
    { s1 with err := { s1.err with hurt := s1.err.hurt ++ [(a, s.rf 0x1014 9 8)] } }
  else s

/-- Advance a counter of the Catwalk, a codeword of array 0x0A (R364, R363). -/
def State.cwAdd (s : State) (off n : Nat) : State := (s.cntAdd off n).arrayWrite 0xA
/-- Per-context Catwalk counter k of owner c (R364). -/
def State.ctxCount (s : State) (c k n : Nat) : State := s.cwAdd (win c + 0x1000 + 8 * k) n
/-- System counter k (R364). -/
def State.sysCount (s : State) (k : Nat) : State := s.cwAdd (0x1A800 + 8 * k) 1
/-- Accounting counter k of owner c (R280). -/
def State.acct (s : State) (c k n : Nat) : State := s.cntAdd (win c + 0xC00 + 8 * k) n

/-- Set sticky bits of a context's window; the system window has no sticky register but the Caissons' (R385). -/
def State.stick (s : State) (c off m : Nat) : State :=
  if c < 16 ∨ off = 0xA1C then s.setReg (win c + off) (s.reg (win c + off) ||| m) else s

/-- Take a free number: the counter that free values are applied to advances. Log entry 7. -/
def State.tick (s : State) : Nat × State := (s.free, { s with free := s.free + 1 })

/-- n bytes whose contents the manual leaves undefined. Log entry 7. -/
def State.freeBytes (s : State) (n : Nat) : List Byte × State :=
  ((List.range n).map (fun i => Config.freeByte (s.free + i)), { s with free := s.free + n })

/-- Overwrite ranges of memory with undefined bytes (R34, R286). -/
def State.scramble (s : State) : List (Nat × Nat) → State
  | [] => s
  | (a, n) :: rs =>
    let p := s.freeBytes n
    (p.2.wr a p.1).scramble rs

/-- Read fabric time: an input that never moves backward (R323). Log entry 8. -/
def State.readTime (s : State) : Nat × State :=
  let f := Config.freeTime s.free
  let t := if s.ftime.toNat ≤ f.toNat then f else s.ftime
  (t.toNat, { s with ftime := t, free := s.free + 1 })

/-- Charge n events of energy class i to owner c: whole microjoules go to counter 13, the remainder is carried (R281). -/
def State.energy (s : State) (c i n : Nat) : State :=
  let e := FMap.get 0 s.energyRem c + n * s.reg (0xB0800 + 4 * i)
  { s.acct c 13 (e / 10 ^ 9) with energyRem := FMap.set 0 s.energyRem c (e % 10 ^ 9) }

/-- The energy class of an accounting counter of beats (R281); 8 is none. -/
def energyClass (k : Nat) : Nat := match k with
  | 0 => 0
  | 3 => 2
  | 4 => 3
  | _ => 8

/-- Memory-port transfers of 256 bytes for rows of n bytes: each row's own, and twice as many through a descriptor with HALF
(R217, R218). -/
def transfers (rows n : Nat) (half : Bool) : Nat := if n = 0 then 0 else rows * ((n + 255) / 256) * (1 + b2n half)

/-- Charge rows of n bytes read (k 8) or written (k 9) at the memory ports, with their transfers (R280, R281). -/
def State.chargeRows (s : State) (c k rows n : Nat) (half : Bool) : State :=
  (s.acct c k (rows * n)).energy c 4 (transfers rows n half)

/-- Charge a list of row groups (rows, bytes of each, HALF). -/
def State.chargeReads (s : State) (c : Nat) (l : List (Nat × Nat × Bool)) : State :=
  l.foldl (fun s x => s.chargeRows c 8 x.1 x.2.1 x.2.2) s

/-- Charge fills of at most n 64-byte lines: how many rests on what the caches hold (R280; log entry 11). -/
def State.chargeFills (s : State) (c n : Nat) : State :=
  ({ s with free := s.free + 1 } : State).chargeRows c 8 ((Config.freeCount s.free).toNat % (n + 1)) 64 false

/-- Charge engine beats, whose numbers rest on timing, with their energy (R280, R281). Log entry 11. -/
def State.charge (s : State) (c : Nat) : List Nat → State
  | [] => s
  | k :: ks =>
    let n := (Config.freeCount s.free).toNat
    let s1 := (s.acct c k n).energy c (energyClass k) n
    { s1 with free := s1.free + 1 }.charge c ks

/-- Charge writes of so many bytes each, their transfers by 256 bytes (R280, R281). -/
def State.chargeWrites (s : State) (c : Nat) (ns : List Nat) : State :=
  ns.foldl (fun s n => s.chargeRows c 9 1 n false) s

/-- Charge what a killed command had read and written: how far it was rests on timing (R280; log entry 11). -/
def State.chargeKilled (s : State) (c : Nat) : State :=
  let f (i : Nat) : Nat := (Config.freeCount (s.free + i)).toNat
  { ((s.acct c 8 (f 0)).acct c 9 (f 1)).energy c 4 (f 2) with free := s.free + 3 }

/-- Count n events of operation op in a format, unless the counters are frozen (R366, R367). While a fire is pending an event
is stamped, and counts where its stamp lies before TFIRE (R369, R372). -/
def State.opCount (s : State) (op fmt n : Nat) : State :=
  let k := 0x18000 + 8 * (16 * op + fmt)
  if s.rbit 0x1A000 0 then s
  else match s.cw.fire with
    | none => s.cwAdd k n
    | some f => if s.readTime.1 < f.tfire.toNat then s.readTime.2.cwAdd k n else s.readTime.2

end Sys2Proof.Machine
end

