-- ==== Sys2Proof/Machine/Regs.lean ====
section
/-! DEFINITION. The register map (17_register_map): every architected word's offset, access codes (R9) and reset
values (R390), generated from the field tables of the chapters, and the plain effect of a write. Words that the device
computes when they are read are in View. -/
namespace Sys2Proof.Machine

/-- One register, or an array of them: offset, stride and count; the bits of access RW, W1C and RW1S; whether a read
clears it (RC); the bits kept by system and core reset; and its word after power-on, system and core reset (a "part",
"strap" or "kept" field counts 0 here). -/
structure RegDef where
  base   : Nat
  stride : Nat
  count  : Nat
  rw     : Nat
  w1c    : Nat
  rw1s   : Nat
  rc     : Bool
  keepS  : Nat
  keepC  : Nat
  po     : Nat
  sy     : Nat
  co     : Nat
  deriving DecidableEq, Repr

/-- Registers of the block window (R384), generated from the field tables of the chapters, part 0. -/
def blockRegs0 : List RegDef := [
  -- KCAP0
  ⟨0x0, 0x0, 1, 0x0, 0x0, 0x0, false, 0x0, 0x0, 0x0, 0x0, 0x0⟩,
  -- KCAP1
  ⟨0x4, 0x0, 1, 0x0, 0x0, 0x0, false, 0x0, 0x0, 0x0, 0x0, 0x0⟩,
  -- KRSTCAUSE
  ⟨0x100, 0x0, 1, 0x0, 0x78, 0x0, false, 0x70, 0x1868, 0x1, 0xa, 0x13⟩,
  -- KBOOT_STATUS
  ⟨0x200, 0x0, 1, 0x0, 0x0, 0x0, false, 0x0, 0x0, 0x0, 0x0, 0x0⟩,
  -- KBOOT_CTL
  ⟨0x204, 0x0, 1, 0x18, 0x0, 0x0, false, 0x0, 0x18, 0x0, 0x0, 0x0⟩,
  -- KBOOT_ADDR_LO
  ⟨0x208, 0x0, 1, 0xffffff00, 0x0, 0x0, false, 0x0, 0xffffff00, 0x0, 0x0, 0x0⟩,
  -- KBOOT_ADDR_HI
  ⟨0x20c, 0x0, 1, 0xffff, 0x0, 0x0, false, 0x0, 0xffff, 0x0, 0x0, 0x0⟩,
  -- KBOOT_DATA
  ⟨0x210, 0x0, 1, 0x0, 0x0, 0x0, false, 0x0, 0x0, 0x0, 0x0, 0x0⟩,
  -- KBOOT_DIG
  ⟨0x220, 0x4, 8, 0x0, 0x0, 0x0, false, 0x0, 0xffffffff, 0x0, 0x0, 0x0⟩,
  -- KERR_CTL
  ⟨0x1000, 0x0, 1, 0x1fff03, 0x0, 0x0, false, 0x1fff03, 0x1fff03, 0x186400, 0x0, 0x0⟩,
  -- KERR_STATUS
  ⟨0x1004, 0x0, 1, 0x0, 0x0, 0x0, false, 0x3f08, 0x3f1c, 0x0, 0x0, 0x0⟩,
  -- KERR_LOST
  ⟨0x1008, 0x0, 1, 0x0, 0x0, 0x0, true, 0xffffffff, 0xffffffff, 0x0, 0x0, 0x0⟩,
  -- KERR_LOG_POP
  ⟨0x100c, 0x0, 1, 0x0, 0x0, 0x0, false, 0x0, 0x0, 0x0, 0x0, 0x0⟩,
  -- KERR_FIRST_CLR
  ⟨0x1010, 0x0, 1, 0x0, 0x0, 0x0, false, 0x0, 0x0, 0x0, 0x0, 0x0⟩,
  -- KERR_INJECT
  ⟨0x1014, 0x0, 1, 0x3ff, 0x0, 0x80000000, false, 0x0, 0x0, 0x0, 0x0, 0x0⟩,
  -- KERRLOG
  ⟨0x1040, 0x4, 8, 0x0, 0x0, 0x0, false, 0xffffffff, 0xffffffff, 0x0, 0x0, 0x0⟩,
  -- KERRFIRST
  ⟨0x1060, 0x4, 8, 0x0, 0x0, 0x0, false, 0xffffffff, 0xffffffff, 0x0, 0x0, 0x0⟩,
  -- KERRFIRST_SLOT
  ⟨0x1080, 0x4, 32, 0x0, 0x0, 0x0, false, 0xffffffff, 0xffffffff, 0x0, 0x0, 0x0⟩,
  -- KERR_CORR
  ⟨0x1100, 0x8, 12, 0x0, 0x0, 0x0, true, 0xffffffff, 0xffffffff, 0x0, 0x0, 0x0⟩,
  -- KERR_UNC
  ⟨0x1104, 0x8, 12, 0x0, 0x0, 0x0, true, 0xffffffff, 0xffffffff, 0x0, 0x0, 0x0⟩,
  -- KTAP_STATUS
  ⟨0x10000, 0x0, 1, 0x0, 0xe0, 0x0, false, 0x0, 0x0, 0x0, 0x0, 0x0⟩,
  -- KFEED_STATUS
  ⟨0x10004, 0x0, 1, 0x0, 0x4, 0x0, false, 0x0, 0x2, 0x0, 0x0, 0x0⟩,
  -- KPACE
  ⟨0x10008, 0x0, 1, 0x800007ff, 0x18000000, 0x0, false, 0x0, 0x980007ff, 0x400, 0x400, 0x0⟩,
  -- KPACE_SLIP
  ⟨0x1000c, 0x0, 1, 0x0, 0x0, 0x0, true, 0x0, 0xffffffff, 0x0, 0x0, 0x0⟩]

/-- Registers of the block window (R384), generated from the field tables of the chapters, part 1. -/
def blockRegs1 : List RegDef := [
  -- KCW_STATUS
  ⟨0x1a000, 0x0, 1, 0x0, 0x14, 0x0, false, 0x15, 0x15, 0x0, 0x0, 0x0⟩,
  -- KCW_KEY
  ⟨0x1a004, 0x0, 1, 0xffffffff, 0x0, 0x0, false, 0xffffffff, 0xffffffff, 0x0, 0x0, 0x0⟩,
  -- KCW_TRIG_CTL
  ⟨0x1a010, 0x0, 1, 0xffffdfff, 0x0, 0x0, false, 0xffffdfff, 0xffffdfff, 0x0, 0x0, 0x0⟩,
  -- KCW_TRIG_LIST_LO
  ⟨0x1a014, 0x0, 1, 0xfffff000, 0x0, 0x0, false, 0xfffff000, 0xfffff000, 0x0, 0x0, 0x0⟩,
  -- KCW_TRIG_LIST_HI
  ⟨0x1a018, 0x0, 1, 0xffff, 0x0, 0x0, false, 0xffff, 0xffff, 0x0, 0x0, 0x0⟩,
  -- KCW_TRIG_STATUS
  ⟨0x1a01c, 0x0, 1, 0x0, 0x20000000, 0x0, false, 0x3fffffff, 0x3fffffff, 0x0, 0x0, 0x0⟩,
  -- KCW_TRIG_TFIRE
  ⟨0x1a020, 0x4, 2, 0x0, 0x0, 0x0, false, 0xffffffff, 0xffffffff, 0x0, 0x0, 0x0⟩,
  -- KCW_FREEZE_CLR
  ⟨0x1a028, 0x0, 1, 0x0, 0x0, 0x0, false, 0x0, 0x0, 0x0, 0x0, 0x0⟩,
  -- KCW_TR_CTL
  ⟨0x1a040, 0x0, 1, 0x3fffff, 0x0, 0x0, false, 0x3fffff, 0x3fffff, 0x0, 0x0, 0x0⟩,
  -- KCW_TR_POST
  ⟨0x1a044, 0x0, 1, 0x7ffffff, 0x0, 0x0, false, 0x7ffffff, 0x7ffffff, 0x0, 0x0, 0x0⟩,
  -- KCW_TR_BASE_LO
  ⟨0x1a048, 0x0, 1, 0xffc00000, 0x0, 0x0, false, 0xffc00000, 0xffc00000, 0x0, 0x0, 0x0⟩,
  -- KCW_TR_BASE_HI
  ⟨0x1a04c, 0x0, 1, 0xffff, 0x0, 0x0, false, 0xffff, 0xffff, 0x0, 0x0, 0x0⟩,
  -- KCW_TR_WR
  ⟨0x1a050, 0x0, 1, 0x0, 0x0, 0x0, false, 0xffffffff, 0xffffffff, 0x0, 0x0, 0x0⟩,
  -- KCW_TR_OVER
  ⟨0x1a054, 0x0, 1, 0x0, 0x0, 0x0, false, 0xffffffff, 0xffffffff, 0x0, 0x0, 0x0⟩,
  -- KCW_TR_LOST
  ⟨0x1a058, 0x0, 1, 0x0, 0x0, 0x0, false, 0xffffffff, 0xffffffff, 0x0, 0x0, 0x0⟩,
  -- KCW_DUMP_CTL
  ⟨0x1a060, 0x0, 1, 0x2, 0x8, 0x1, false, 0xe, 0xe, 0x0, 0x0, 0x0⟩,
  -- KCW_DUMP_ADDR_LO
  ⟨0x1a064, 0x0, 1, 0xffffffc0, 0x0, 0x0, false, 0xffffffc0, 0xffffffc0, 0x0, 0x0, 0x0⟩,
  -- KCW_DUMP_ADDR_HI
  ⟨0x1a068, 0x0, 1, 0xffff, 0x0, 0x0, false, 0xffff, 0xffff, 0x0, 0x0, 0x0⟩,
  -- KQ_BASE_LO
  ⟨0x20000, 0x20, 64, 0xfffff000, 0x0, 0x0, false, 0x0, 0x0, 0x0, 0x0, 0x0⟩,
  -- KQ_BASE_HI
  ⟨0x20004, 0x20, 64, 0xffff, 0x0, 0x0, false, 0x0, 0x0, 0x0, 0x0, 0x0⟩,
  -- KQ_CFG
  ⟨0x20008, 0x20, 64, 0x3f1f, 0x0, 0x0, false, 0x0, 0x0, 0x0, 0x0, 0x0⟩,
  -- KQ_CTL
  ⟨0x2000c, 0x20, 64, 0x5, 0x0, 0x2, false, 0x0, 0x0, 0x0, 0x0, 0x0⟩,
  -- KQ_HEAD
  ⟨0x20010, 0x20, 64, 0x0, 0x0, 0x0, false, 0x0, 0x0, 0x0, 0x0, 0x0⟩,
  -- KQ_TAIL
  ⟨0x20014, 0x20, 64, 0x0, 0x0, 0x0, false, 0x0, 0x0, 0x0, 0x0, 0x0⟩]

/-- Registers of the block window (R384), generated from the field tables of the chapters, part 2. -/
def blockRegs2 : List RegDef := [
  -- KQ_STATUS
  ⟨0x20018, 0x20, 64, 0x0, 0x8, 0x0, false, 0x0, 0x0, 0x0, 0x0, 0x0⟩,
  -- KQ_FAULTIDX
  ⟨0x2001c, 0x20, 64, 0x0, 0x0, 0x0, false, 0x0, 0x0, 0x0, 0x0, 0x0⟩,
  -- KMAP_STORE_LO
  ⟨0x30000, 0x0, 1, 0xffe00000, 0x0, 0x0, false, 0x0, 0x0, 0x0, 0x0, 0x0⟩,
  -- KMAP_STORE_HI
  ⟨0x30004, 0x0, 1, 0xffff, 0x0, 0x0, false, 0x0, 0x0, 0x0, 0x0, 0x0⟩,
  -- KMAP_CTL
  ⟨0x30008, 0x0, 1, 0x1, 0x0, 0x0, false, 0x0, 0x0, 0x0, 0x0, 0x0⟩,
  -- KMAP_STATUS
  ⟨0x3000c, 0x0, 1, 0x0, 0x1, 0x0, false, 0x0, 0x0, 0x0, 0x0, 0x0⟩,
  -- KMAP_CTX_CFG
  ⟨0x30100, 0x8, 16, 0x1ffff, 0x0, 0x0, false, 0x0, 0x0, 0x0, 0x0, 0x0⟩,
  -- KMAP_CTX_WAYS
  ⟨0x30104, 0x8, 16, 0xffffffff, 0x0, 0x0, false, 0x0, 0x0, 0x0, 0x0, 0x0⟩,
  -- KMAP_EPOCH
  ⟨0x31000, 0x8, 256, 0x0, 0x0, 0x0, false, 0x0, 0x0, 0x0, 0x0, 0x0⟩,
  -- KMAP_SLOT_STAT
  ⟨0x31004, 0x8, 256, 0x0, 0x0, 0x0, false, 0x0, 0x0, 0x0, 0x0, 0x0⟩,
  -- KPIER_VCW
  ⟨0x40000, 0x40, 4, 0xffffffff, 0x0, 0x0, false, 0x0, 0xffffffff, 0x221c688f, 0x221c688f, 0x0⟩,
  -- KPIER_STATUS
  ⟨0x40004, 0x40, 4, 0x0, 0x0, 0x0, false, 0x0, 0x1, 0x0, 0x0, 0x0⟩,
  -- KPEER_VER
  ⟨0x41000, 0x4, 256, 0x0, 0x0, 0x0, false, 0x0, 0x0, 0x0, 0x0, 0x0⟩,
  -- KDPROF_LO
  ⟨0x50000, 0x0, 1, 0x0, 0x0, 0x0, false, 0x0, 0x0, 0x0, 0x0, 0x0⟩,
  -- KDPROF_HI
  ⟨0x50004, 0x0, 1, 0x0, 0x0, 0x0, false, 0x0, 0x0, 0x0, 0x0, 0x0⟩,
  -- KTRS_STATUS
  ⟨0x60000, 0x0, 1, 0x0, 0x0, 0x0, false, 0x0, 0x0, 0x0, 0x0, 0x0⟩,
  -- KTOPO
  ⟨0x60004, 0x0, 1, 0xfff, 0x0, 0x0, false, 0x0, 0xfff, 0xfff, 0xfff, 0x0⟩,
  -- KTRS_SLOT_ID
  ⟨0x60100, 0x10, 8, 0x0, 0x0, 0x0, false, 0x0, 0x0, 0x0, 0x0, 0x0⟩,
  -- KTRS_SLOT_SEQ
  ⟨0x60104, 0x10, 8, 0x0, 0x0, 0x0, false, 0x0, 0x0, 0x0, 0x0, 0x0⟩,
  -- KTRS_SLOT_PROG
  ⟨0x60108, 0x10, 8, 0x0, 0x0, 0x0, false, 0x0, 0x0, 0x0, 0x0, 0x0⟩,
  -- KTRS_SLOT_WAIT
  ⟨0x6010c, 0x10, 8, 0x0, 0x0, 0x0, false, 0x0, 0x0, 0x0, 0x0, 0x0⟩,
  -- KCMB_BASE_LO
  ⟨0x61000, 0x0, 1, 0xffe00000, 0x0, 0x0, false, 0x0, 0x0, 0x0, 0x0, 0x0⟩,
  -- KCMB_BASE_HI
  ⟨0x61004, 0x0, 1, 0xffff, 0x0, 0x0, false, 0x0, 0x0, 0x0, 0x0, 0x0⟩,
  -- KCMB_CTL
  ⟨0x61008, 0x0, 1, 0x1, 0x0, 0x0, false, 0x0, 0x0, 0x0, 0x0, 0x0⟩]

/-- Registers of the block window (R384), generated from the field tables of the chapters, part 3. -/
def blockRegs3 : List RegDef := [
  -- KCMB_EPOCH
  ⟨0x61100, 0x4, 256, 0x0, 0x0, 0x0, false, 0x0, 0x0, 0x0, 0x0, 0x0⟩,
  -- KDSC_BASE_LO
  ⟨0x70000, 0x20, 17, 0xfffff000, 0x0, 0x0, false, 0x0, 0x0, 0x0, 0x0, 0x0⟩,
  -- KDSC_BASE_HI
  ⟨0x70004, 0x20, 17, 0xffff, 0x0, 0x0, false, 0x0, 0x0, 0x0, 0x0, 0x0⟩,
  -- KDSC_LIMIT
  ⟨0x70008, 0x20, 17, 0x1fffff, 0x0, 0x0, false, 0x0, 0x0, 0x0, 0x0, 0x0⟩,
  -- KMEMWIN_BASE
  ⟨0x7000c, 0x20, 17, 0x7ffffff, 0x0, 0x0, false, 0x0, 0x0, 0x0, 0x0, 0x0⟩,
  -- KMEMWIN_SIZE
  ⟨0x70010, 0x20, 17, 0xfffffff, 0x0, 0x0, false, 0x0, 0x0, 0x0, 0x0, 0x0⟩,
  -- KFU_EPOCH
  ⟨0x80000, 0x0, 1, 0x0, 0x0, 0x0, false, 0x0, 0x0, 0x0, 0x0, 0x0⟩,
  -- KFU_STATUS
  ⟨0x80004, 0x0, 1, 0x0, 0x0, 0x0, false, 0x0, 0x0, 0x0, 0x0, 0x0⟩,
  -- KDECK_BASE_LO
  ⟨0x90000, 0x0, 1, 0xffe00000, 0x0, 0x0, false, 0x0, 0x0, 0x0, 0x0, 0x0⟩,
  -- KDECK_BASE_HI
  ⟨0x90004, 0x0, 1, 0xffff, 0x0, 0x0, false, 0x0, 0x0, 0x0, 0x0, 0x0⟩,
  -- KDECK_SIZE
  ⟨0x90008, 0x0, 1, 0xffff, 0x0, 0x0, false, 0x0, 0x0, 0x0, 0x0, 0x0⟩,
  -- KEVQ_BASE
  ⟨0x90100, 0x20, 17, 0xfffff000, 0x0, 0x0, false, 0x0, 0x0, 0x0, 0x0, 0x0⟩,
  -- KEVQ_CFG
  ⟨0x90104, 0x20, 17, 0xfffffb1f, 0x0, 0x0, false, 0x0, 0x0, 0x0, 0x0, 0x0⟩,
  -- KEVQ_CTL
  ⟨0x90108, 0x20, 17, 0x1, 0x0, 0x0, false, 0x0, 0x0, 0x0, 0x0, 0x0⟩,
  -- KEVQ_WR
  ⟨0x9010c, 0x20, 17, 0x0, 0x0, 0x0, false, 0x0, 0x0, 0x0, 0x0, 0x0⟩,
  -- KEVQ_RD
  ⟨0x90110, 0x20, 17, 0xffffffff, 0x0, 0x0, false, 0x0, 0x0, 0x0, 0x0, 0x0⟩,
  -- KEVQ_LOST
  ⟨0x90114, 0x20, 17, 0x0, 0x0, 0x0, true, 0x0, 0x0, 0x0, 0x0, 0x0⟩,
  -- KEVQ_PKTS
  ⟨0x90118, 0x20, 17, 0x0, 0x0, 0x0, false, 0x0, 0x0, 0x0, 0x0, 0x0⟩,
  -- KEVQ_STATUS
  ⟨0x9011c, 0x20, 17, 0x0, 0x7, 0x0, false, 0x0, 0x0, 0x0, 0x0, 0x0⟩,
  -- KCAS_CFG
  ⟨0xa0000, 0x40, 8, 0x0, 0x0, 0x0, false, 0x0, 0x0, 0x0, 0x0, 0x0⟩,
  -- KCAS_BASE_LO
  ⟨0xa0004, 0x40, 8, 0x0, 0x0, 0x0, false, 0x0, 0x0, 0x0, 0x0, 0x0⟩,
  -- KCAS_BASE_HI
  ⟨0xa0008, 0x40, 8, 0x0, 0x0, 0x0, false, 0x0, 0x0, 0x0, 0x0, 0x0⟩,
  -- KCAS_META_LO
  ⟨0xa000c, 0x40, 8, 0x0, 0x0, 0x0, false, 0x0, 0x0, 0x0, 0x0, 0x0⟩,
  -- KCAS_META_HI
  ⟨0xa0010, 0x40, 8, 0x0, 0x0, 0x0, false, 0x0, 0x0, 0x0, 0x0, 0x0⟩]

/-- Registers of the block window (R384), generated from the field tables of the chapters, part 4. -/
def blockRegs4 : List RegDef := [
  -- KCAS_CTXMASK
  ⟨0xa0014, 0x40, 8, 0x1ffff, 0x0, 0x0, false, 0x0, 0x0, 0x0, 0x0, 0x0⟩,
  -- KCAS_FREE
  ⟨0xa0018, 0x40, 8, 0x0, 0x0, 0x0, false, 0x0, 0x0, 0x0, 0x0, 0x0⟩,
  -- KCAS_LOWMARK
  ⟨0xa001c, 0x40, 8, 0x1fffff, 0x0, 0x0, false, 0x0, 0x0, 0x0, 0x0, 0x0⟩,
  -- KCAS_FALLBACK
  ⟨0xa0020, 0x40, 8, 0x0, 0x0, 0x0, true, 0x0, 0x0, 0x0, 0x0, 0x0⟩,
  -- KCAS_EMPTY
  ⟨0xa0024, 0x40, 8, 0x0, 0x0, 0x0, true, 0x0, 0x0, 0x0, 0x0, 0x0⟩,
  -- KCAS_RECLAIM
  ⟨0xa0400, 0x0, 1, 0xf, 0x0, 0x0, false, 0x0, 0x0, 0x0, 0x0, 0x0⟩,
  -- KCTX_CFG
  ⟨0xb0000, 0x40, 16, 0x7ffff003, 0x0, 0x0, false, 0x0, 0x0, 0xff0000, 0xff0000, 0xff0000⟩,
  -- KCTX_STATE
  ⟨0xb0004, 0x40, 16, 0x0, 0x0, 0x0, false, 0x0, 0x0, 0x0, 0x0, 0x0⟩,
  -- KCTX_TDN
  ⟨0xb0008, 0x40, 16, 0x0, 0x0, 0x1, false, 0x0, 0x0, 0x0, 0x0, 0x0⟩,
  -- KCTX_SAVE_CTL
  ⟨0xb000c, 0x40, 16, 0x0, 0x0, 0x3, false, 0x0, 0x0, 0x0, 0x0, 0x0⟩,
  -- KCTX_SAVE_LO
  ⟨0xb0010, 0x40, 16, 0xfffff000, 0x0, 0x0, false, 0x0, 0x0, 0x0, 0x0, 0x0⟩,
  -- KCTX_SAVE_HI
  ⟨0xb0014, 0x40, 16, 0xffff, 0x0, 0x0, false, 0x0, 0x0, 0x0, 0x0, 0x0⟩,
  -- KCTX_SAVE_SIZE
  ⟨0xb0018, 0x40, 16, 0x0, 0x0, 0x0, false, 0x0, 0x0, 0x0, 0x0, 0x0⟩,
  -- KACCT_COEF
  ⟨0xb0800, 0x4, 16, 0xffffffff, 0x0, 0x0, false, 0xffffffff, 0xffffffff, 0x0, 0x0, 0x0⟩]

/-- Registers of the block window (R384), generated from the field tables of the chapters. -/
def blockRegs : List RegDef := blockRegs0 ++ blockRegs1 ++ blockRegs2 ++ blockRegs3 ++ blockRegs4

/-- Registers of a context window by offset in it (R385), part 0. -/
def windowRegs0 : List RegDef := [
  -- KCTX_DB
  ⟨0x0, 0x4, 64, 0x0, 0x0, 0x0, false, 0x0, 0x0, 0x0, 0x0, 0x0⟩,
  -- KCTX_CNT_BASE_LO
  ⟨0x100, 0x0, 1, 0xfffff000, 0x0, 0x0, false, 0x0, 0x0, 0x0, 0x0, 0x0⟩,
  -- KCTX_CNT_BASE_HI
  ⟨0x104, 0x0, 1, 0xffff, 0x0, 0x0, false, 0x0, 0x0, 0x0, 0x0, 0x0⟩,
  -- KCTX_CNT_LIMIT
  ⟨0x108, 0x0, 1, 0x1fffff, 0x0, 0x0, false, 0x0, 0x0, 0x0, 0x0, 0x0⟩,
  -- KCTX_WAITCFG
  ⟨0x10c, 0x0, 1, 0xf, 0x0, 0x0, false, 0x0, 0x0, 0x6, 0x6, 0x6⟩,
  -- KCTX_TRUSS_STICKY
  ⟨0x400, 0x0, 1, 0x0, 0x1f, 0x0, false, 0x0, 0x0, 0x0, 0x0, 0x0⟩,
  -- KCTX_FAB_CTL
  ⟨0x500, 0x0, 1, 0xffff0001, 0x0, 0x0, false, 0x0, 0x0, 0x0, 0x0, 0x0⟩,
  -- KCTX_FAB_KEY
  ⟨0x504, 0x0, 1, 0xffffffff, 0x0, 0x0, false, 0x0, 0x0, 0x0, 0x0, 0x0⟩,
  -- KCTX_GEN_FLOOR
  ⟨0x508, 0x0, 1, 0xffff, 0x0, 0x0, false, 0x0, 0x0, 0x0, 0x0, 0x0⟩,
  -- KCTX_GEN_HIGH
  ⟨0x50c, 0x0, 1, 0x0, 0x0, 0x0, false, 0x0, 0x0, 0x0, 0x0, 0x0⟩,
  -- KCTX_RXSEQ_LO
  ⟨0x510, 0x0, 1, 0xfffff000, 0x0, 0x0, false, 0x0, 0x0, 0x0, 0x0, 0x0⟩,
  -- KCTX_RXSEQ_HI
  ⟨0x514, 0x0, 1, 0xffff, 0x0, 0x0, false, 0x0, 0x0, 0x0, 0x0, 0x0⟩,
  -- KCTX_BAYTAB_LO
  ⟨0x518, 0x0, 1, 0xfffff000, 0x0, 0x0, false, 0x0, 0x0, 0x0, 0x0, 0x0⟩,
  -- KCTX_BAYTAB_HI
  ⟨0x51c, 0x0, 1, 0xffff, 0x0, 0x0, false, 0x0, 0x0, 0x0, 0x0, 0x0⟩,
  -- KCTX_SPAN_QUOTA
  ⟨0x520, 0x0, 1, 0x3ffff, 0x0, 0x0, false, 0x0, 0x0, 0x2000, 0x2000, 0x2000⟩,
  -- KCTX_FAB_STICKY
  ⟨0x524, 0x0, 1, 0x0, 0xf, 0x0, false, 0x0, 0x0, 0x0, 0x0, 0x0⟩,
  -- KCTX_CWY_STICKY
  ⟨0x600, 0x0, 1, 0x0, 0xf, 0x0, false, 0x0, 0x0, 0x0, 0x0, 0x0⟩,
  -- KCTX_ORD
  ⟨0x700, 0x0, 1, 0x1, 0x2, 0x0, false, 0x0, 0x0, 0x0, 0x0, 0x0⟩,
  -- KCTX_COLL_TMO
  ⟨0x800, 0x0, 1, 0xffff, 0x0, 0x0, false, 0x0, 0x0, 0x7d0, 0x7d0, 0x7d0⟩,
  -- KCTX_GRP_BASE_LO
  ⟨0x804, 0x0, 1, 0xfffff000, 0x0, 0x0, false, 0x0, 0x0, 0x0, 0x0, 0x0⟩,
  -- KCTX_GRP_BASE_HI
  ⟨0x808, 0x0, 1, 0xffff, 0x0, 0x0, false, 0x0, 0x0, 0x0, 0x0, 0x0⟩,
  -- KCTX_GRP_LIMIT
  ⟨0x80c, 0x0, 1, 0x1ffff, 0x0, 0x0, false, 0x0, 0x0, 0x0, 0x0, 0x0⟩,
  -- KCTX_TRS_STICKY
  ⟨0x810, 0x0, 1, 0x0, 0x7, 0x0, false, 0x0, 0x0, 0x0, 0x0, 0x0⟩,
  -- KCTX_GTY_STICKY
  ⟨0x900, 0x0, 1, 0x0, 0x1f, 0x0, false, 0x0, 0x0, 0x0, 0x0, 0x0⟩]

/-- Registers of a context window by offset in it (R385), part 1. -/
def windowRegs1 : List RegDef := [
  -- KCTX_CAS_REQ
  ⟨0xa00, 0x0, 1, 0x0, 0x0, 0x0, false, 0x0, 0x0, 0x0, 0x0, 0x0⟩,
  -- KCTX_CAS_RES
  ⟨0xa04, 0x0, 1, 0x0, 0x0, 0x0, false, 0x0, 0x0, 0x0, 0x0, 0x0⟩,
  -- KCTX_CAS_RSTAT
  ⟨0xa08, 0x0, 1, 0x0, 0x0, 0x0, false, 0x0, 0x0, 0x1, 0x1, 0x1⟩,
  -- KCTX_CAS_ADDR_LO
  ⟨0xa0c, 0x0, 1, 0x0, 0x0, 0x0, false, 0x0, 0x0, 0x0, 0x0, 0x0⟩,
  -- KCTX_CAS_ADDR_HI
  ⟨0xa10, 0x0, 1, 0x0, 0x0, 0x0, false, 0x0, 0x0, 0x0, 0x0, 0x0⟩,
  -- KCTX_CAS_FREE
  ⟨0xa14, 0x0, 1, 0x0, 0x0, 0x0, false, 0x0, 0x0, 0x0, 0x0, 0x0⟩,
  -- KCTX_CAS_REF
  ⟨0xa18, 0x0, 1, 0x0, 0x0, 0x0, false, 0x0, 0x0, 0x0, 0x0, 0x0⟩,
  -- KCTX_CAS_STICKY
  ⟨0xa1c, 0x0, 1, 0x0, 0x1f, 0x0, false, 0x0, 0x0, 0x0, 0x0, 0x0⟩,
  -- KCTX_ACCT_LO
  ⟨0xc00, 0x8, 16, 0x0, 0x0, 0x0, false, 0xffffffff, 0xffffffff, 0x0, 0x0, 0x0⟩,
  -- KCTX_ACCT_HI
  ⟨0xc04, 0x8, 16, 0x0, 0x0, 0x0, false, 0xffff, 0xffff, 0x0, 0x0, 0x0⟩,
  -- KCTX_LDG_BASE_LO
  ⟨0xd00, 0x0, 1, 0xfffff000, 0x0, 0x0, false, 0x0, 0x0, 0x0, 0x0, 0x0⟩,
  -- KCTX_LDG_BASE_HI
  ⟨0xd04, 0x0, 1, 0xffff, 0x0, 0x0, false, 0x0, 0x0, 0x0, 0x0, 0x0⟩,
  -- KCTX_LDG_STICKY
  ⟨0xd08, 0x0, 1, 0x0, 0xf, 0x0, false, 0x0, 0x0, 0x0, 0x0, 0x0⟩]

/-- Registers of a context window by offset in it (R385). -/
def windowRegs : List RegDef := windowRegs0 ++ windowRegs1

/-- Does offset x name a word of this register? -/
def RegDef.hit (d : RegDef) (x : Nat) : Bool :=
  if d.stride = 0 then x == d.base
  else decide (d.base ≤ x) && (x - d.base) % d.stride == 0 && decide ((x - d.base) / d.stride < d.count)

/-- The window an offset lies in: a context (16 the system window) and the offset in it (R384). -/
def windowOf (off : Nat) : Option (Nat × Nat) :=
  if 0xC0000 ≤ off ∧ off < 0x100000 then some ((off - 0xC0000) / 0x4000, (off - 0xC0000) % 0x4000)
  else if 0xBC000 ≤ off ∧ off < 0xC0000 then some (16, off - 0xBC000)
  else none

/-- Window offsets that the system window maps (R385). -/
def sysMapped (r : Nat) : Bool :=
  decide (r ≤ 0xFC) || (decide (0x100 ≤ r) && decide (r ≤ 0x10C)) || (decide (0xA00 ≤ r) && decide (r ≤ 0xA1C))
    || (decide (0xB00 ≤ r) && decide (r ≤ 0xB1C)) || (decide (0xC00 ≤ r) && decide (r ≤ 0xC7C))
    || (decide (0xF00 ≤ r) && decide (r ≤ 0xF10)) || (decide (0x1000 ≤ r) && decide (r ≤ 0x11FC))

/-- Is Pier i present and enabled (KCAP0.PIER_MASK)? -/
def Part.pier (p : Part) (i : Nat) : Bool :=
  !bitOf p.disPier i && (match p.variant with
    | 0 => decide (i < 4)
    | 1 => decide (i < 2)
    | _ => false)

/-- A Pier register of a Pier whose PIER_MASK bit is 0 (R388). -/
def absentPier (p : Part) (off : Nat) : Bool :=
  decide (0x40000 ≤ off) && decide (off < 0x40100) && !p.pier ((off - 0x40000) / 0x40)

/-- The register an aligned offset names; none where it is unmapped or its unit is absent (R307, R384, R388). -/
def findReg (p : Part) (off : Nat) : Option RegDef :=
  match windowOf off with
  | some (c, r) => if c = 16 ∧ !sysMapped r then none else windowRegs.find? (fun d => d.hit r)
  | none => if absentPier p off then none else blockRegs.find? (fun d => d.hit off)

/-- The word after a write, by access codes alone (R8, R9). -/
def RegDef.write (d : RegDef) (old w : Nat) : Nat :=
  let kept := (BitVec.ofNat 32 old &&& ~~~(BitVec.ofNat 32 d.rw)) &&& ~~~(BitVec.ofNat 32 (w &&& d.w1c))
  (kept.toNat ||| (w &&& d.rw)) ||| (w &&& d.rw1s)

/-- The word after a reset of a level, "part" and "strap" fields aside (R10, R390). -/
def RegDef.afterReset (d : RegDef) (l : Level) (old : Nat) : Nat :=
  match l with
  | .power => d.po
  | .system => (old &&& d.keepS) ||| d.sy
  | .core => (old &&& d.keepC) ||| d.co

/-- A stored word by its offset after a reset of a level; a word that names no register is forgotten. -/
def resetWord (p : Part) (l : Level) (off old : Nat) : Nat :=
  match findReg p off with
  | some d => d.afterReset l old
  | none => 0

end Sys2Proof.Machine
end

