-- ==== Sys2Proof/Machine/Net.lean ====
section
/-! DEFINITION. What leaves the block: frames on the Piers under credit (R106, R107, R319), trace records (R374 to
R377), triggers (R368), event packets (R256 to R262), and the error log (R354 to R357). -/
namespace Sys2Proof

/-- Bytes of a frame on the link. -/
def Frame.bytes (f : Frame) : Nat := 64 + f.payload.length
/-- Header word i as a number. -/
def Frame.w (f : Frame) (i : Nat) : Nat := (f.hdr.getD i 0).toNat

end Sys2Proof

namespace Sys2Proof.Machine

def State.chip (s : State) : Nat := s.part.chip

/-- Live Piers in ascending order (R106, R388). -/
def State.livePiers (s : State) : List Nat :=
  (List.range 4).filter (fun p => s.part.pier p && s.rbit (0x40004 + 0x40 * p) 0)

/-- The Pier toward a destination chip; 4 while no Pier is live, where the frame waits. Log entry 17. -/
def State.pierFor (s : State) (dst : Nat) : Nat :=
  let l := s.livePiers
  if l = [] then 4 else l.getD (dst % l.length) 4

/-- The owner charged for a frame (R280): its CTX, or the system for what concerns the chip. -/
def frameOwner (vc : Nat) (f : Frame) : Nat :=
  if vc = 5 ∨ (vc = 0 ∧ 9 ≤ fld (f.w 0) 7 4) then 16 else fld (f.w 0) 11 8

/-- New 256-byte flits that n bytes take behind a flit with room bytes left: a slab starts in the last flit of the slab before
it on its VC, and costs its exact bytes (section Piers). Log entry 17. -/
def flitsFor (room n : Nat) : Nat := if n ≤ room then 0 else (n - room + 255) / 256

/-- What the Piers do with queued frames: frames sent with the flits each took, frames that wait, the credit left, and the
bytes left in the last flit of each VC. -/
structure Pumped where
  sent   : List (Nat × Nat × Frame × Nat) := []
  queued : List (Nat × Nat × Frame) := []
  credit : List (Nat × Nat)
  room   : List (Nat × Nat)

/-- Send queued frames in order, each VC of each Pier while its credit lasts. -/
def pumpGo (blocked : List (Nat × Nat)) (cr rm : List (Nat × Nat)) : List (Nat × Nat × Frame) → Pumped
  | [] => { credit := cr, room := rm }
  | (p, vc, f) :: q =>
    let k := 8 * p + vc
    let n := flitsFor (FMap.get 0 rm k) f.bytes
    if p < 4 ∧ !blocked.contains (p, vc) ∧ n ≤ FMap.get 0 cr k then
      let r := pumpGo blocked (FMap.set 0 cr k (FMap.get 0 cr k - n)) (FMap.set 0 rm k (FMap.get 0 rm k + 256 * n - f.bytes)) q
      { r with sent := (p, vc, f, n) :: r.sent }
    else
      let r := pumpGo ((p, vc) :: blocked) cr rm q
      { r with queued := (p, vc, f) :: r.queued }

/-- Count the Pier bytes and flits of frames sent (R280 counter 10, R281). -/
def State.chargeOut (s : State) : List (Nat × Nat × Frame × Nat) → State
  | [] => s
  | (_, vc, f, n) :: l => ((s.acct (frameOwner vc f) 10 f.bytes).energy (frameOwner vc f) 5 n).chargeOut l

/-- Is the block halted for a dump (R381)? -/
def State.halted (s : State) : Bool := s.cw.dumping || s.rbit 0x1A000 3

/-- Send what the link credit permits (R319); nothing leaves a halted block (R381), nor one that has not posted ready (R337). -/
def State.pump (s : State) : State :=
  let r := pumpGo [] s.net.credit s.net.room s.net.queued
  if s.halted ∨ !s.rst.posted then s
  else
    let s1 : State := { s with net := { s.net with
      sent := s.net.sent ++ r.sent.map (fun (x : Nat × Nat × Frame × Nat) => (x.1, x.2.1, x.2.2.1)), queued := r.queued
      credit := r.credit, room := r.room } }
    s1.chargeOut r.sent

/-- Is a queued frame a TRACE frame (R370)? -/
def isTrace (x : Nat × Nat × Frame) : Bool := x.2.1 == 5 && fld (x.2.2.w 0) 7 4 == 1
/-- Is it one of Pier p? -/
def waitingTrace (p : Nat) (x : Nat × Nat × Frame) : Bool := x.1 == p && isTrace x

/-- Queue a frame behind those of its Pier; a TRIG or TACK goes ahead of any TRACE frame that waits (R370). -/
def queueFrame (p vc : Nat) (f : Frame) (q : List (Nat × Nat × Frame)) : List (Nat × Nat × Frame) :=
  if vc = 5 ∧ fld (f.w 0) 7 4 ≠ 1 then
    q.takeWhile (fun x => !waitingTrace p x) ++ (p, vc, f) :: q.dropWhile (fun x => !waitingTrace p x)
  else q ++ [(p, vc, f)]

/-- Hand a frame to the Pier of its destination. -/
def State.emit (s : State) (dst vc : Nat) (f : Frame) : State :=
  { s with net := { s.net with queued := queueFrame (s.pierFor dst) vc f s.net.queued } }.pump

/-- A frame of sixteen header words. -/
def mkFrame (ws : List Nat) (payload : List Byte := []) : Frame :=
  { hdr := (List.range 16).map (fun i => u32 (ws.getD i 0)), payload := payload }

-- trace

/-- A Catwalk frame (R370). -/
def State.cwFrame (s : State) (kind dst w3 w4 w5 : Nat) (payload : List Byte := []) : Frame :=
  mkFrame [2 + kind * 2 ^ 4 + s.chip * 2 ^ 12, s.reg 0x1A004, dst * 2 ^ 16, w3, w4, w5] payload

/-- A record has been written: after a fire a freeze takes POST records more and stops (R375). -/
def State.tracePost (s : State) : State :=
  match s.cw.post with
  | some 0 => { s with cw := { s.cw with stopped := true } }
  | some (k + 1) => { s with cw := { s.cw with post := some k, stopped := k == 0 } }
  | none => s

/-- Write one record to the local ring (R375). -/
def State.traceLocal (s : State) (r : List Byte) : State :=
  let n := 2 ^ s.rf 0x1A040 8 4
  let w := s.reg 0x1A050
  let s1 := s.wr (s.lpair 0x1A048 + 32 * (w % n)) r
  let s2 := if n ≤ w then s1.satAdd 0x1A054 1 else s1
  ({ s2 with cw := { s2.cw with local_ := s2.cw.local_ + 1 } }.setReg 0x1A050 (w + 1)).tracePost

/-- Records in staging: those in TRACE frames that no Pier has sent yet. A local record reaches memory at once (R376, log entry
52). -/
def State.staged (s : State) : Nat :=
  (s.net.queued.filter isTrace).length

/-- Why a record cannot be written now (R376, R377): staging is full, or the 1 µs window has no room for it. -/
def State.traceStop (s : State) : Option Nat :=
  if s.rbit 0x1A040 2 then
    if 4096 ≤ s.staged then some 0
    else if 23040 < FMap.get 0 s.cw.remote (s.pierFor (s.rf 0x1A040 20 9)) + 96 then some 1 else none
  else if s.cw.local_ < 960 then none else some 1

/-- Place one record: in the local ring, or in a TRACE frame to the collector. -/
def State.tracePut (s : State) (r : List Byte) : State :=
  if s.rbit 0x1A040 2 then
    let d := s.rf 0x1A040 20 9
    let p := s.pierFor d
    ({ s with cw := { s.cw with remote := FMap.set 0 s.cw.remote p (FMap.get 0 s.cw.remote p + 96) } }.emit d 5
      (s.cwFrame 1 d 1 0 0 r)).tracePost
  else s.traceLocal r

/-- The 32 bytes of a record of a source chip (R374). -/
def recBytes (chip rt own q t : Nat) (ws : List Nat) : List Byte :=
  let w0 := rt + (own % 16) * 2 ^ 8 + q * 2 ^ 12 + b2n (own == 16) * 2 ^ 18 + chip * 2 ^ 20
  wordsBytes ([w0, t % 2 ^ 32, t / 2 ^ 32] ++ (List.range 5).map (fun i => ws.getD i 0 % 2 ^ 32))

/-- The 32 bytes of a record of this chip. -/
def State.traceBytes (s : State) (rt own q t : Nat) (ws : List Nat) : List Byte := recBytes s.chip rt own q t ws

/-- Lose n records of a source chip for a cause: a run of losses keeps the stamp, cause and chip of its first (R376). -/
def State.traceLose (s : State) (n t cause chip : Nat) : State :=
  let l := match s.cw.loss with
    | some (k, x) => (k + n, x)
    | none => (n, BitVec.ofNat 64 t, cause, chip)
  { s with cw := { s.cw with loss := some l } }.satAdd 0x1A058 n

/-- Write the LOSS record of a run of losses, if there is one: a collector's goes to its own ring. -/
def State.traceLoss (s : State) : State :=
  match s.cw.loss with
  | some (k, t0, c, chip) =>
    let r := recBytes chip 0x0C 16 0 t0.toNat [k, t0.toNat % 2 ^ 32, t0.toNat / 2 ^ 32, c]
    let s1 : State := { s with cw := { s.cw with loss := none } }
    if c = 3 then s1.traceLocal r else s1.tracePut r
  | none => s

/-- Take one trace record of type rt with its words 3 to 7, while the trace runs (R374 to R377). -/
def State.traceRec (s : State) (rt own q : Nat) (ws : List Nat) : State :=
  if !s.rbit 0x1A040 0 ∨ s.cw.stopped then s
  else
    let p := s.readTime
    match p.2.traceStop with
    | some k => p.2.traceLose 1 p.1 k s.chip
    | none =>
      let s2 := p.2.traceLoss
      if s2.cw.stopped then s2
      else match s2.traceStop with
        | some k => s2.traceLose 1 p.1 k s.chip
        | none => s2.tracePut (s2.traceBytes rt own q p.1 ws)

/-- Take a trace record of an owner's activity: that of system queues only where KCW_TR_CTL.SYS is set (R383). -/
def State.trace (s : State) (rt own q : Nat) (ws : List Nat) : State :=
  if own = 16 ∧ !s.rbit 0x1A040 21 then s else s.traceRec rt own q ws

-- triggers

/-- Send a TRIG to each other chip of the list and keep it for resend (R368). -/
def State.sendTrigs (s : State) (tid tf : Nat) : List Nat → State
  | [] => s
  | d :: ds =>
    if d = s.chip then s.sendTrigs tid tf ds
    else
      let f := s.cwFrame 2 d tid (tf % 2 ^ 32) (tf / 2 ^ 32)
      let s1 : State :=
        { s with cw := { s.cw with trigs := s.cw.trigs ++ [{ dst := d, tid := tid, tries := 0, f := f }] } }
      (s1.emit d 5 f).sendTrigs tid tf ds

/-- Raise a trigger (R368, R369). -/
def State.raiseTrigger (s : State) (tid lead : Nat) (only : Bool) : State :=
  if s.rbit 0x1A000 0 || s.cw.fire.isSome then s.sysCount 9
  else
    let p := s.readTime
    let tf := (p.1 + 1000 * lead) % 2 ^ 64
    let s1 := { p.2 with cw := { p.2.cw with fire := some { tid := tid, src := s.chip, tfire := BitVec.ofNat 64 tf } } }
    if only then s1
    else s1.sendTrigs tid tf ((List.range (s1.rf 0x1A010 12 0)).map
      (fun i => s1.rd16 (s1.rpair 0x1A014 + 2 * i) % 4096))

-- event queues

/-- Length of the packet whose first record is at index i, by its END mark (R257). -/
def State.packetLen (s : State) (base n i : Nat) : Nat → Nat
  | 0 => 1
  | k + 1 => if bitOf (s.rd32 (base + 16 * (i % 2 ^ n))) 17 then 1 else 1 + s.packetLen base n (i + 1) k

/-- Free room for m records by passing whole oldest packets: the new RD (R260). -/
def State.passOld (s : State) (base n wr m : Nat) : Nat → Nat → Nat
  | 0, rd => rd
  | k + 1, rd =>
    if 2 ^ n - (BitVec.ofNat 32 wr - BitVec.ofNat 32 rd).toNat < m
    then s.passOld base n wr m k ((rd + s.packetLen base n rd 3) % 2 ^ 32) else rd

/-- One record of an event packet: KIND, CTX, QUEUE, SYS, and words 2 and 3. -/
structure EvRec where
  kind : Nat
  ctx  : Nat
  q    : Nat
  sys  : Bool
  a0   : Nat
  a1   : Nat
  deriving DecidableEq, Repr

/-- The bytes of record i (R257). -/
def EvRec.bytes (r : EvRec) (n i : Nat) (last : Bool) : List Byte :=
  wordsBytes [i % 2 ^ 16 + (1 - i / 2 ^ n % 2) * 2 ^ 16 + b2n last * 2 ^ 17 + r.kind * 2 ^ 24,
    r.ctx % 16 + r.q * 2 ^ 4 + b2n r.sys * 2 ^ 10, r.a0, r.a1]

def State.putRecs (s : State) (base n i : Nat) : List EvRec → State
  | [] => s
  | r :: rs => (s.wr (base + 16 * (i % 2 ^ n)) (r.bytes n i rs.isEmpty)).putRecs base n (i + 1) rs

/-- Unread records of event queue e. -/
def State.evUnread (s : State) (e : Nat) : Nat :=
  (BitVec.ofNat 32 (s.reg (kevq e + 0xC)) - BitVec.ofNat 32 (s.reg (kevq e + 0x10))).toNat

/-- Have records of event queue e stood unread for its coalescing time, and do they still (R262)? -/
def State.evLate (s : State) (e : Nat) : Bool :=
  s.evHeld.contains e && s.rf (kevq e + 4) 31 24 != 0 && s.evUnread e != 0

/-- Set PEND where the threshold or the coalescing time is met (R262). -/
def State.evThresh (s : State) (e : Nat) : State :=
  let th := s.rf (kevq e + 4) 23 12
  if (th ≠ 0 ∧ th ≤ s.evUnread e) ∨ s.evLate e then s.setRbit (kevq e + 0x1C) 0 true else s

/-- Where the records of a packet lie in a ring, and what lies there. -/
def State.oldRecs (s : State) (base n wr m : Nat) : List (Nat × List Byte) :=
  (List.range m).map (fun k => (base + 16 * ((wr + k) % 2 ^ n), s.rd (base + 16 * ((wr + k) % 2 ^ n)) 16))

/-- Write a packet to event queue e, if it is enabled (R256 to R262). Before the block posts ready no packet leaves at the
memory ports (R337). -/
def State.post (s : State) (e : Nat) (rs : List EvRec) : State :=
  if !s.rbit (kevq e + 8) 0 ∨ !s.rst.posted then s
  else
    let n := s.rf (kevq e + 4) 4 0
    let base := s.rpair 0x90000 + s.reg (kevq e)
    let wr := s.reg (kevq e + 0xC)
    let rd := s.reg (kevq e + 0x10)
    let rd' := s.passOld base n wr rs.length 4 rd
    let s1 := if rd' = rd then s
      else ((s.setReg (kevq e + 0x10) rd').satAdd (kevq e + 0x14) (BitVec.ofNat 32 rd' - BitVec.ofNat 32 rd).toNat).setRbit
        (kevq e + 0x1C) 1 true
    let s2 := ({ s1 with
      evNew := s1.evNew.filter (fun p => p.1 != e) ++ [(e, s1.oldRecs base n wr rs.length)] } : State).putRecs base n wr rs
    let s3 := (s2.setReg (kevq e + 0xC) (wr + rs.length)).setReg (kevq e + 0x18) (s2.reg (kevq e + 0x18) + 1)
    let s4 := if rs.any (fun r => r.kind == 2 || r.kind == 3) then s3.setRbit (kevq e + 0x1C) 0 true else s3
    s4.evThresh e

/-- A packet of one record on the system event queue, of the block itself or of context c; 16 is the system (R257). -/
def State.postSys (s : State) (kind a0 a1 : Nat) : State := s.post 16 [⟨kind, 0, 0, true, a0, a1⟩]
def State.postCtx (s : State) (c kind a0 a1 : Nat) : State :=
  s.post 16 [⟨kind, if c = 16 then 0 else c, 0, c == 16, a0, a1⟩]

/-- Line KIRQ[i] (R262, R322); 0 from a reset until the block posts ready (R337). -/
def State.kirq (s : State) (i : Nat) : Bool :=
  s.rst.posted && (List.range 17).any (fun e => s.rbit (kevq e + 8) 0 && s.rbit (kevq e + 4) 11 && s.rf (kevq e + 4) 9 8 == i
    && s.rbit (kevq e + 0x1C) 0)

-- ring-slot registers (R207), needed for the first-error snapshot

def RingSlot.idWord (r : RingSlot) : Nat :=
  2 ^ 31 + r.op * 2 ^ 28 + r.attempt * 2 ^ 26 + r.ctx * 2 ^ 16 + r.gid
/-- KTRS_SLOT_WAIT: a member that has reported waits for the DECIDE, another for the chip waited on longest. -/
def RingSlot.waitWord (r : RingSlot) : Nat :=
  let w := r.waits.headD 0
  let peer := r.reported.isNone && !r.waits.isEmpty
  w % 4096 + b2n peer * 2 ^ 12 + b2n (peer && r.notrdy.contains w) * 2 ^ 13
    + b2n (r.reported.isSome && r.decided.isNone) * 2 ^ 14
/-- Word j of KTRS_SLOT of slot i: 0 while it is unbound. -/
def State.slotWord (s : State) (i j : Nat) : Nat :=
  match s.rings.find? (fun p => p.1 == i) with
  | none => 0
  | some (_, r) => match j with
    | 0 => r.idWord
    | 1 => r.gseq.toNat
    | 2 => r.finals
    | _ => r.waitWord

-- the error log

/-- What an error reports (R354). -/
structure Err where
  cls   : Nat := 2
  merged : Bool := false
  needsys : Bool := false
  own   : Nat := 16
  q     : Nat := 0
  sys   : Bool := false
  code  : Nat := 0
  unit  : Nat := 0
  qidx  : Nat := 0
  array : Nat := 0
  check : Nat := 0
  lo    : Nat := 0
  hi    : Nat := 0
  peer  : Nat := 0
  inst  : Nat := 0
  deriving DecidableEq, Repr

def Err.words (e : Err) (t seq : Nat) : List Nat :=
  [e.cls + b2n e.merged * 2 ^ 2 + b2n e.needsys * 2 ^ 3 + (e.own % 16) * 2 ^ 4 + e.q * 2 ^ 8 + b2n e.sys * 2 ^ 14
      + e.code * 2 ^ 16 + e.unit * 2 ^ 24,
    e.qidx, t % 2 ^ 32, t / 2 ^ 32, e.array + e.check * 2 ^ 8, e.lo % 2 ^ 32,
    e.hi % 2 ^ 16 + (e.peer % 4096) * 2 ^ 16 + (e.inst % 16) * 2 ^ 28, seq]

/-- Store consecutive register words. -/
def State.setRegs (s : State) (off : Nat) : List Nat → State
  | [] => s
  | w :: ws => (s.setReg off w).setRegs (off + 4) ws

/-- Copy an entry of class contained or fatal into the first-error record (R349, R355). -/
def State.firstErr (s : State) (cls : Nat) (ws : List Nat) : State :=
  if s.rbit 0x1004 3 ∨ cls < 2 then s
  else ((s.setRegs 0x1060 ws).setRegs 0x1080 ((List.range 32).map (fun i => s.slotWord (i / 4) (i % 4)))).setRbit
    0x1004 3 true

/-- Log an error: the FIFO, the first-error record, its sequence number, a trigger where ONERR selects its class
(R354 to R357, R368). Answers SEQ, and whether it found room. -/
def State.logErr (s : State) (e : Err) : Nat × Bool × State :=
  let p := s.readTime
  let seq := p.2.err.seq.toNat
  let ws := e.words p.1 seq
  let room := decide (p.2.err.fifo.length < 32)
  let s1 := { p.2 with err := { p.2.err with seq := p.2.err.seq + 1 } }.firstErr e.cls ws
  let s2 := if room then { s1 with err := { s1.err with fifo := s1.err.fifo ++ [ws.map u32] } } else s1.satAdd 0x1008 1
  let on := s2.rf 0x1A010 15 14
  let s3 := if (on = 1 ∧ e.cls = 3) ∨ (on = 2 ∧ 2 ≤ e.cls) then s2.raiseTrigger 0xFFFF 10 false else s2
  (seq, room, s3)

/-- The memory port of a transfer, one of eight: the ports that KCTX_CFG.PORTS permits take its lines in turn (R279, R318, log
entry 61). -/
def State.memPort (s : State) (own a : Nat) : Nat :=
  let ps := (List.range 8).filter (fun p => own == 16 || s.rbit (kctx own) (16 + p))
  ps.getD (a / 256 % max 1 ps.length) 0

/-- Log a corrected error where LOGCORR is set (R349). -/
def State.logCorr (s : State) (e : Err) : State :=
  if s.rbit 0x1000 0 then (s.logErr { e with cls := 1, code := 0 }).2.2 else s

end Sys2Proof.Machine
end

