-- ==== Sys2Proof/Machine/Caisson.lean ====
section
/-! DEFINITION. The Caisson pools (R264 to R273): state words, the free stack, allocation, references and release. -/
namespace Sys2Proof.Machine

def State.poolCount (s : State) (p : Nat) : Nat := s.rf (kcas p) 20 0
def State.poolSz (s : State) (p : Nat) : Nat := s.rf (kcas p) 25 21
def State.poolIso (s : State) (p : Nat) : Bool := s.rbit (kcas p) 26
def State.poolBase (s : State) (p : Nat) : Nat := s.rpair (kcas p + 4)
def State.poolMeta (s : State) (p : Nat) : Nat := s.rpair (kcas p + 0xC)
def State.poolFree (s : State) (p : Nat) : Nat := s.reg (kcas p + 0x18)
/-- State word of buffer i (R265). -/
def State.bufWord (s : State) (p i : Nat) : Nat := s.rd32 (s.poolMeta p + 4 * i)
def State.setBufWord (s : State) (p i w : Nat) : State := s.wr32 (s.poolMeta p + 4 * i) w
def State.bufAddr (s : State) (p i : Nat) : Nat := s.poolBase p + i * 2 ^ s.poolSz p

/-- The buffer handle (R265). -/
def bufHandle (p i gen : Nat) : Nat := i + p * 2 ^ 20 + gen * 2 ^ 23 + 2 ^ 31
def hIdx (h : Nat) : Nat := fld h 19 0
def hPool (h : Nat) : Nat := fld h 22 20
def hGen (h : Nat) : Nat := fld h 30 23

/-- The pool and buffer whose region contains an address (R268). -/
def State.bufAt (s : State) (a : Nat) : Option (Nat × Nat) :=
  match (List.range 8).find? (fun p => decide (s.poolCount p ≠ 0) && decide (s.poolBase p ≤ a)
      && decide (a < s.poolBase p + s.poolCount p * 2 ^ s.poolSz p)) with
  | some p => some (p, (a - s.poolBase p) / 2 ^ s.poolSz p)
  | none => none

/-- Is a landing into buffer i of pool p in progress (R269)? -/
def State.landingIn (s : State) (p i : Nat) : Bool :=
  s.landings.any (fun l => l.spans.any (fun a => s.bufAt a.1 == some (p, i)))

/-- Return a buffer to the top of its pool's free stack (R265, R269). -/
def State.releaseBuf (s : State) (p i : Nat) : State :=
  (s.wr32 (s.poolMeta p + 4 * s.poolCount p + 4 * s.poolFree p) i).setReg (kcas p + 0x18) (s.poolFree p + 1)

/-- The enabled pools that accept a requester and hold S bytes, by size and then number (R266). -/
def State.candidates (s : State) (own size : Nat) : List Nat :=
  (List.range 29).flatMap (fun z => (List.range 8).filter (fun p => decide (s.poolCount p ≠ 0) && s.poolSz p == z
    && s.rbit (kcas p + 0x14) own && decide (size ≤ 2 ^ z)))

/-- Set the free count of pool p: a fall below a nonzero KCAS_LOWMARK is an event, once for each crossing (R271). -/
def State.setFree (s : State) (p n : Nat) : State :=
  let mark := s.reg (kcas p + 0x1C)
  let low := decide (mark ≠ 0) && decide (mark ≤ s.poolFree p) && decide (n < mark)
  let s1 := s.setReg (kcas p + 0x18) n
  if low then s1.postSys 4 p n else s1

/-- Pop the top of pool p for a requester (R266, R271, R272). -/
def State.popBuf (s : State) (own p : Nat) (zero : Bool) : Nat × Nat × State :=
  let f := s.poolFree p
  let i := s.rd32 (s.poolMeta p + 4 * s.poolCount p + 4 * (f - 1))
  let w := s.bufWord p i
  let gen := (fld w 15 8 + 1) % 256
  let iso := s.poolIso p && (!bitOf w 23 || bitOf w 20 || own == 16 || decide (fld w 19 16 ≠ own))
  let w' := 1 + gen * 2 ^ 8 + (if own = 16 then 2 ^ 20 else own * 2 ^ 16) + fld w 22 22 * 2 ^ 22 + 2 ^ 23
  let s1 := s.setBufWord p i w'
  let a := s.bufAddr p i
  let s2 := if zero || iso then s1.wr a (List.replicate (2 ^ s.poolSz p) 0) else s1
  (bufHandle p i gen, a, s2.setFree p (f - 1))

/-- Allocate S bytes: handle, address and state, or none with no buffer among the candidates (R266). -/
def State.alloc (s : State) (own size : Nat) (nofall zero : Bool) : Option (Nat × Nat × State) :=
  let cs := s.candidates own size
  let tryl := if nofall then cs.take 1 else cs
  match tryl.find? (fun p => decide (s.poolFree p ≠ 0)) with
  | none => none
  | some p =>
    let s1 := if cs.head? = some p then s else s.satAdd (kcas p + 0x20) 1
    some (s1.popBuf own p zero)

/-- A failed allocation counts in KCAS_EMPTY of its first candidate (R267, R274). -/
def State.allocFail (s : State) (own size : Nat) : State :=
  match s.candidates own size with
  | p :: _ => s.satAdd (kcas p + 0x24) 1
  | [] => s

/-- Verdict on a take or drop of a handle (R270, R271). -/
inductive CasRes where
  | ok | malformed | foreign | quar | dfree | sat
  deriving DecidableEq, Repr

/-- Check a take or drop of handle h by an owner (R270, R271). Log entry 30 gives the order. -/
def State.casTest (s : State) (own h : Nat) (take : Bool) : CasRes :=
  let p := hPool h
  let i := hIdx h
  if s.poolCount p ≤ i then .malformed
  else
    let w := s.bufWord p i
    if bitOf w 22 then .quar
    else if fld w 15 8 ≠ hGen h ∨ fld w 7 0 = 0 ∨ bitOf w 21 then .dfree
    else if own ≠ 16 ∧ fld w 19 16 ≠ own ∧ !bitOf w 20 then .foreign
    else if take ∧ fld w 7 0 = 255 then .sat
    else .ok

/-- Add one reference. -/
def State.takeRef (s : State) (h : Nat) : State :=
  s.setBufWord (hPool h) (hIdx h) (s.bufWord (hPool h) (hIdx h) + 1)

/-- Drop one reference; at 0 the buffer returns, or is held while a landing goes on (R269). -/
def State.dropRef (s : State) (h : Nat) : State :=
  let p := hPool h
  let i := hIdx h
  let w := s.bufWord p i
  if fld w 7 0 = 1 then
    if s.landingIn p i then s.setBufWord p i (putFld (putFld w 7 0 0) 21 21 1)
    else (s.setBufWord p i (putFld w 7 0 0)).releaseBuf p i
  else s.setBufWord p i (w - 1)

/-- Take the reference of a command on the buffer that holds an address: none where no pool contains it (R268). -/
def State.handleAt (s : State) (a : Nat) : Option Nat :=
  match s.bufAt a with
  | some (p, i) => some (bufHandle p i (fld (s.bufWord p i) 15 8))
  | none => none

/-- Return the held buffers into which no landing remains (R269). -/
def State.releaseHeld (s : State) (a : Nat) : State :=
  match s.bufAt a with
  | none => s
  | some (p, i) =>
    let w := s.bufWord p i
    if bitOf w 21 ∧ !s.landingIn p i ∧ !bitOf w 22 then (s.setBufWord p i (putFld w 21 21 0)).releaseBuf p i else s

/-- Is context c tearing down or torn down, or a fatal error pending, so that an error merges (R357)? -/
def State.merging (s : State) (c : Nat) : Bool :=
  s.rbit 0x1004 0 || (decide (c < 16) && decide (2 ≤ s.rf (kctx c + 4) 1 0))

/-- Will a TEARDOWN packet report what happens in context c: it tears down, or will (R286, R354)? -/
def State.reported (s : State) (c : Nat) : Bool :=
  decide (c < 16) && (s.rf (kctx c + 4) 1 0 == 2 || (s.rf (kctx c + 4) 1 0 == 1 && !s.rbit 0x1004 0))

/-- Drop recorded references; a double free is logged in its context (R270), with an ERROR packet where no TEARDOWN packet
reports it (R354). Answers whether one was found. -/
def State.dropRefs (s : State) (td : Bool) : List Ref → Bool × State
  | [] => (false, s)
  | r0 :: rs =>
    match s.casTest 16 r0.handle.toNat false with
    | .ok => (s.dropRef r0.handle.toNat).dropRefs td rs
    | .dfree | .malformed =>
      let e : Err := { merged := td || s.merging r0.ctx, own := r0.ctx, sys := r0.ctx == 16, code := 0x15, unit := 0x10,
                       lo := r0.handle.toNat }
      let r := s.logErr e
      let t := (if s.reported r0.ctx then r.2.2 else r.2.2.postCtx r0.ctx 8 r.1 2).dropRefs td rs
      (true, t.2)
    | _ => s.dropRefs td rs

/-- Quarantine the buffer that holds an address (R316). -/
def State.quarantine (s : State) (a : Nat) : State :=
  match s.bufAt a with
  | some (p, i) => s.setBufWord p i (putFld (s.bufWord p i) 22 22 1)
  | none => s

end Sys2Proof.Machine
end

