-- ==== Sys2Proof/Machine/Desc.lean ====
section
/-! DEFINITION. Descriptors: the image of R209, where an element lies (R217), and the byte string of a region (R393).
 -/
namespace Sys2Proof.Machine

/-- A descriptor, read from its 64-byte image or stored entry (R209, R214). -/
structure Desc where
  fmt    : Nat := 0
  layout : Nat := 0
  rankm1 : Nat := 0
  ro     : Bool := false
  gbc    : Nat := 0
  sb     : Nat := 0
  ss     : Nat := 0
  ps     : Nat := 0
  base   : Nat := 0
  d0     : Nat := 1
  d1     : Nat := 1
  d2     : Nat := 1
  d3     : Nat := 1
  p1     : Nat := 0
  p2     : Nat := 0
  p3     : Nat := 0
  fill   : Nat := 0
  plist  : Nat := 0
  ext    : Nat := 0
  half   : Bool := false
  valid  : Bool := false
  deriving DecidableEq, Repr, Inhabited

/-- The descriptor whose sixteen words are given. -/
def descOf (w : Nat → Nat) : Desc :=
  { fmt := fld (w 0) 3 0, layout := fld (w 0) 6 4, rankm1 := fld (w 0) 9 8, ro := bitOf (w 0) 10,
    gbc := fld (w 0) 17 16, sb := fld (w 0) 19 18, ss := fld (w 0) 21 20, ps := fld (w 0) 28 24,
    base := w 1 + 2 ^ 32 * fld (w 2) 15 0, d0 := fld (w 3) 24 0, d1 := fld (w 4) 24 0, d2 := fld (w 5) 24 0,
    d3 := fld (w 6) 24 0, p1 := w 7, p2 := w 8 + 2 ^ 32 * fld (w 9) 15 0, p3 := w 10 + 2 ^ 32 * fld (w 11) 15 0,
    fill := w 12, plist := fld (w 13) 19 0, ext := w 14 + 2 ^ 32 * fld (w 15) 15 0, half := bitOf (w 15) 30,
    valid := bitOf (w 15) 31 }

/-- Address of entry h of an owner's descriptor table (R208, R385). -/
def State.descAddr (s : State) (own h : Nat) : Nat := s.rpair (kdsc own) + 64 * h

/-- The words of entry h in memory. -/
def State.descWords (s : State) (own h : Nat) : List U32 := (List.range 16).map (fun i => u32 (s.rd32 (s.descAddr own h + 4 * i)))

/-- Copies of entry h in the descriptor cache that another writer's change has put out of line with memory (R208). -/
def State.descOld (s : State) (own h : Nat) (m : List U32) : List (List U32) :=
  (s.dcache.filter (fun x => x.own == own && x.h == h && x.words != m)).map (fun x => x.words)

/-- The entry of handle h as a command uses it: from memory, or, where that differs, from a copy of an earlier fill (R208:
which is not defined). -/
def State.desc (s : State) (own h : Nat) : Desc :=
  let m := s.descWords own h
  let l := s.descOld own h m
  let ws := if l.isEmpty then m else (m :: l).getD (Config.freePick (s.free + h) % (l.length + 1)) m
  descOf (fun i => (ws.getD i 0).toNat)

/-- The descriptor cache fills with the entry of handle h (R216). -/
def State.descFill (s : State) (own h : Nat) : State :=
  let x : DescCopy := { own := own, h := h, words := s.descWords own h }
  if s.dcache.contains x then s else { s with dcache := s.dcache ++ [x] }

/-- Handles that a command binds are filled, with the page list of a PAGED one. -/
def State.descFills (s : State) (own : Nat) : List Nat → State
  | [] => s
  | h :: hs =>
    let s1 := s.descFill own h
    let d := s1.desc own h
    (if d.layout = 2 then s1.descFill own d.plist else s1).descFills own hs

/-- The cache is in line with entries h to h + n - 1. -/
def State.descSynced (s : State) (own h n : Nat) : State :=
  { s with dcache := s.dcache.filter (fun x => !(x.own == own && decide (h ≤ x.h) && decide (x.h < h + n))) }

def State.queue (s : State) (q : Nat) : Queue := FMap.get {} s.queues q
def State.setQueue (s : State) (q : Nat) (x : Queue) : State := { s with queues := FMap.set {} s.queues q x }

/-- The owner of queue q: its context, or 16 for a system queue (R25). -/
def State.owner (s : State) (q : Nat) : Nat := if s.rbit (kq q + 8) 12 then 16 else s.rf (kq q + 8) 11 8

/-- All commands of an owner's queues, with their queue. -/
def State.cmdsOf (s : State) (own : Nat) : List (Nat × Cmd) :=
  (List.range 64).flatMap (fun q => if s.owner q = own then (s.queue q).cmds.map (fun c => (q, c)) else [])

/-- Has a started DESC_RETIRE marked handle h (R216)? -/
def State.retiring (s : State) (own h : Nat) : Bool := (s.cmdsOf own).any (fun p => p.2.retire.contains h)

/-- Is handle h valid in the owner's table (R208)? -/
def State.hValid (s : State) (own h : Nat) : Bool :=
  decide (h ≠ 0) && decide (h < s.reg (kdsc own + 8)) && (s.desc own h).valid

/-- Element format (R210) of a wire format code (R109). -/
def wireFmt (w : Nat) : Nat := [0, 1, 2, 10, 11, 12].getD w 0
/-- Element bytes of a format (R210); 0 for the MX formats and the rejected codes. -/
def ebOf (fmt : Nat) : Nat := [2, 2, 4, 1, 1, 2, 2, 4, 4, 8].getD fmt 0
def isMx (fmt : Nat) : Bool := decide (10 ≤ fmt) && decide (fmt ≤ 12)
def isFloat (fmt : Nat) : Bool := decide (fmt ≤ 2)

/-- Bytes of an MX row (R109). -/
def mxRow (fmt n : Nat) : Nat := (if fmt = 12 then n / 2 else n) + n / 32

/-- Row bytes of a descriptor (R209). -/
def Desc.rowB (d : Desc) : Nat := if isMx d.fmt then mxRow d.fmt d.d0 else d.d0 * ebOf d.fmt
/-- Rows of a descriptor. -/
def Desc.rows (d : Desc) : Nat := d.d1 * d.d2 * d.d3
/-- Length of the byte string (R393). -/
def Desc.len (d : Desc) : Nat := d.rowB * d.rows

/-- Address of byte o of row (i1, i2, i3), layouts other than PAGED (R217). -/
def Desc.at_ (d : Desc) (o i1 i2 i3 : Nat) : Nat :=
  let pl := i1 * d.p1 + i2 * d.p2 + i3 * d.p3
  match d.layout with
  | 1 =>
    let x := i1 / 2 ^ d.ss % 2 ^ d.sb
    d.base + pl + (o ^^^ (x * 2 ^ (4 + d.gbc)))
  | 3 => d.base + 8192 * ((o / 256) * ((d.d1 + 31) / 32) + i1 / 32) + 256 * (i1 % 32) + o % 256
  | _ => d.base + pl + o

/-- Address of byte o of flattened row r. -/
def Desc.rowAt (d : Desc) (r o : Nat) : Nat := d.at_ o (r % d.d1) (r / d.d1 % d.d2) (r / (d.d1 * d.d2))

/-- Address of byte k of the byte string (R393). -/
def Desc.byteAt (d : Desc) (k : Nat) : Nat := d.rowAt (k / d.rowB) (k % d.rowB)

/-- n bytes of the byte string from byte k. -/
def State.strRd (s : State) (d : Desc) (k n : Nat) : List Byte := (List.range n).map (fun i => s.rd8 (d.byteAt (k + i)))
def State.strLe (s : State) (d : Desc) (k n : Nat) : Nat := leNat (s.strRd d k n)
def State.str32 (s : State) (d : Desc) (k : Nat) : Nat := s.strLe d k 4
def State.str16 (s : State) (d : Desc) (k : Nat) : Nat := s.strLe d k 2

/-- Writes of bytes into the byte string from byte k, as (address, bytes). -/
def Desc.put (d : Desc) (k : Nat) (bs : List Byte) : List (Nat × List Byte) :=
  if d.layout = 0 ∧ (k % d.rowB + bs.length ≤ d.rowB ∨ d.rows ≤ 1) then [(d.byteAt k, bs)]
  else (List.range bs.length).map (fun i => (d.byteAt (k + i), [bs.getD i 0]))

/-- Perform writes. -/
def State.puts (s : State) : List (Nat × List Byte) → State
  | [] => s
  | (a, bs) :: ws => (s.wr a bs).puts ws

/-- Write bytes into the byte string. -/
def State.strWr (s : State) (d : Desc) (k : Nat) (bs : List Byte) : State := s.puts (d.put k bs)
def State.strWr32 (s : State) (d : Desc) (k v : Nat) : State := s.strWr d k (natLe 4 v)

/-- Address ranges of bytes [k, k + n) of a byte string, row by row. -/
def Desc.span (d : Desc) (k n : Nat) : List (Nat × Nat) :=
  if n = 0 ∨ d.rowB = 0 then []
  else
    let r0 := k / d.rowB
    let r1 := (k + n - 1) / d.rowB
    (List.range (r1 + 1 - r0)).flatMap (fun i =>
      let r := r0 + i
      let lo := max k (r * d.rowB)
      let hi := min (k + n) ((r + 1) * d.rowB)
      if d.layout = 0 then [(d.byteAt lo, hi - lo)] else (List.range (hi - lo)).map (fun x => (d.byteAt (lo + x), 1)))

/-- Memory-port charges, as (rows, bytes of each, HALF): n rows of a tensor, and the first n bytes of a byte string
(R218, R280). -/
def Desc.rowReads (d : Desc) (n : Nat) : List (Nat × Nat × Bool) := [(n, d.rowB, d.half)]
def Desc.headReads (d : Desc) (n : Nat) : List (Nat × Nat × Bool) :=
  if d.rowB = 0 then [] else [(n / d.rowB, d.rowB, d.half), (1, n % d.rowB, d.half)]
/-- Rows of n bytes outside any descriptor. -/
def flatReads (rows n : Nat) : List (Nat × Nat × Bool) := [(rows, n, false)]

/-- Do the extents of two descriptors intersect (R222)? -/
def Desc.meets (a b : Desc) : Bool :=
  decide (a.base < b.base + b.ext) && decide (b.base < a.base + a.ext)

/-- LINEAR and writable, the "linear and row-major" of R211. -/
def Desc.linear (d : Desc) : Bool := d.layout == 0 && !d.ro

/-- Does [a, a + n) lie inside the owner's memory window (R212)? -/
def State.inWindow (s : State) (own a n : Nat) : Bool :=
  let b := s.reg (kdsc own + 0xC) * 2 ^ 21
  decide (b ≤ a) && decide (a + n ≤ b + s.reg (kdsc own + 0x10) * 2 ^ 21)

end Sys2Proof.Machine
end

