-- ==== Sys2Proof/Machine/K36.lean ====
section
/-! DEFINITION. Binary floating-point: decoding and rounding of a format with eb exponent and fb fraction bits, and the
arithmetic of K36 (R53), exact and rounded once to nearest with ties to even. -/
namespace Sys2Proof.Machine

/-- What a float is: a NaN, an infinity, or (-1)^neg × m × 2^e. -/
inductive Fv where
  | nan
  | inf (neg : Bool)
  | fin (neg : Bool) (m : Nat) (e : Int)
  deriving DecidableEq, Repr

/-- Bias of a format with eb exponent bits. -/
def fBias (eb : Nat) : Int := 2 ^ (eb - 1) - 1

/-- The value of the bits of a format. -/
def fDec (eb fb x : Nat) : Fv :=
  let neg := x / 2 ^ (eb + fb) % 2 == 1
  let ex := x / 2 ^ fb % 2 ^ eb
  let fr := x % 2 ^ fb
  if ex = 2 ^ eb - 1 then (if fr = 0 then .inf neg else .nan)
  else if ex = 0 then .fin neg fr (1 - fBias eb - fb)
  else .fin neg (2 ^ fb + fr) (ex - fBias eb - fb)

/-- m / 2^d to the nearest natural number, ties to even. -/
def rne (m d : Nat) : Nat :=
  let q := m / 2 ^ d
  let r := m % 2 ^ d
  if d = 0 then m else if 2 * r > 2 ^ d ∨ (2 * r = 2 ^ d ∧ q % 2 = 1) then q + 1 else q

/-- The bits, sign aside, of m × 2^e rounded to nearest with ties to even; overflow gives infinity. -/
def fRound (eb fb m : Nat) (e : Int) : Nat :=
  if m = 0 then 0
  else
    let emin := 1 - fBias eb
    let q := max ((Nat.log2 m : Int) + e) emin - fb
    let k := if q ≤ e then m * 2 ^ (e - q).toNat else rne m (q - e).toNat
    min ((q - (emin - fb)).toNat * 2 ^ fb + k) ((2 ^ eb - 1) * 2 ^ fb)

/-- The bits of a value in a format; the NaN is the quiet one with the other fraction bits 0. -/
def fEnc (eb fb : Nat) : Fv → Nat
  | .nan => (2 ^ eb - 1) * 2 ^ fb + 2 ^ (fb - 1)
  | .inf neg => (if neg then 2 ^ (eb + fb) else 0) + (2 ^ eb - 1) * 2 ^ fb
  | .fin neg m e => (if neg then 2 ^ (eb + fb) else 0) + fRound eb fb m e

-- K36: twelve exponent bits, 23 fraction bits

def kDec (x : K36) : Fv := fDec 12 23 x.toNat
def kEnc (v : Fv) : K36 := BitVec.ofNat 36 (fEnc 12 23 v)

def kNaN : K36 := 0x7FFC00000
def kInf : K36 := 0x7FF800000
def kNegInf : K36 := 0xFFF800000
def kNeg0 : K36 := 0x800000000
def kOne : K36 := kEnc (.fin false 1 0)

def kNeg (x : K36) : K36 := if kDec x = .nan then kNaN else x ^^^ 0x800000000
def kSign (x : K36) : Bool := x.getLsbD 35
def kIsNaN (x : K36) : Bool := kDec x == .nan
def kIsInf (x : K36) : Bool := match kDec x with
  | .inf _ => true
  | _ => false
/-- Is the value finite? -/
def kFinite (x : K36) : Bool := match kDec x with
  | .fin _ _ _ => true
  | _ => false

/-- Signed mantissa. -/
def sm (neg : Bool) (m : Nat) : Int := if neg then -(m : Int) else m

/-- The exact sum of two finite values; a zero sum of unlike signs is +0. -/
def finAdd (n1 : Bool) (m1 : Nat) (e1 : Int) (n2 : Bool) (m2 : Nat) (e2 : Int) : Fv :=
  let e := min e1 e2
  let t := sm n1 m1 * 2 ^ (e1 - e).toNat + sm n2 m2 * 2 ^ (e2 - e).toNat
  if t = 0 then .fin (n1 && n2) 0 0 else .fin (decide (t < 0)) t.natAbs e

/-- Exact sum, IEEE specials. -/
def fvAdd : Fv → Fv → Fv
  | .nan, _ => .nan
  | _, .nan => .nan
  | .inf a, .inf b => if a = b then .inf a else .nan
  | .inf a, _ => .inf a
  | _, .inf b => .inf b
  | .fin n1 m1 e1, .fin n2 m2 e2 => finAdd n1 m1 e1 n2 m2 e2

/-- Exact product, IEEE specials. -/
def fvMul : Fv → Fv → Fv
  | .nan, _ => .nan
  | _, .nan => .nan
  | .inf a, .inf b => .inf (a != b)
  | .inf a, .fin b m _ => if m = 0 then .nan else .inf (a != b)
  | .fin a m _, .inf b => if m = 0 then .nan else .inf (a != b)
  | .fin a m1 e1, .fin b m2 e2 => .fin (a != b) (m1 * m2) (e1 + e2)

/-- Quotient to more than twice the precision of any format, with a sticky last bit. -/
def fvDiv : Fv → Fv → Fv
  | .nan, _ => .nan
  | _, .nan => .nan
  | .inf _, .inf _ => .nan
  | .inf a, .fin b _ _ => .inf (a != b)
  | .fin a _ _, .inf b => .fin (a != b) 0 0
  | .fin a m1 e1, .fin b m2 e2 =>
    if m2 = 0 then (if m1 = 0 then .nan else .inf (a != b))
    else
      let q := m1 * 2 ^ 80 / m2
      let r := m1 * 2 ^ 80 % m2
      .fin (a != b) (2 * q + (if r = 0 then 0 else 1)) (e1 - e2 - 81)

def fvNeg : Fv → Fv
  | .nan => .nan
  | .inf a => .inf (!a)
  | .fin a m e => .fin (!a) m e

def kAdd (a b : K36) : K36 := kEnc (fvAdd (kDec a) (kDec b))
def kMul (a b : K36) : K36 := kEnc (fvMul (kDec a) (kDec b))
def kDiv (a b : K36) : K36 := kEnc (fvDiv (kDec a) (kDec b))
/-- a × b + c, rounded once. -/
def kFma (a b c : K36) : K36 := kEnc (fvAdd (fvMul (kDec a) (kDec b)) (kDec c))

/-- A number that orders the values that are no NaN; the zeros are equal. -/
def kOrd (x : K36) : Int := sm (kSign x) (x.toNat % 2 ^ 35)
def kLt (a b : K36) : Bool := !kIsNaN a && !kIsNaN b && decide (kOrd a < kOrd b)
def kLe (a b : K36) : Bool := !kIsNaN a && !kIsNaN b && decide (kOrd a ≤ kOrd b)
def kEq (a b : K36) : Bool := !kIsNaN a && !kIsNaN b && decide (kOrd a = kOrd b)

/-- FP32, BF16 and FP16 into K36: exact. -/
def kOf32 (x : Nat) : K36 := kEnc (fDec 8 23 x)
def kOfBf (x : Nat) : K36 := kEnc (fDec 8 7 x)
def kOfFp16 (x : Nat) : K36 := kEnc (fDec 5 10 x)
/-- K36 to FP32: to nearest, ties to even (R53). -/
def kTo32 (x : K36) : U32 := BitVec.ofNat 32 (fEnc 8 23 (kDec x))

/-- Element value of a float format code, 0 BF16, 1 FP16, 2 FP32 (R210). -/
def fmtDec (fmt x : Nat) : Fv :=
  match fmt with
  | 0 => fDec 8 7 x
  | 1 => fDec 5 10 x
  | _ => fDec 8 23 x
/-- A value in a float format code, rounded to nearest with ties to even. -/
def fmtEnc (fmt : Nat) (v : Fv) : Nat :=
  match fmt with
  | 0 => fEnc 8 7 v
  | 1 => fEnc 5 10 v
  | _ => fEnc 8 23 v
/-- Is a rounded float of the format an infinity? -/
def fmtInf (fmt x : Nat) : Bool := match fmtDec fmt x with
  | .inf _ => true
  | _ => false

end Sys2Proof.Machine
end

