-- ==== Sys2Proof/Machine/Mx.lean ====
section
/-! DEFINITION. Rows of a tensor as values: the float formats, and the MX formats of R109, R110 and R221. -/
namespace Sys2Proof.Machine

-- the element of an MX format: fraction bits, least exponent of a normal, emax, code of the largest, bits
def mxFb (fmt : Nat) : Nat := [3, 2, 1].getD (fmt - 10) 3
def mxEmin (fmt : Nat) : Int := [-6, -14, 0].getD (fmt - 10) 0
def mxEmax (fmt : Nat) : Int := [8, 15, 2].getD (fmt - 10) 0
def mxTop (fmt : Nat) : Nat := [0x7E, 0x7B, 7].getD (fmt - 10) 0
def mxBits (fmt : Nat) : Nat := if fmt = 12 then 4 else 8

/-- m × 2^e to the nearest element, ties to even, clamped to the largest (R110 rne_sat). -/
def mxEl (fmt m : Nat) (e : Int) : Nat :=
  if m = 0 then 0
  else
    let fb := mxFb fmt
    let emin := mxEmin fmt
    let q := max ((Nat.log2 m : Int) + e) emin - fb
    let k := if q ≤ e then m * 2 ^ (e - q).toNat else rne m (q - e).toNat
    min ((q - (emin - fb)).toNat * 2 ^ fb + k) (mxTop fmt)

/-- The value of an element code. -/
def mxElVal (fmt x : Nat) : Fv :=
  match fmt with
  | 10 => if x % 128 = 127 then .nan
          else
            let neg := x / 128 % 2 == 1
            let ex := x / 8 % 16
            if ex = 0 then .fin neg (x % 8) (-9) else .fin neg (8 + x % 8) (ex - 10)
  | 11 => fDec 5 2 x
  | _ =>
    let neg := x / 8 % 2 == 1
    let ex := x / 2 % 4
    if ex = 0 then .fin neg (x % 2) (-1) else .fin neg (2 + x % 2) (ex - 2)

/-- |x| as a K36 value. -/
def kAbs (x : K36) : K36 := x &&& 0x7FFFFFFFF

/-- One block of 32 values (R110): the elements, the scale byte, and whether it became a NaN block. -/
def mxBlock (fmt : Nat) (vs : List K36) : List Nat × Nat × Bool :=
  let sgn (v : K36) : Nat := if kSign v then 2 ^ (mxBits fmt - 1) else 0
  let amax := vs.foldl (fun a v => if kLt a (kAbs v) then kAbs v else a) 0
  if vs.any (fun v => !kFinite v) then (vs.map (fun _ => 0), 0xFF, true)
  else match kDec amax with
    | .fin _ m e =>
      if m = 0 then (vs.map sgn, 0, false)
      else
        let x := max (-127) (min 127 ((Nat.log2 m : Int) + e - mxEmax fmt))
        (vs.map (fun v => match kDec v with
          | .fin _ m1 e1 => sgn v + mxEl fmt m1 (e1 - x)
          | _ => 0), (x + 127).toNat, false)
    | _ => (vs.map (fun _ => 0), 0xFF, true)

/-- A list in pieces of n. -/
def chunksOf {α : Type} (n : Nat) : Nat → List α → List (List α)
  | 0, _ => []
  | k + 1, l => if l.isEmpty then [] else l.take n :: chunksOf n k (l.drop n)

/-- Pairs of nibbles, the even element low (R109). -/
def nibbles : List Nat → List Byte
  | a :: b :: l => BitVec.ofNat 8 (a + 16 * b) :: nibbles l
  | [a] => [BitVec.ofNat 8 a]
  | [] => []

/-- A row of values in an MX format, and its NaN blocks. -/
def mxPack (fmt : Nat) (vs : List K36) : List Byte × Nat :=
  let bs := (chunksOf 32 vs.length vs).map (fun b => mxBlock fmt b)
  let els := bs.flatMap (fun b => b.1)
  ((if fmt = 12 then nibbles els else els.map (fun x => BitVec.ofNat 8 x)) ++ bs.map (fun b => BitVec.ofNat 8 b.2.1),
    (bs.filter (fun b => b.2.2)).length)

/-- The values of an MX row of n elements (R221). -/
def mxVals (fmt n : Nat) (row : List Byte) : List K36 :=
  let els := if fmt = 12 then n / 2 else n
  (List.range n).map (fun i =>
    let b := (row.getD (if fmt = 12 then i / 2 else i) 0).toNat
    let x := if fmt = 12 then (if i % 2 = 0 then b % 16 else b / 16) else b
    let sc := (row.getD (els + i / 32) 0).toNat
    if sc = 0xFF then kNaN
    else match mxElVal fmt x with
      | .fin neg m e => kEnc (.fin neg m (e + sc - 127))
      | v => kEnc v)

/-- The values of a row of n elements of a float or MX format. -/
def rowVals (fmt n : Nat) (row : List Byte) : List K36 :=
  if isMx fmt then mxVals fmt n row
  else (List.range n).map (fun i => kEnc (fmtDec fmt (leNat ((row.drop (i * ebOf fmt)).take (ebOf fmt)))))

/-- Values as a row of a float or MX format: its bytes, its NaN blocks, and whether a finite value became infinite. -/
def rowPack (fmt : Nat) (vs : List K36) : List Byte × Nat × Bool :=
  if isMx fmt then
    let r := mxPack fmt vs
    (r.1, r.2, false)
  else
    let xs := vs.map (fun v => fmtEnc fmt (kDec v))
    (xs.flatMap (fun x => natLe (ebOf fmt) x), 0,
      (List.range vs.length).any (fun i => fmtInf fmt (xs.getD i 0) && !kIsInf (vs.getD i 0)))

/-- Is a conversion between float and MX formats in the list of R221? -/
def fltConv (a b : Nat) : Bool := (isFloat a && (isFloat b || isMx b)) || (isMx a && isFloat b)

/-- A row of n elements converted from format a to b (R110, R221). -/
def convRow (a b n : Nat) (row : List Byte) : List Byte × Nat × Bool :=
  if a = b then (row, 0, false) else rowPack b (rowVals a n row)

/-- Pitch of rows of B_row bytes on the wire and in a Bay (R109). -/
def pitchOf (brow : Nat) : Nat := 32 * ((brow + 31) / 32)

/-- B_row of n elements in an element format (R109). -/
def rowBytes (fmt n : Nat) : Nat := if isMx fmt then mxRow fmt n else n * ebOf fmt

end Sys2Proof.Machine
end

