-- ==== Sys2Proof/Machine/Exact.lean ====
section
/-! DEFINITION. The true values of the built-in functions of the Function Unit, enclosed between two fixed-point numbers of
1,024 fraction bits, and rounded to a short format (R237). -/
namespace Sys2Proof.Machine

/-- Fraction bits of the fixed-point numbers, and the number 1. -/
def fxBits : Nat := 1024
def fxOne : Nat := 2 ^ fxBits

/-- Sums of k terms of the series of exp z, for z between zlo and zhi and below 1/2: from below, and from above with what
is left out. -/
def expSum (zlo zhi : Nat) : Nat → Nat → Nat → Nat → Nat × Nat
  | 0, _, _, thi => (0, 2 * thi)
  | k + 1, i, tlo, thi =>
    let r := expSum zlo zhi k (i + 1) (tlo * zlo / fxOne / i) (thi * zhi / fxOne / i + 1)
    (tlo + r.1, thi + r.2)

/-- Square a pair of bounds k times. -/
def fxSquares : Nat → Nat × Nat → Nat × Nat
  | 0, p => p
  | k + 1, p => fxSquares k (p.1 * p.1 / fxOne, p.2 * p.2 / fxOne + 1)

/-- Bounds of exp y for a y that is not negative. -/
def expPos (y : Nat) : Nat × Nat := fxSquares 24 (expSum (y / 2 ^ 24) (y / 2 ^ 24 + 1) 100 1 fxOne fxOne)

/-- 1,024, beyond which exp (-y) is below the last fraction bit. -/
def fxFar : Int := 1024 * (fxOne : Int)

/-- Bounds of exp y. -/
def fxExp (y : Int) : Nat × Nat :=
  if y ≤ -fxFar then (0, 1)
  else
    let p := expPos y.natAbs
    if 0 ≤ y then p else (fxOne * fxOne / p.2, fxOne * fxOne / p.1 + 1)

/-- Sums of k terms z^n / n with n rising by 2, for z between zlo and zhi and at most 1/3; tlo and thi bound z^n. -/
def lnSum (zlo zhi : Nat) : Nat → Nat → Nat → Nat → Nat × Nat
  | 0, _, _, thi => (0, thi)
  | k + 1, n, tlo, thi =>
    let r := lnSum zlo zhi k (n + 2) (tlo * zlo / fxOne * zlo / fxOne) ((thi * zhi / fxOne + 1) * zhi / fxOne + 1)
    (tlo / n + r.1, thi / n + 1 + r.2)

/-- Bounds of ln (a / b) for a between b and 2b. -/
def lnOne (a b : Nat) : Nat × Nat :=
  let z := (a - b) * fxOne / (a + b)
  let r := lnSum z (z + 1) 350 1 z (z + 1)
  (2 * r.1, 2 * r.2)

/-- Bounds of ln 2. -/
def fxLn2 : Nat × Nat := lnOne 2 1

/-- Bounds of ln (m × 2^e) for m above 0. -/
def fxLn (m : Nat) (e : Int) : Int × Int :=
  let n := Nat.log2 m + e
  let r := lnOne m (2 ^ Nat.log2 m)
  if 0 ≤ n then (n * fxLn2.1 + r.1, n * fxLn2.2 + r.2) else (n * fxLn2.2 + r.1, n * fxLn2.1 + r.2)

/-- The fixed-point number m × 2^e, rounded down. -/
def fxOf (m : Nat) (e : Int) : Nat := if 0 ≤ e + fxBits then m * 2 ^ (e + fxBits).toNat else m / 2 ^ (-(e + fxBits)).toNat

/-- Bounds with a sign. -/
def fxSigned (neg : Bool) (p : Int × Int) : Int × Int := if neg then (-p.2, -p.1) else p

/-- Bounds of a positive y multiplied by p, and of p divided by a positive y, for bounds p of any sign. -/
def fxMul (p : Int × Int) (y : Nat × Nat) : Int × Int :=
  ((p.1 * (if 0 ≤ p.1 then y.1 else y.2)).fdiv fxOne, -((-(p.2 * (if 0 ≤ p.2 then y.2 else y.1))).fdiv fxOne))
def fxDiv (p : Int × Int) (y : Nat × Nat) : Int × Int :=
  ((p.1 * fxOne).fdiv (if 0 ≤ p.1 then y.2 else y.1), (p.2 * fxOne).fdiv (if 0 ≤ p.2 then y.1 else y.2) + 1)

/-- Bounds of 1 / (1 + exp (-x)), which is below 1. -/
def fxSigmoid (x : Int) : Nat × Nat :=
  if x ≤ -fxFar then (0, 1)
  else
    let t := fxExp (-x)
    (fxOne * fxOne / (fxOne + t.2), min fxOne (fxOne * fxOne / (fxOne + t.1) + 1))

/-- Bounds of the true value of built-in function f (R234) at a finite argument where it is finite and not 0. -/
def fuTrue (f : Nat) (neg : Bool) (m : Nat) (e : Int) : Int × Int :=
  let a := fxOf m e
  let x := sm neg a
  let both (p : Nat × Nat) : Int × Int := (p.1, p.2)
  let one (k : Nat) : Int × Int := (k, k + 1)
  match f with
  | 0x01 =>
    let y := fxMul (x, x) fxLn2
    ((fxExp y.1).1, (fxExp y.2).2)
  | 0x02 => both (fxExp x)
  | 0x03 => fxSigned neg (one (2 ^ ((2 * fxBits : Nat) - (e + fxBits)).toNat / m))
  | 0x04 => one (Nat.sqrt (2 ^ ((2 * fxBits : Nat) - e).toNat / m))
  | 0x05 => one (Nat.sqrt (fxOf m (e + fxBits)))
  | 0x06 => both (fxSigmoid x)
  | 0x07 => fxMul (x, x) (fxSigmoid x)
  | 0x08 =>
    let t := fxExp (-(a : Int))
    let big := max x 0
    (big + (fxLn (fxOne + t.1) (-(fxBits : Int))).1, big + (fxLn (fxOne + t.2) (-(fxBits : Int))).2)
  | 0x09 => fxDiv (fxLn m e) fxLn2
  | 0x0A => fxLn m e
  | _ =>
    let t := fxExp (-(2 * a : Nat))
    fxSigned neg (((fxOne - t.2) * fxOne / (fxOne + t.2) : Nat), ((fxOne - t.1) * fxOne / (fxOne + t.1) + 1 : Nat))

/-- Can the true value of built-in function f be a dyadic number at an argument other than 0 and 1? The others' never is, and so
lies strictly between its bounds. -/
def fuDyadic (f : Nat) : Bool := [0x01, 0x03, 0x04, 0x05, 0x09].contains f

/-- The true value of built-in function f rounded once to format fmt. Bounds that round apart enclose a value midway between two
numbers of the format, which goes to the even one (R53, R237; log entry 13). -/
def fuExact (f fmt : Nat) (x : K36) : Nat :=
  match kDec x with
  | .fin neg m e =>
    let p := fuTrue f neg m e
    let k := if fuDyadic f then 0 else 1
    let out (n : Int) : Nat := fmtEnc fmt (.fin (decide (n < 0)) n.natAbs (-(fxBits : Int) - 1))
    let lo := out (2 * p.1 + k)
    let hi := out (2 * p.2 - k)
    if lo = hi ∨ lo % 2 = 0 then lo else hi
  | _ => fmtEnc fmt .nan

end Sys2Proof.Machine
end

