-- ==== Sys2Proof/Machine/Fu.lean ====
section
/-! DEFINITION. The Function Unit: micro-programs and the seed table (R239 to R242, R391), evaluation to K36 (R233) and
to a short format (R237). -/
namespace Sys2Proof.Machine

/-- Registers of an evaluation (R239). -/
structure FuReg where
  r   : List K36
  n   : Int := 0
  p   : Bool := false
  res : Option K36 := none
  deriving DecidableEq, Repr

/-- A program: its constants and its steps (R242). -/
structure FuProg where
  k  : List K36
  st : List Nat
  deriving DecidableEq, Repr

/-- The program of a record; none for an empty slot. -/
def fuProg (rec_ : List Byte) : Option FuProg :=
  let w (o n : Nat) : Nat := leNat ((rec_.drop o).take n)
  let len := fld (w 0 4) 6 0
  if len = 0 then none
  else some { k := (List.range 16).map (fun i => BitVec.ofNat 36 (w (64 + 8 * i) 8)),
              st := (List.range len).map (fun i => w (192 + 8 * i) 8) }

/-- The value an operand selector names (R240). -/
def fuSel (g : FuProg) (x : FuReg) (c : Nat) : K36 :=
  if c < 8 then x.r.getD c 0 else if c < 24 then g.k.getD (c - 8) 0 else if c = 25 then kOne else 0

def FuReg.set (x : FuReg) (d : Nat) (v : K36) : FuReg := { x with r := x.r.set d v }

/-- Bit of the class of a value in SPC: 0 NaN, 1 -inf, 2 negative, 3 -0, 4 +0, 5 positive, 6 +inf (R240). -/
def kClass (a : K36) : Nat :=
  match kDec a with
  | .nan => 0
  | .inf n => if n then 1 else 6
  | .fin n m _ => if m = 0 then (if n then 3 else 4) else if n then 2 else 5

/-- RES of SPC (R240). -/
def spcRes (a : K36) (c : Nat) : K36 :=
  let s := a &&& 0x800000000
  match c with
  | 0 => kNaN
  | 1 => 0
  | 2 => kNeg0
  | 3 => kInf
  | 4 => kNegInf
  | 5 => kOne
  | 6 => if kIsNaN a then kNaN else a
  | 7 => kOne ||| 0x800000000
  | 8 => kInf ||| s
  | 9 => s
  | _ => kOne ||| s

/-- The floor of a finite value. -/
def finFloor (neg : Bool) (m : Nat) (e : Int) : Int :=
  if 0 ≤ e then sm neg m * 2 ^ e.toNat else Int.fdiv (sm neg m) (2 ^ (-e).toNat)

def sat16 (n : Int) : Int := max (-32768) (min 32767 n)

/-- A - lo as an exact value. -/
def fvSub (a b : Fv) : Fv := fvAdd a (fvNeg b)

/-- An integer as an exact value. -/
def fvInt (n : Int) : Fv := .fin (decide (n < 0)) n.natAbs 0

/-- FSPLIT: n and D (R240). -/
def fsplit (a : K36) : Int × K36 :=
  match kDec a with
  | .nan => (0, kNaN)
  | .inf neg => (if neg then -32768 else 32767, 0)
  | .fin neg m e =>
    let f := finFloor neg m e
    (sat16 f, kEnc (fvAdd (fvSub (.fin neg m e) (fvInt f)) (.fin false 0 0)))

/-- MSPLIT: D and n (R240). -/
def msplit (a : K36) (par : Bool) : K36 × Int :=
  match kDec a with
  | .fin _ m e =>
    if m = 0 then (a, 0)
    else
      let l := (Nat.log2 m : Int)
      let n := if par then (l + e) - (l + e) % 2 else l + e
      (kEnc (.fin false m (e - n)), n)
  | .nan => (kNaN, 0)
  | .inf _ => (a, 0)

/-- LOOKUP: index and residual (R241). -/
def fuLookup (a lo : K36) (w nent : Nat) : Nat × K36 :=
  let d := fvSub (kDec a) (kDec lo)
  match d with
  | .nan => (0, kNaN)
  | .inf neg =>
    (if neg then 0 else nent, kEnc d)
  | .fin neg m e =>
    let i := (max 0 (min (nent : Int) (finFloor neg m (e + w)))).toNat
    (i, kEnc (fvSub d (.fin false i (-(w : Int)))))

/-- Words TBASE + k × i onward into registers D onward. -/
def fuLoadRegs (b : FuBank) (base : Nat) : Nat → Nat → FuReg → FuReg
  | 0, _, x => x
  | k + 1, d, x => fuLoadRegs b (base + 1) k (d + 1) (x.set d (FMap.get 0 b.seed base))

/-- min and max with -0 below +0. -/
def kLess (a b : K36) : Bool := kLt a b || (kEq a b && kSign a && !kSign b)

/-- One step (R240). -/
def fuStep (b : FuBank) (g : FuProg) (x : FuReg) (s : Nat) : FuReg :=
  let d := fld s 10 8
  let a := fuSel g x (fld s 15 11)
  let y := fuSel g x (fld s 20 16)
  let z := fuSel g x (fld s 25 21)
  let nb := bitOf s 6
  let yn := if nb then kNeg y else y
  match x.res with
  | some _ => x
  | none =>
    match fld s 5 0 with
    | 0x01 => x.set d (kFma a yn (if bitOf s 7 then kNeg z else z))
    | 0x02 => x.set d (if kIsNaN a || kIsNaN yn then kNaN else if kLess yn a then yn else a)
    | 0x03 => x.set d (if kIsNaN a || kIsNaN yn then kNaN else if kLess a yn then yn else a)
    | 0x04 => { x with p := match fld s 27 26 with
                        | 0 => kLt a yn
                        | 1 => kLe a yn
                        | 2 => kEq a yn
                        | _ => kIsNaN a || kIsNaN yn }
    | 0x05 => x.set d (if x.p then a else y)
    | 0x06 => let r := fsplit a
              { x.set d r.2 with n := r.1 }
    | 0x07 => let r := msplit a (bitOf s 32)
              { x.set d r.1 with n := r.2 }
    | 0x08 => let nw := fld s 52 51 + 1
              let r := fuLookup a y (fld s 50 47) (fld s 63 53)
              (fuLoadRegs b (fld s 46 32 + nw * r.1) nw d x).set (fld s 25 21) r.2
    | 0x09 => let n' := if bitOf s 48 then x.n.fdiv 2 else x.n
              let k := (if nb then -n' else n') + (BitVec.ofNat 16 (fld s 47 32)).toInt
              let v := match kDec a with
                | .fin neg m e => kEnc (.fin neg m (e + k))
                | .nan => kNaN
                | .inf _ => a
              x.set d (if bitOf s 49 && !kIsNaN v then (v &&& 0x7FFFFFFFF) ||| (z &&& 0x800000000) else v)
    | 0x0A => x.set d (kEnc (fvInt x.n))
    | 0x0B => if bitOf (fld s 38 32) (kClass a) then { x with res := some (spcRes a (fld s 43 40)) } else x
    | _ => x

/-- Evaluate function code f of a bank in K36 (R233, R239). -/
def fuEval (b : FuBank) (f : Nat) (x : K36) : K36 :=
  match fuProg (FMap.get [] b.recs f) with
  | none => kNaN
  | some g =>
    let e := g.st.foldl (fuStep b g) { r := x :: List.replicate 7 0 }
    match e.res with
    | some v => v
    | none => if kIsNaN (e.r.getD 0 0) then kNaN else e.r.getD 0 0

/-- Is the slot of a code empty in a bank? -/
def FuBank.empty (b : FuBank) (f : Nat) : Bool := (fuProg (FMap.get [] b.recs f)).isNone

/-- LOG2E (section Scoring a row of 03). -/
def kLog2e : K36 := 0x3FFB8AA3B
/-- exp_k36 of the Truss. -/
def expK (b : FuBank) (x : K36) : K36 := fuEval b 0x01 (kMul x kLog2e)

/-- Error bound of a built-in function of R235 at a finite argument, for a result with m units of 2^e in the last place. -/
def fuBound (f : Nat) (x : K36) (m : Nat) (e : Int) : Fv :=
  match f with
  | 0x02 => match kDec x with
    | .fin _ a k => fvMul (.fin false m (e - 24)) (fvAdd (.fin false 2 0) (.fin false a k))
    | _ => .fin false 0 0
  | _ => .fin false ([0x06, 0x08, 0x09, 0x0B].contains f |> b2n |> (· + 1 + 2 * b2n (f == 0x07 || f == 0x0A))) e

/-- Is a first evaluation within the function's bound of a rounding boundary of short format fmt, so that it needs one more
pass (R237)? The two ends of the bound then round apart. -/
def fuNear (f fmt : Nat) (x r : K36) : Bool :=
  match kDec r with
  | .fin neg m e =>
    let d := fuBound f x m e
    m != 0 && fmtEnc fmt (fvSub (.fin neg m e) d) != fmtEnc fmt (fvAdd (.fin neg m e) d)
  | _ => false

/-- Does a LOOKUP of a function's record reach seed word a (R241)? -/
def fuReads (rec_ : List Byte) (a : Nat) : Bool :=
  match fuProg rec_ with
  | none => false
  | some g => g.st.any (fun s => fld s 5 0 == 8 && decide (fld s 46 32 ≤ a)
      && decide (a < fld s 46 32 + (fld s 52 51 + 1) * (fld s 63 53 + 1)))

/-- Does a bank's slot hold the built-in function f as supplied: its program and the seed words that it reads (R235, R391)? -/
def fuSupplied (im b : FuBank) (f : Nat) : Bool :=
  let prog := FMap.get [] im.recs f
  let low (b : FuBank) : List (Nat × K36) := b.seed.filter (fun p => fuReads prog p.1)
  decide (1 ≤ f) && decide (f < 0x0C) && FMap.get [] b.recs f == prog && low b == low im

/-- The result of a function stored in float format fmt: that of a built-in function in a short format is exactly rounded
(R237). -/
def fuShort (b : FuBank) (supplied : Bool) (f fmt : Nat) (x : K36) : Nat :=
  let r := fuEval b f x
  if supplied && decide (fmt < 2) && fuNear f fmt x r then fuExact f fmt x else fmtEnc fmt (kDec r)

-- validity of records and seed words (R240 to R243)

/-- Does a step obey R240 and R241: its operation, the operands it uses, and 0 elsewhere? -/
def fuStepOk (s : Nat) : Bool :=
  let sel (c : Nat) : Bool := decide (c ≤ 25)
  let a := fld s 15 11
  let y := fld s 20 16
  let z := fld s 25 21
  let z0 (nb nc d ua uy uz cond imm : Bool) : Bool :=
    fld s 31 28 == 0 && (nb || fld s 6 6 == 0) && (nc || fld s 7 7 == 0) && (d || fld s 10 8 == 0)
      && (if ua then sel a else a == 0) && (if uy then sel y else y == 0) && (if uz then sel z else z == 0)
      && (cond || fld s 27 26 == 0) && (imm || fld s 63 32 == 0)
  match fld s 5 0 with
  | 0x00 => z0 false false false false false false false false
  | 0x01 => z0 true true true true true true false false
  | 0x02 => z0 true false true true true false false false
  | 0x03 => z0 true false true true true false false false
  | 0x04 => z0 true false false true true false true false
  | 0x05 => z0 false false true true true false false false
  | 0x06 => z0 false false true true false false false false
  | 0x07 => z0 false false true true false false false true && fld s 63 33 == 0
  | 0x08 => z0 false false true true true true false true && decide (z < 8)
              && decide (fld s 46 32 + (fld s 52 51 + 1) * (fld s 63 53 + 1) ≤ 32768)
              && decide (fld s 10 8 + fld s 52 51 ≤ 7)
  | 0x09 => z0 true false true true false true false true && fld s 63 50 == 0
  | 0x0A => z0 false false true false false false false false
  | 0x0B => z0 false false false true false false false true && fld s 63 44 == 0 && fld s 39 39 == 0
              && decide (fld s 43 40 ≤ 10)
  | _ => false

/-- Is a program record valid (R242)? -/
def fuRecOk (rec_ : List Byte) : Bool :=
  let w (o n : Nat) : Nat := leNat ((rec_.drop o).take n)
  let len := fld (w 0 4) 6 0
  let zero (o n : Nat) : Bool := ((rec_.drop o).take n).all (fun b => b == 0)
  decide (w 0 4 ≤ 96) && zero 4 60 && zero 960 64 && zero (192 + 8 * len) (768 - 8 * len)
    && (List.range 16).all (fun i => decide (w (64 + 8 * i) 8 < 2 ^ 36))
    && (List.range len).all (fun i => fuStepOk (w (192 + 8 * i) 8)) && (len != 0 || zero 64 128)

/-- Is a seed word valid (R242)? -/
def fuSeedOk (v : Nat) : Bool := decide (v < 2 ^ 36)

def State.fuLive (s : State) : Nat := s.reg 0x80000 % 2
def State.fuBank (s : State) (b : Nat) : FuBank := if b = 0 then s.fu.bank0 else s.fu.bank1
def State.setFuBank (s : State) (b : Nat) (x : FuBank) : State :=
  { s with fu := if b = 0 then { s.fu with bank0 := x } else { s.fu with bank1 := x } }

/-- Store seed words from word o of an image. -/
def seedPut (b : FuBank) (o : Nat) : List Nat → FuBank
  | [] => b
  | v :: vs => seedPut { b with seed := FMap.set 0 b.seed o (BitVec.ofNat 36 v) } (o + 1) vs

/-- Store a program record; an empty record empties the slot. -/
def recPut (b : FuBank) (f : Nat) (rec_ : List Byte) : FuBank :=
  { b with recs := FMap.set [] b.recs f (if rec_.all (fun x => x == 0) then [] else rec_) }

/-- The built-in image in a fresh bank (R391): seed words 0 to 0x45FF, then the records of codes 1 to 11. -/
def builtinBank (im : List Byte) : FuBank :=
  let b := seedPut {} 0 ((List.range 0x4600).map (fun i => leNat ((im.drop (8 * i)).take 8)))
  (List.range 11).foldl (fun b i => recPut b (i + 1) ((im.drop (0x23000 + 1024 * i)).take 1024)) b

/-- The string FUDIG is formed from (R246). -/
def FuBank.string (b : FuBank) : List Byte :=
  (List.range 32768).flatMap (fun i => natLe 8 (FMap.get 0 b.seed i).toNat)
    ++ (List.range 63).flatMap (fun i =>
      let r := FMap.get [] b.recs (i + 1)
      r ++ List.replicate (1024 - r.length) 0)

end Sys2Proof.Machine
end

