-- ==== Sys2Proof/Machine/Wait.lean ====
section
/-! DEFINITION. Commands in a queue, their header fields (R27), waits and counters (R28, R30), and the feeds that a
counter closes (R141 to R143). -/
namespace Sys2Proof.Machine

/-- Word i of the slot as fetched. -/
def Cmd.w (c : Cmd) (i : Nat) : Nat := (c.words.getD i 0).toNat
def Cmd.op (c : Cmd) : Nat := fld (c.w 0) 7 0
def Cmd.flag (c : Cmd) (i : Nat) : Bool := bitOf (c.w 0) i
def Cmd.layer (c : Cmd) : Nat := fld (c.w 1) 15 0
def Cmd.opId (c : Cmd) : Nat := fld (c.w 1) 31 16
def Cmd.ind (c : Cmd) (i : Nat) : Bool := bitOf (c.w 2) (24 + i)
/-- Slot Si: as resolved at start, or as fetched before it (R39). -/
def Cmd.s (c : Cmd) (i : Nat) : Nat := (c.slots.getD i (c.words.getD (8 + i) 0)).toNat
/-- The handle in slot Si. -/
def Cmd.h (c : Cmd) (i : Nat) : Nat := fld (c.s i) 19 0

def State.findCmd (s : State) (q : Nat) (i : U32) : Option Cmd := (s.queue q).cmds.find? (fun c => c.idx == i)

def State.updCmd (s : State) (q : Nat) (i : U32) (f : Cmd → Cmd) : State :=
  let x := s.queue q
  s.setQueue q { x with cmds := x.cmds.map (fun c => if c.idx = i then f c else c) }

/-- Started and uncommitted. -/
def Cmd.live (c : Cmd) : Bool := c.phase != .waiting

/-- Started, uncommitted and executing commands of every queue, with their queue. -/
def State.started (s : State) : List (Nat × Cmd) :=
  (List.range 64).flatMap (fun q => ((s.queue q).cmds.filter (fun c => c.live)).map (fun c => (q, c)))

/-- Do two address ranges share a byte? -/
def spanMeets (x y : Nat × Nat) : Bool := decide (x.1 < y.1 + y.2) && decide (y.1 < x.1 + x.2)

/-- The pieces of an address range by 256-byte line. -/
def linePieces (x : Nat × Nat) : List (Nat × Nat) :=
  (List.range ((x.1 % 256 + x.2 + 255) / 256)).map (fun i =>
    let lo := max x.1 ((x.1 / 256 + i) * 256)
    (lo, min (x.1 + x.2) ((x.1 / 256 + i + 1) * 256) - lo))

/-- Output ranges of the other started and uncommitted commands that meet some ranges, with whose they are (R36). -/
def State.meetsOf (s : State) (q : Nat) (i : U32) (ws : List (Nat × Nat)) : List (Nat × U32 × Nat × Nat) :=
  (s.started.filter (fun x => !(x.1 == q && x.2.idx == i))).flatMap (fun x =>
    (x.2.wrote.filter (fun y => ws.any (fun w => spanMeets w y))).map (fun y => (x.1, x.2.idx, y)))

/-- Output ranges of the other started and uncommitted commands that meet some ranges (R36). -/
def State.overlaps (s : State) (q : Nat) (i : U32) (ws : List (Nat × Nat)) : List (Nat × Nat) :=
  (s.meetsOf q i ws).map (fun y => y.2.2)

/-- A command that starts notes its output ranges with the uncommitted commands that they meet (R36). -/
def State.meetOthers (s : State) (q : Nat) (i : U32) (ws : List (Nat × Nat)) : State :=
  (s.started.filter (fun x => !(x.1 == q && x.2.idx == i) && ws.any (fun w => x.2.wrote.any (fun y => spanMeets w y)))).foldl
    (fun s x => s.updCmd x.1 x.2.idx (fun c => { c with
      mix := c.mix ++ ws.filter (fun w => c.wrote.any (fun y => spanMeets w y)) })) s

/-- Is an effect one of those that stand under a command's own output? -/
def Act.isUnder : Act → Bool
  | .under _ _ => true
  | _ => false

/-- Bytes committed by another command in an output range of an uncommitted one: that one's commit writes them, and then its own
(R36). -/
def State.layUnder (s : State) (a : Nat) (bs : List Byte) (y : Nat × U32 × Nat × Nat) : State :=
  let lo := max a y.2.2.1
  let hi := min (a + bs.length) (y.2.2.1 + y.2.2.2)
  (s.updCmd y.1 y.2.1 (fun c => { c with
    acts := c.acts.takeWhile Act.isUnder ++ Act.under lo ((bs.drop (lo - a)).take (hi - lo)) :: c.acts.dropWhile Act.isUnder })).scramble
    [(lo, hi - lo)]

/-- Bytes of one 256-byte line written at the commit of command c. Where another command that was uncommitted beside it
wrote them too, and has committed, a free pick says whether they become c's; where one is still uncommitted they stay
undefined, and its commit decides (R36: at 256-byte granularity the mixture is not specified). -/
def State.layLine (s : State) (q : Nat) (c : Cmd) (a : Nat) (bs : List Byte) : State :=
  let live := s.meetsOf q c.idx [(a, bs.length)]
  let met := c.mix.any (fun y => spanMeets y (a, bs.length) && !live.any (fun z => z.2.2 == y))
  let s0 : State := if met then { s with free := s.free + 1 } else s
  if met ∧ Config.freePick s.free % 2 = 1 then s0
  else live.foldl (fun s y => s.layUnder a bs y) (s0.wr a bs)

/-- Bytes written at the commit of command c. -/
def State.lay (s : State) (q : Nat) (c : Cmd) (a : Nat) (bs : List Byte) : State :=
  if c.mix.isEmpty ∧ (s.meetsOf q c.idx [(a, bs.length)]).isEmpty then s.wr a bs
  else (linePieces (a, bs.length)).foldl (fun s p => s.layLine q c p.1 ((bs.drop (p.1 - a)).take p.2)) s

/-- The part of some writes that lies in a kept range replaces its bytes. -/
def patch (x : Nat × List Byte) (w : Nat × List Byte) : Nat × List Byte :=
  let lo := max w.1 x.1
  let hi := min (w.1 + w.2.length) (x.1 + x.2.length)
  if hi ≤ lo then x else (x.1, x.2.take (lo - x.1) ++ (w.2.drop (lo - w.1)).take (hi - lo) ++ x.2.drop (hi - x.1))

/-- Writes of a command that fills its output in several steps: to what it keeps, while memory shows them undefined (R34). -/
def State.putOwn (s : State) (q : Nat) (i : U32) (ws : List (Nat × List Byte)) : State :=
  match s.findCmd q i with
  | some c => if c.saved.isEmpty then s.puts ws
      else s.updCmd q i (fun c => { c with saved := c.saved.map (fun x => ws.foldl patch x) })
  | none => s

/-- What a command keeps of its output ranges stands in memory again, for a step that works on them. -/
def State.unhide (s : State) (q : Nat) (i : U32) : State :=
  match s.findCmd q i with
  | some c => (s.puts c.saved).updCmd q i (fun c => { c with saved := [] })
  | none => s

/-- A command whose work is complete leaves its output regions undefined until its commit, which writes them (R34). The GOT
of a FEED_ARM is not hidden: the host follows it while the feed runs (R141). -/
def State.hideOutputs (s : State) (q : Nat) (i : U32) : List Act × State :=
  match s.findCmd q i with
  | none => ([], s)
  | some c =>
    if c.wrote.isEmpty ∨ c.op = 0x29 then ([], s)
    else if c.saved.isEmpty then (c.wrote.map (fun x => .write x.1 (s.rd x.1 x.2)), s.scramble c.wrote)
    else (c.saved.map (fun x => .write x.1 x.2), s.updCmd q i (fun c => { c with saved := [] }))

/-- Byte counts of the memory writes among some effects. -/
def actWrites : List Act → List Nat
  | [] => []
  | .write _ bs :: l => bs.length :: actWrites l
  | _ :: l => actWrites l

/-- Does a command write rows of a tensor that its run charges row by row: the Gantry's, COMBINE and FU_APPLY? -/
def Cmd.rowWrites (c : Cmd) : Bool := (decide (0x30 ≤ c.op) && decide (c.op ≤ 0x34)) || c.op == 0x2A || c.op == 0x4D

/-- Does an address lie in a descriptor of a command with HALF (R218)? -/
def State.halfAt (s : State) (own : Nat) (c : Cmd) (a : Nat) : Bool :=
  c.binds.any (fun h => let d := s.desc own h
    d.half && decide (d.base ≤ a) && decide (a < d.base + d.ext))

/-- Charge what a command has written at the memory ports (R280, R281): its output ranges, and the tables and records that its
effects write. -/
def State.chargeOutputs (s : State) (own : Nat) (c : Cmd) (acts : List Act) : State :=
  (if c.rowWrites then s else c.wrote.foldl (fun s x => s.chargeRows own 9 1 x.2 (s.halfAt own c x.1)) s).chargeWrites own
    (actWrites acts)

/-- The work of a command is complete (R33), with its effects for commit; what it has written is charged (R280). -/
def State.complete (s : State) (q : Nat) (i : U32) (acts : List Act) : State :=
  let h := s.hideOutputs q i
  let s1 := h.2.updCmd q i (fun c => { c with phase := .complete, ran := true, acts := c.acts ++ h.1 ++ acts })
  match s.findCmd q i with
  | some c => s1.chargeOutputs (s.owner q) c (c.acts ++ acts)
  | none => s1

-- counters

/-- Address of counter i of an owner (R28). -/
def State.ctrAddr (s : State) (own i : Nat) : Nat := s.rpair (win own + 0x100) + 4 * i
def State.ctr (s : State) (own i : Nat) : Nat := s.rd32 (s.ctrAddr own i)

/-- Is a wait met (R28)? -/
def waitMet (op v target : Nat) : Bool :=
  match op with
  | 0 => true
  | 1 => decide (0 ≤ i32diff v target)
  | _ => v == target

/-- Both header waits of a command (R30). -/
def State.waitsMet (s : State) (own : Nat) (c : Cmd) : Bool :=
  waitMet (fld (c.w 2) 21 20) (s.ctr own (fld (c.w 2) 19 0)) (c.w 3)
    && waitMet (fld (c.w 4) 21 20) (s.ctr own (fld (c.w 4) 19 0)) (c.w 5)

/-- The prefetch wait of a COMBINE (R153); met for every other command. -/
def State.preMet (s : State) (own : Nat) (c : Cmd) : Bool :=
  c.op != 0x2A || waitMet (fld (c.s 6) 21 20) (s.ctr own (fld (c.s 6) 19 0)) (c.s 7)

/-- The value of slot Si: direct, or read through its reference; the handle where it cannot be read (R39). -/
def State.slotValue (s : State) (own : Nat) (c : Cmd) (i : Nat) : Except Nat U32 :=
  let w := c.w (8 + i)
  if !c.ind i then .ok (u32 w)
  else
    let h := fld w 19 0
    let k := 4 * fld w 31 20
    if !s.hValid own h ∨ (s.desc own h).ext < k + 4 then .error h
    else .ok (u32 (s.rd32 ((s.desc own h).base + k)))

/-- All eight slots, or the handle of the first that cannot be read. -/
def State.slotsGo (s : State) (own : Nat) (c : Cmd) : List Nat → Except Nat (List U32)
  | [] => .ok []
  | i :: is => match s.slotValue own c i with
    | .error h => .error h
    | .ok v => match s.slotsGo own c is with
      | .error h => .error h
      | .ok vs => .ok (v :: vs)

/-- What a FENCE of scope CONTEXT waits for when its waits are met: the commands of its context that are started and
uncommitted (R42). A system queue belongs to no context, and R42 does not say what its context is: the model takes the
commands of all system queues (DESIGN CHOICE, log entry 56). -/
def State.fenceSet (s : State) (own q : Nat) (c : Cmd) : List (Nat × U32) :=
  if c.op = 0x03 ∧ c.w 8 = 1 then
    (s.started.filter (fun x => s.owner x.1 == own && !(x.1 == q && x.2.idx == c.idx))).map (fun x => (x.1, x.2.idx))
  else []

/-- The waits of a command are found met: its indirect slots are read, once, and a FENCE takes its set (R30, R39, R42). -/
def State.waitsOver (s : State) (own q : Nat) (c : Cmd) : Cmd :=
  if c.ready then c
  else
    let c1 : Cmd := { c with ready := true, tick := s.ticks, fence := s.fenceSet own q c }
    match s.slotsGo own c (List.range 8) with
    | .ok vs => { c1 with slots := vs }
    | .error h => { c1 with bad := some h }

/-- WAIT_MET records of the two header waits of a command, as they are found met (R374). -/
def State.waitRecs (s : State) (own q : Nat) (c : Cmd) : State :=
  let one (s : State) (k : Nat) : State :=
    if fld (c.w k) 21 20 = 0 then s
    else s.trace 0x05 own q [c.idx.toNat, fld (c.w k) 19 0, c.w (k + 1), s.ctr own (fld (c.w k) 19 0)]
  one (one s 2) 4

/-- Re-evaluate the waits of one queue: those of its oldest waiting command, and every prefetch wait (R30, R153). -/
def State.pollQueue (s : State) (q : Nat) : State :=
  let x := s.queue q
  let own := s.owner q
  let see (c : Cmd) : Cmd := { c with pre := c.pre || s.preMet own c }
  match x.cmds.find? (fun c => c.phase == .waiting && c.skip == .run) with
  | some c0 =>
    if c0.ready || !s.waitsMet own c0 then s.setQueue q { x with cmds := x.cmds.map see }
    else
      let s1 := s.setQueue q { x with cmds := x.cmds.map (fun c => see (if c.idx = c0.idx then s.waitsOver own q c else c)) }
      { s1 with ticks := s1.ticks + 1 }.waitRecs own q c0
  | none => s.setQueue q { x with cmds := x.cmds.map see }

/-- Re-evaluate the waits of an owner's queues (R30). -/
def State.pollOwner (s : State) (own : Nat) : State :=
  (List.range 64).foldl (fun s q => if s.owner q = own ∧ s.rbit (kq q + 0xC) 0 then s.pollQueue q else s) s

-- feeds

/-- Address of the Bay control block of a local slot; 0 is none (R111). -/
def State.bcb (s : State) (c l : Nat) : Nat := s.rd64 (s.rpair (win c + 0x518) + 8 * l) % addrMod

/-- Send a Feed message of the given words (13_boundary_ports, Feed message). -/
def State.feedMsg (s : State) (ws : List Nat) : State :=
  { s with feedOut := s.feedOut ++ [(List.range 16).map (fun i => u32 (ws.getD i 0))] }

def State.findFeed (s : State) (id : Nat) : Option Feed := s.feeds.find? (fun f => f.id == id && !f.ended)
def State.updFeed (s : State) (id : Nat) (g : Feed → Feed) : State :=
  { s with feeds := s.feeds.map (fun f => if f.id = id ∧ !f.ended then g f else f) }

/-- Is an entry complete (R145)? -/
def FeedEnt.complete (e : FeedEnt) : Bool := e.closed && (e.zero || e.done == e.m)

/-- Acts of a FEED_ARM at its commit (R145, R314). -/
def Feed.acts (s : State) (f : Feed) : List Act :=
  if f.gate then [.feedShut]
  else [.dropBays f.gen f.xid] ++ f.ents.map (fun e => .bayFree e.lslot)
    ++ (let d := s.desc f.ctx f.got
        (d.put 8 (natLe 4 2)).map (fun p => Act.write p.1 p.2)) ++ [.feedShut]

/-- A FEED_ARM whose entries are all complete, and whose RETURN has started, is complete (R145, R150). -/
def State.feedCheck (s : State) : List Feed → State
  | [] => s
  | f :: fs =>
    let ok := f.abort.isNone && !f.ended && f.ents.all (fun e => e.complete) && (f.gate || f.retSeen)
    let s1 := if ok then
        match s.findCmd f.q f.idx with
        | some c => if c.phase = .started then
            s.complete f.q f.idx (f.acts s ++ (if f.gate then
              ((s.desc f.ctx f.got).put 8 (natLe 4 2)).map (fun p => Act.write p.1 p.2) else []))
          else s
        | none => s
      else s
    s1.feedCheck fs

/-- Publish READY of an entry: the GOT copy and the Feed message (R141). -/
def State.sendReady (s : State) (f : Feed) (e ready : Nat) (closed : Bool) : State :=
  let d := s.desc f.ctx f.got
  ((s.strWr32 d (64 + 64 * e + 12) ready).feedMsg [3 + f.id * 2 ^ 16, e, ready, b2n closed]).opCount 24 15 1

/-- Close entry e of a feed (R142, R143). -/
def State.closeEnt (s : State) (f : Feed) (e : Nat) (x : FeedEnt) : FeedEnt × State :=
  let b := s.bcb f.ctx x.lslot
  let m := s.rd32 (b + 20)
  let s1 := s.wr32 b (putFld (s.rd32 b) 3 0 2)
  let ref := (s1.exch.find? (fun z => z.ctx == f.ctx && z.gen == f.gen && z.xid == f.xid)).bind
    (fun z => (z.refused.find? (fun r => r.1 == x.lslot)).map (fun r => r.2))
  let s2 := match ref with
    | some n => if s1.rbit (win f.ctx + 0x700) 0 then s1.wr32 (b + 24) (s1.rd32 (b + 24) + n) else s1
    | none => s1
  let d := s2.desc f.ctx f.got
  let w0 := s2.str32 d (64 + 64 * e)
  let s3 := (s2.strWr32 d (64 + 64 * e) (putFld (putFld w0 14 14 1) 13 13 (b2n (m == 0)))).strWr32 d (64 + 64 * e + 8) m
  ({ x with m := m, ready := m, closed := true, zero := m == 0 }, s3.sendReady f e m true)

/-- Close every entry of a feed from index e on. -/
def State.closeEnts (s : State) (f : Feed) : Nat → List FeedEnt → List FeedEnt × State
  | _, [] => ([], s)
  | e, x :: xs =>
    let r := if x.closed then (x, s) else s.closeEnt f e x
    let t := r.2.closeEnts f (e + 1) xs
    (r.1 :: t.1, t.2)

/-- Close the feeds of context c whose marker counter is in (R142). -/
def State.closeFeeds (s : State) (c : Nat) : List Feed → State
  | [] => s
  | f :: fs =>
    if f.ctx = c ∧ !f.gate ∧ f.abort.isNone ∧ !f.ended ∧ 0 ≤ i32diff (s.ctr c f.dmcnt) f.dmval.toNat then
      let r := s.closeEnts f 0 f.ents
      (r.2.updFeed f.id (fun g => { g with ents := r.1 })).closeFeeds c fs
    else s.closeFeeds c fs

/-- What follows a change of an owner's counters by the block itself: waits, and Bays that close (R30, R142). -/
def State.ctrChanged (s : State) (own : Nat) : State :=
  let s1 := (s.pollOwner own).closeFeeds own s.feeds
  s1.feedCheck s1.feeds

/-- The signal operation of a header or SIGNAL slot on a counter (R27, R31). -/
def State.signalOp (s : State) (own q idx op i v : Nat) : State :=
  match op with
  | 0 => s
  | _ =>
    let nv := (if op = 1 then s.ctr own i + v else v) % 2 ^ 32
    (s.wr32 (s.ctrAddr own i) nv).trace 0x06 own q [idx, i, op, nv]

/-- A completion marker adds 1 to a counter of a context (R114, R12). -/
def State.markerIn (s : State) (c i : Nat) : State :=
  (s.wr32 (s.ctrAddr c i) ((s.ctr c i + 1) % 2 ^ 32)).ctrChanged c

end Sys2Proof.Machine
end

