-- ==== Sys2Proof/Machine/Stream.lean ====
section
/-! DEFINITION. The DP2 and DP1 slab header (R108, R131), sequenced streams (R116, R117, R132), markers, and HELLO
(R130). -/
namespace Sys2Proof.Machine

def fVer (f : Frame) : Nat := fld (f.w 0) 3 0
def fKind (f : Frame) : Nat := fld (f.w 0) 7 4
def fCtx (f : Frame) : Nat := fld (f.w 0) 11 8
def fSrc (f : Frame) : Nat := fld (f.w 0) 23 12
def fOrd (f : Frame) : Bool := bitOf (f.w 0) 24
def fKey (f : Frame) : Nat := f.w 1
def fGen (f : Frame) : Nat := fld (f.w 2) 15 0
def fDst (f : Frame) : Nat := fld (f.w 2) 27 16
def fExpert (f : Frame) : Nat := fld (f.w 3) 15 0
def fLslot (f : Frame) : Nat := fld (f.w 3) 27 16
def fRepl (f : Frame) : Nat := fld (f.w 3) 29 28
def fRow (f : Frame) : Nat := fld (f.w 4) 19 0
def fRows (f : Frame) : Nat := fld (f.w 4) 28 20
def fElems (f : Frame) : Nat := if fld (f.w 5) 16 0 = 0 then 65536 else fld (f.w 5) 16 0
def fFmt (f : Frame) : Nat := fld (f.w 5) 19 17
def fSeq (f : Frame) : Nat := f.w 6
def fSession (f : Frame) : Nat := fld (f.w 7) 15 0
def fXid (f : Frame) : Nat := fld (f.w 7) 23 16

/-- f with header word i replaced. -/
def fSet (f : Frame) (i v : Nat) : Frame := { f with hdr := f.hdr.set i (u32 v) }
def fResend (f : Frame) : Frame := fSet f 0 (putFld (f.w 0) 25 25 1)

/-- The version known of a chip (R130): 0 unknown, 1 DP1, 2 DP2. -/
def State.peerVer (s : State) (d : Nat) : Nat := fld (s.reg (0x41000 + 4 * (d / 16))) (2 * (d % 16) + 1) (2 * (d % 16))
def State.setPeerVer (s : State) (d v : Nat) : State :=
  s.setRf (0x41000 + 4 * (d / 16)) (2 * (d % 16) + 1) (2 * (d % 16)) v

/-- Words 0 to 2 and 7 of a slab of context c (R108, R395). -/
def State.slabHdr (s : State) (kind c dst gen xid w3 w4 w5 : Nat) (tail : List Nat) : List Nat :=
  [2 + kind * 2 ^ 4 + c * 2 ^ 8 + s.chip * 2 ^ 12 + b2n (s.rbit (win c + 0x700) 0) * 2 ^ 24, s.reg (win c + 0x504),
    gen + dst * 2 ^ 16, w3, w4, w5, 0, s.rf (win c + 0x500) 31 16 + xid * 2 ^ 16] ++ tail

/-- A slab as it leaves toward a peer of a version: DP1 carries GEN, SEQ, SESSION and XID as 0 (R131). -/
def wireForm (v : Nat) (f : Frame) : Frame :=
  if v = 1 then
    fSet (fSet (fSet (fSet f 0 (putFld (putFld (f.w 0) 3 0 1) 24 24 0)) 2 (putFld (f.w 2) 15 0 0)) 6 0) 7 0
  else f

/-- Send HELLO to a chip of unknown version (R130). -/
def State.sayHello (s : State) (d : Nat) (resend : Bool) : State :=
  s.emit d 0 (mkFrame [2 + 9 * 2 ^ 4 + s.chip * 2 ^ 12 + b2n resend * 2 ^ 25, 0, d * 2 ^ 16, 0, 0, 0, 0, 0, 2 + 1 * 2 ^ 4])

/-- Begin finding out a chip's version, once. -/
def State.hello (s : State) (d : Nat) : State :=
  if s.peerVer d ≠ 0 ∨ d = s.chip ∨ s.hellos.any (fun h => h.chip == d) then s
  else
    let s1 : State := { s with hellos := s.hellos ++ [{ chip := d }] }
    s1.sayHello d false

-- sequenced streams

def State.findTx (s : State) (c d vc : Nat) : Option TxStream :=
  s.tx.find? (fun t => t.ctx == c && t.dst == d && t.vc == vc)
def State.updTx (s : State) (c d vc : Nat) (g : TxStream → TxStream) : State :=
  { s with tx := s.tx.map (fun t => if t.ctx = c ∧ t.dst = d ∧ t.vc = vc then g t else t) }

/-- Outstanding slabs and reservations of a context, and of the block (R132). -/
def State.outstanding (s : State) (c : Nat) : Nat :=
  ((s.tx.filter (fun t => t.ctx == c)).map (fun t => t.unacked.length)).sum
def State.outstandingAll (s : State) : Nat := (s.tx.map (fun t => t.unacked.length)).sum

/-- May the head of a stream leave now: the context sends, the version is known, there is room, and no RESERVE is
unanswered before another (R117, R130, R132)? -/
def State.txMay (s : State) (t : TxStream) (f : Frame) : Bool :=
  s.rbit (win t.ctx + 0x500) 0 && s.peerVer t.dst != 0 && decide (s.outstanding t.ctx < s.reg (win t.ctx + 0x520))
    && decide (s.outstandingAll < 131072)
    && (fKind f != 3 || t.unacked.all (fun g => fKind g.f != 3))

/-- Count the rows of a slab that leaves, in its wire format, and the entries of a COUNT slab (R366 ops 6, 8 and 22). -/
def State.sentRows (s : State) (f : Frame) : State :=
  if fKind f = 1 then s.opCount 6 (wireFmt (fFmt f)) (fRows f)
  else if fKind f = 2 then s.opCount 8 (wireFmt (fFmt f)) (fRows f)
  else if fKind f = 5 ∧ fld (f.w 8) 1 0 < 2 then s.opCount 22 15 (fld (f.w 8) 28 16)
  else s

/-- Send the waiting slabs of one stream while they may leave. -/
def State.txGo (s : State) (c d vc : Nat) : Nat → State
  | 0 => s
  | k + 1 =>
    match s.findTx c d vc with
    | none => s
    | some t =>
      match t.waiting with
      | [] => s
      | o :: fs =>
        if s.txMay t o.f then
          let g := fSet o.f 6 t.next.toNat
          let s1 := s.updTx c d vc
            (fun t => { t with waiting := fs, unacked := t.unacked ++ [{ o with f := g }], next := t.next + 1 })
          ((s1.emit d vc (wireForm (s1.peerVer d) g)).sentRows g).txGo c d vc k
        else s

/-- Send what may leave on every stream, latency-critical contexts first (R132). -/
def State.txPump (s : State) : State :=
  let lc := s.tx.filter (fun t => s.rbit (kctx t.ctx) 1)
  let be := s.tx.filter (fun t => !s.rbit (kctx t.ctx) 1)
  (lc ++ be).foldl (fun s t => s.txGo t.ctx t.dst t.vc t.waiting.length) s

/-- Put slabs on a stream for a command, and send what may leave. -/
def State.txPush (s : State) (c d vc q : Nat) (idx : U32) (fs : List Frame) : State :=
  if fs.isEmpty then s
  else
    let os := fs.map (fun f => ({ q := q, idx := idx, f := f } : OutSlab))
    let s1 := s.hello d
    let s2 : State := match s1.findTx c d vc with
      | some _ => s1.updTx c d vc (fun t => { t with waiting := t.waiting ++ os })
      | none =>
        let t : TxStream := { ctx := c, dst := d, vc := vc, waiting := os }
        { s1 with tx := s1.tx ++ [t] }
    s2.txGo c d vc ((s2.findTx c d vc).elim 0 (fun t => t.waiting.length))

/-- Does a slab of a command's streams wait or stand unanswered? -/
def State.txBusy (s : State) (q : Nat) (idx : U32) : Bool :=
  s.tx.any (fun t => (t.waiting ++ t.unacked).any (fun o => o.q == q && o.idx == idx))

/-- The rerun of a command regenerates its streams (R128): its slabs that are not acknowledged yet leave again, RESEND set
(DEDUCED, log entry 62), and count again as sent (R367). -/
def State.repeatSlabs (s : State) (c q : Nat) (idx : U32) (gen xid : Nat) : State :=
  if !s.rbit (win c + 0x500) 0 then s
  else (s.tx.filter (fun t => t.ctx == c)).foldl (fun s t =>
    (t.unacked.filter (fun o => o.q == q && o.idx == idx && fGen o.f == gen && fXid o.f == xid && fKind o.f != 3)).foldl
      (fun s o => (s.emit t.dst t.vc (wireForm (s.peerVer t.dst) (fResend o.f))).sentRows o.f) s) s

/-- After progress, of a resend that was made from a SEQ: is it still unanswered (R117)? The argument is the oldest SEQ
that is not acknowledged. -/
def stillMade (first : Option Nat) (made : Option U32) : Option U32 :=
  made.filter (fun q => match first with
    | some f => decide (0 ≤ i32diff q.toNat f)
    | none => false)

/-- After progress, of a scheduled resend: it stays due, from the oldest SEQ that is not acknowledged where its own now is
(R117). -/
def stillDue (first : Option Nat) (due : Option U32) : Option U32 :=
  match first, due with
  | some f, some q => some (if i32diff q.toNat f < 0 then u32 f else q)
  | _, _ => none

-- unsequenced kinds

/-- Send a MARKER, counted as it leaves (R366 op 31), or hold it until the chip's version is known (R130). -/
def State.sendCtl (s : State) (d : Nat) (f : Frame) : State :=
  if s.peerVer d ≠ 0 then (s.emit d 0 (wireForm (s.peerVer d) f)).opCount 31 15 1
  else
    let s1 := s.hello d
    { s1 with net := { s1.net with held := s1.net.held ++ [(d, 0, f)] } }

/-- The marker of this chip's own counter, with its record (R374); an index beyond the counters is counted as check 8 of R114
counts it. -/
def State.markerHere (s : State) (c i mkind gen xid : Nat) : State :=
  if i < s.reg (win c + 0x108) then (s.trace 0x07 c 0 [s.chip, i, mkind, gen + xid * 2 ^ 16]).markerIn c i else s.ctxCount c 11 1

/-- Send one completion marker to each member; the local one counts at once (R12, R121, R122). A context whose
KCTX_FAB_CTL.EN is 0 sends none. -/
def State.markers (s : State) (c gen xid ctr mkind : Nat) : List Nat → State
  | [] => s
  | d :: ds =>
    let s1 := if d = s.chip then (s.markerHere c ctr mkind gen xid).opCount 31 15 1
      else if !s.rbit (win c + 0x500) 0 then s
      else s.sendCtl d (mkFrame (s.slabHdr 6 c d gen xid 0 0 0 [ctr + mkind * 2 ^ 20]))
    s1.markers c gen xid ctr mkind ds

/-- The version of a chip has become known: what waited for it leaves (R130). -/
def State.peerKnown (s : State) (d v : Nat) : State :=
  let s1 := s.setPeerVer d v
  let s2 : State := { s1 with hellos := s1.hellos.filter (fun h => h.chip != d) }
  let now := s2.net.held.filter (fun h => h.1 == d)
  let s3 : State := { s2 with net := { s2.net with held := s2.net.held.filter (fun h => h.1 != d) } }
  (now.foldl (fun s h => (s.emit d h.2.1 (wireForm v h.2.2)).opCount 31 15 1) s3).txPump

-- answers

/-- Send an answer to a chip. Where the chip's version is unknown HELLO goes first (R130); an answer is in no stream, and does
not wait for it (DEDUCED, log entry 59). -/
def State.answer (s : State) (d : Nat) (f : Frame) : State := (s.hello d).emit d 0 f

/-- An answer to a slab: CTX, KEY, GEN and the fields of word 3 copied, its reserved bits 0, the answering chip as
source (R108, R395). Of SESSION, ORD and XID R108 does not say what an answer carries: the model sends SESSION 0 and ORD
0 and copies XID (DESIGN CHOICE, log entry 59). -/
def State.answerFrame (s : State) (f : Frame) (kind ver seq w4 w8 w9 : Nat) : Frame :=
  mkFrame [ver + kind * 2 ^ 4 + fCtx f * 2 ^ 8 + s.chip * 2 ^ 12, fKey f, fGen f + fSrc f * 2 ^ 16, fld (f.w 3) 29 0, w4, 0, seq,
    fXid f * 2 ^ 16, w8, w9]

/-- Send an answer at once. -/
def State.reply (s : State) (f : Frame) (kind seq w4 w8 w9 : Nat) : State :=
  s.answer (fSrc f) (s.answerFrame f kind (if fVer f = 1 then 1 else 2) seq w4 w8 w9)

/-- The VC of a sequenced kind (R107). -/
def vcOf (kind : Nat) : Nat := match kind with
  | 1 => 1
  | 2 => 2
  | 3 => 4
  | 5 => 4
  | _ => 0

/-- Receive entry of a source chip and VC (R116): address, SESSION and expected SEQ. -/
def State.rxAddr (s : State) (c src vc : Nat) : Nat := s.rpair (win c + 0x510) + 32 * src + (if vc = 4 then 16 else 8 * (vc - 1))
def State.rxSess (s : State) (c src vc : Nat) : Nat := s.rd16 (s.rxAddr c src vc)
def State.rxNext (s : State) (c src vc : Nat) : Nat := s.rd32 (s.rxAddr c src vc + 4)

/-- The SEQ that the receiver of a slab expects on its stream: 0 in a session that is not the entry's, and where the
slab is of no stream or is a DP1 slab (R108 W9, R116). -/
def State.expects (s : State) (f : Frame) : Nat :=
  let vc := vcOf (fKind f)
  if fVer f = 1 ∨ vc = 0 ∨ s.rxSess (fCtx f) (fSrc f) vc ≠ fSession f then 0 else s.rxNext (fCtx f) (fSrc f) vc

/-- NACK a slab, with the SEQ expected as NEXT (R108, R114, R117). -/
def State.nack (s : State) (f : Frame) (reason : Nat) : State :=
  s.reply f 8 (fSeq f) 0 (vcOf (fKind f) + reason * 2 ^ 8) (s.expects f)

/-- Consume a slab: the expected SEQ advances, and a new session is taken over (R116). DP1 keeps no sequence. -/
def State.rxAdvance (s : State) (f : Frame) : State :=
  if fVer f = 1 then s
  else s.wr64 (s.rxAddr (fCtx f) (fSrc f) (vcOf (fKind f))) (fSession f + ((fSeq f + 1) % 2 ^ 32) * 2 ^ 32)

/-- Outcome of the SEQ check (R116). -/
inductive SeqRes where
  | inOrder | dup | gap (next : Nat)
  deriving DecidableEq, Repr

def State.seqCheck (s : State) (f : Frame) : SeqRes :=
  let vc := vcOf (fKind f)
  let e := s.rxNext (fCtx f) (fSrc f) vc
  if fVer f = 1 then .inOrder
  else if s.rxSess (fCtx f) (fSrc f) vc = fSession f then
    if fSeq f = e then .inOrder else if i32diff (fSeq f) e < 0 then .dup else .gap e
  else if fSeq f = 0 then .inOrder else .gap 0

/-- Is a tag retired in a context (R124)? -/
def State.retired (s : State) (c g : Nat) : Bool := decide (i16diff g (s.reg (win c + 0x508)) < 0)

/-- Acknowledge what was accepted on the stream of a slab, its writes visible (R115). -/
def State.ackNow (s : State) (f : Frame) : State :=
  let vc := vcOf (fKind f)
  s.reply f 7 (if fVer f = 1 then 0 else (s.rxNext (fCtx f) (fSrc f) vc + 2 ^ 32 - 1) % 2 ^ 32) 0 vc 0

/-- Landings of the stream of a slab whose writes are not yet visible, oldest first. -/
def State.landingsOf (s : State) (f : Frame) : List Landing :=
  s.landings.filter (fun l => l.ctx == fCtx f && (match l.ack with
    | some a => a.1 == fSrc f && fVer a.2 == 2 && fld (a.2.w 8) 2 0 == vcOf (fKind f)
    | none => false))

/-- Acknowledge a duplicate: up to the last slab whose writes are visible. The duplicate of a slab that is still landing is
answered when that landing is (R115; DEDUCED, log entry 59). -/
def State.ackDup (s : State) (f : Frame) : State :=
  match s.landingsOf f with
  | [] => s.ackNow f
  | l :: _ => if i32diff (fSeq f) l.seq.toNat < 0 then s.reply f 7 ((l.seq.toNat + 2 ^ 32 - 1) % 2 ^ 32) 0 (vcOf (fKind f)) 0 else s

end Sys2Proof.Machine
end

