-- ==== Sys2Proof/Machine/RingCtl.lean ====
section
/-! DEFINITION. Groups (R175 to R178) and the control frames of ring collectives: REPORT, DECIDE, the leader's decision
and the abort table (R193 to R199). -/
namespace Sys2Proof.Machine

/-- Torus extent of an axis (R175). -/
def State.torus (s : State) (ax : Nat) : Nat := s.rf 0x60004 (4 * ax + 3) (4 * ax) + 1

/-- Chip at coordinates, which wrap (R175). -/
def State.chipAt (s : State) (x y z : Nat) : Nat := x % s.torus 0 + 16 * (y % s.torus 1) + 256 * (z % s.torus 2)

/-- The axes of ORDER, fastest first (R176). -/
def axesOf (order : Nat) : List Nat :=
  [[0, 1, 2], [0, 2, 1], [1, 0, 2], [1, 2, 0], [2, 0, 1], [2, 1, 0]].getD order [0, 1, 2]

/-- The snake walk of a BOX group: origins, extents and strides by axis (R177). -/
def State.boxWalk (s : State) (order : Nat) (o n st : List Nat) : List Nat :=
  let ax := axesOf order
  let a0 := ax.getD 0 0
  let a1 := ax.getD 1 0
  let a2 := ax.getD 2 0
  let g (l : List Nat) (i : Nat) := l.getD i 0
  (List.range (g n a2)).flatMap (fun k => (List.range (g n a1)).flatMap (fun jj =>
    let j := if k % 2 = 1 then g n a1 - 1 - jj else jj
    (List.range (g n a0)).map (fun ii =>
      let i := if (k * g n a1 + jj) % 2 = 1 then g n a0 - 1 - ii else ii
      let c := [(a0, g o a0 + i * g st a0), (a1, g o a1 + j * g st a1), (a2, g o a2 + k * g st a2)]
      let co (a : Nat) := ((c.find? (fun p => p.1 == a)).map (fun p => p.2)).getD 0
      s.chipAt (co 0) (co 1) (co 2))))

/-- Are all entries distinct? -/
def distinct : List Nat → Bool
  | [] => true
  | x :: xs => !xs.contains x && distinct xs

/-- Word i of entry gid of the group table of context c (R176). -/
def State.groupWord (s : State) (c gid i : Nat) : Nat := s.rd32 (s.rpair (win c + 0x804) + 32 * gid + 4 * i)

/-- The three numbers of a group word from a bit on, 4 bits each. -/
def nibbles3 (w lo : Nat) : List Nat := [fld w (lo + 3) lo, fld w (lo + 7) (lo + 4), fld w (lo + 11) (lo + 8)]

/-- The members of group gid of context c in ring order, as far as its entry gives them: also of an entry that R178 refuses,
so that a REPORT finds its leader (R180, log entry 60). -/
def State.groupMembers (s : State) (c gid : Nat) : List Nat :=
  let w (i : Nat) : Nat := s.groupWord c gid i
  if s.reg (win c + 0x80C) ≤ gid then []
  else match fld (w 0) 1 0 with
    | 0 => s.boxWalk (fld (w 0) 4 2) (nibbles3 (w 1) 0) ((nibbles3 (w 1) 12).map (fun n => n + 1)) (nibbles3 (w 2) 0)
    | 1 =>
      let d := s.desc c (fld (w 2) 19 0)
      if s.hValid c (fld (w 2) 19 0) then
        (List.range (min (fld (w 1) 12 0) (min 4096 (d.len / 2)))).map (fun i => s.str16 d (2 * i))
      else []
    | _ => []

/-- The fault of R178 of a group's entry, if any; an MLIST that is no region or too short is E_OOB_DESC. -/
def State.groupFlt (s : State) (c gid : Nat) : Option Nat :=
  let w (i : Nat) : Nat := s.groupWord c gid i
  let ms := s.groupMembers c gid
  let tail := (List.range 5).all (fun i => w (3 + i) == 0)
  if s.reg (win c + 0x80C) ≤ gid ∨ !tail ∨ fld (w 0) 31 5 ≠ 0 then some 2
  else match fld (w 0) 1 0 with
    | 0 =>
      let st := nibbles3 (w 2) 0
      let big := (List.range 3).any (fun i =>
        decide (s.torus i / Nat.gcd (st.getD i 0) (s.torus i) < (nibbles3 (w 1) 12).getD i 0 + 1))
      if 5 < fld (w 0) 4 2 ∨ fld (w 1) 31 24 ≠ 0 ∨ fld (w 2) 31 12 ≠ 0 ∨ st.contains 0 ∨ big ∨ !ms.contains s.chip
      then some 2 else none
    | 1 =>
      let n := fld (w 1) 12 0
      let off := ms.any (fun m => decide (s.torus 0 ≤ m % 16) || decide (s.torus 1 ≤ m / 16 % 16)
        || decide (s.torus 2 ≤ m / 256))
      if fld (w 0) 4 2 ≠ 0 ∨ fld (w 1) 31 13 ≠ 0 ∨ fld (w 2) 31 20 ≠ 0 ∨ n = 0 ∨ 4096 < n then some 2
      else if ms.length < n then some 6
      else if !distinct ms ∨ off ∨ !ms.contains s.chip then some 2
      else none
    | _ => some 2

/-- The members of group gid of context c in ring order, and the fault of R178. -/
def State.groupOf (s : State) (c gid : Nat) : List Nat × Option Nat := (s.groupMembers c gid, s.groupFlt c gid)

/-- The members of a sound group, or the fault code of R178. -/
def State.group (s : State) (c gid : Nat) : Except Nat (List Nat) :=
  match s.groupOf c gid with
  | (ms, none) => .ok ms
  | (_, some e) => .error e

/-- A ring frame header (R198): FKIND, context, group, destination and the words that follow. -/
def State.ringHdr (s : State) (kind c gid dst att retry gseq w4 seq w7 size w9 nxt ofs : Nat) : List Nat :=
  [2 + kind * 2 ^ 4 + c * 2 ^ 8 + s.chip * 2 ^ 12 + b2n (s.rbit (win c + 0x700) 0) * 2 ^ 24, s.reg (win c + 0x504),
    gid + dst * 2 ^ 16 + att * 2 ^ 28 + retry * 2 ^ 30, gseq, w4, seq, s.rf (win c + 0x500) 31 16, w7, size, w9, nxt, ofs]

/-- Send a REPORT or DECIDE and keep it until a RACK (R199). -/
def State.sendRingCtl (s : State) (c gid : Nat) (gseq : U32) (dst : Nat) (f : Frame) : State :=
  let s1 : State := { s with ringCtl := s.ringCtl ++ [{ ctx := c, gid := gid, gseq := gseq, dst := dst, f := f }] }
  s1.emit dst 3 f

/-- Send DECIDE to every other member. -/
def State.sendDecides (s : State) (c gid : Nat) (gseq : U32) (att op code : Nat) (rerun : Bool) : List Nat → State
  | [] => s
  | d :: ds =>
    let s1 := if d = s.chip then s
      else s.sendRingCtl c gid gseq d
        (mkFrame (s.ringHdr 5 c gid d att 0 gseq.toNat op 0 0 0 (code + b2n rerun * 2 ^ 8) 0 0))
    s1.sendDecides c gid gseq att op code rerun ds

def State.findLead (s : State) (c gid : Nat) (gseq : U32) (att : Nat) : Option RingLead :=
  s.leads.find? (fun l => l.ctx == c && l.gid == gid && l.gseq == gseq && l.attempt == att)

/-- The leader takes a REPORT: the decision it makes, if it makes one now (R193, R195, R196). -/
def State.leaderTake (s : State) (c gid : Nat) (gseq : U32) (att retry op code src : Nat) :
    Option (Nat × Bool) × State :=
  let l := (s.findLead c gid gseq att).getD { ctx := c, gid := gid, gseq := gseq, attempt := att }
  let ms := s.groupMembers c gid
  if l.decided then (none, s)
  else
    let l1 : RingLead := if code = 0 then { l with done := if l.done.contains src then l.done else l.done ++ [src] } else l
    let dec := code ≠ 0 ∨ (s.groupFlt c gid = none ∧ ms.all (fun m => l1.done.contains m))
    let l2 : RingLead := { l1 with decided := decide dec }
    let others := s.leads.filter (fun x => !(x.ctx == c && x.gid == gid && x.gseq == gseq && x.attempt == att))
    let s1 : State := { s with leads := others ++ [l2] }
    if dec then
      let rerun := decide (code = 0x1B) && decide (att < retry)
      (some (code, rerun), s1.sendDecides c gid gseq att op code rerun ms.eraseDups)
    else (none, s1)

/-- A member reports to its leader for a collective of queue q (R193, R180, R197): the decision, where this chip is the leader
and now decides. -/
def State.ringReport (s : State) (c q gid : Nat) (gseq : U32) (att retry op code : Nat) (members : List Nat) :
    Option (Nat × Bool) × State :=
  let s0 := s.trace 0x08 c q [gid, gseq.toNat, 1, code]
  match members with
  | [] => (none, s0)
  | l :: _ =>
    if l = s.chip then s0.leaderTake c gid gseq att retry op code s.chip
    else (none, s0.sendRingCtl c gid gseq l (mkFrame (s.ringHdr 4 c gid l att retry gseq.toNat op 0 0 0 code 0 0)))

/-- Hold a DECIDE that matches no bound slot (R195). -/
def State.abortPut (s : State) (a : AbortEnt) : State :=
  if s.aborts.length < 256 then { s with aborts := s.aborts ++ [a] }
  else
    let s1 : State := { s with aborts := s.aborts.drop 1 ++ [a] }
    s1.setRf 0x60000 31 16 (min (s.rf 0x60000 31 16 + 1) 0xFFFF)

/-- Free a ring slot: its receive area returns (R181, R268). The last component of dropRefs logs a double free. -/
def State.ringFree (s : State) (slot : Nat) (r : RingSlot) : State :=
  let s1 : State := { s with rings := s.rings.filter (fun p => p.1 != slot) }
  (s1.dropRefs true [{ ctx := r.ctx, gen := 0, xid := 0, kind := .ring, handle := r.buf }]).2

end Sys2Proof.Machine
end

