-- ==== Sys2Proof/Machine/Teardown.lean ====
section
/-! DEFINITION. Retiring tags (R124, R125, R147), abandoning commands, teardown (R286, R288), the fault of a command
(R38, R350, R392), contained errors without a command, and fatal errors (R358, R359). -/
namespace Sys2Proof.Machine

-- fault codes (R362)
def eBadSeq : Nat := 0x01
def eBadField : Nat := 0x02
def ePriv : Nat := 0x03
def eNoUnit : Nat := 0x04
def eOobCounter : Nat := 0x05
def eOobDesc : Nat := 0x06
def eOverlap : Nat := 0x07
def eTimeout : Nat := 0x08
def eOrderSuspect : Nat := 0x09
def eTapStream : Nat := 0x0A
def eRowIncomplete : Nat := 0x0B
def eNoMap : Nat := 0x0C
def eStranger : Nat := 0x0D
def ePeerVersion : Nat := 0x0E
def eSlabRange : Nat := 0x0F
def eSlabFormat : Nat := 0x10
def eExchBroken : Nat := 0x11
def eExchMismatch : Nat := 0x12
def ePeerTeardown : Nat := 0x13
def ePoolEmpty : Nat := 0x14
def eDoubleFree : Nat := 0x15
def eRefSat : Nat := 0x16
def eRestoreStale : Nat := 0x17
def eFeedProto : Nat := 0x18
def eFeedTimeout : Nat := 0x19
def eMemDecode : Nat := 0x1A
def eUncorrectable : Nat := 0x1B
def eHostTeardown : Nat := 0x1C
def eFatal : Nat := 0x1D

/-- What a command fault reports (R350, R354). -/
structure Flt where
  code  : Nat
  unit  : Nat := 1
  check : Nat := 0
  lo    : Nat := 0
  hi    : Nat := 0
  peer  : Nat := 0
  inst  : Nat := 0
  array : Nat := 0
  deriving DecidableEq, Repr

/-- A fault with no more than its code, raised by a unit. -/
def flt (code unit : Nat) (check : Nat := 0) : Flt := { code := code, unit := unit, check := check }

/-- UNIT of the opcode that raises a fault (R52, R354). -/
def unitOf (op : Nat) : Nat :=
  match op with
  | 0x06 => 0x12 | 0x07 => 0x12
  | 0x10 => 0x03 | 0x11 => 0x03 | 0x12 => 0x03
  | 0x13 => 0x05 | 0x14 => 0x06 | 0x15 => 0x08
  | 0x20 => 0x08 | 0x21 => 0x0B | 0x22 => 0x08
  | 0x28 => 0x0A | 0x29 => 0x0A | 0x2A => 0x0B
  | 0x30 => 0x0D | 0x31 => 0x0D | 0x32 => 0x0D | 0x33 => 0x0D | 0x34 => 0x0D
  | 0x38 => 0x0C | 0x39 => 0x0C | 0x3A => 0x0C | 0x3B => 0x0C
  | 0x3C => 0x04 | 0x3D => 0x04
  | 0x40 => 0x11 | 0x41 => 0x11 | 0x42 => 0x11
  | 0x4A => 0x07 | 0x4B => 0x07 | 0x4C => 0x0E | 0x4D => 0x0E | 0x4E => 0x10
  | 0x50 => 0x16 | 0x51 => 0x16
  | _ => 0x01

-- feeds and Tap streams that end

/-- Send ABORT for a feed, once; a retirement takes over a kill's abort (R146, R147). -/
def State.feedAbort (s : State) (f : Feed) (why : AbortWhy) : State :=
  let s1 := s.updFeed f.id (fun g => { g with abort := some (if g.abort = some .kill ∨ g.abort = none then why
    else g.abort.getD why) })
  if f.abort.isSome then s1 else s1.feedMsg [4 + f.id * 2 ^ 16]

/-- End the run of a ROUTE: its rows are discarded, and on version 2 STOP ends its Tap stream (R56, R311). -/
def State.tapStop (s : State) (q : Nat) (idx : U32) : State :=
  match s.tapRuns.find? (fun t => t.q == q && t.idx == idx) with
  | none => s
  | some t =>
    let s1 : State := { s with tapRuns := s.tapRuns.filter (fun x => !(x.q == q && x.idx == idx)) }
    match t.stream with
    | some sid =>
      if s1.rf 0x10000 3 0 = 2 then
        { s1 with tap := { s1.tap with
            stops := if s1.tap.stops.contains sid then s1.tap.stops else s1.tap.stops ++ [sid]
            out := s1.tap.out ++ [[u32 (3 + 2 * 2 ^ 4 + sid * 2 ^ 16), 0, 0, 0]] } }
      else s1
    | none => s1

/-- ABORT_ACKs of feeds are missing: a contained error, and the feeds' Bay buffers are quarantined (R316). -/
def State.lostFeed (s : State) (late : List Feed) : State :=
  let r := s.logErr { cls := 2, sys := true, own := 16, code := eFeedTimeout, unit := 0x15, merged := s.rbit 0x1004 0 }
  let s1 := r.2.2.postSys 8 r.1 2
  (s1.refs.filter (fun x => x.kind == .bay && late.any (fun f => x.ctx == f.ctx && x.gen == f.gen && x.xid == f.xid && !f.gate))).foldl
    (fun s x =>
      let p := hPool x.handle.toNat
      let i := hIdx x.handle.toNat
      s.setBufWord p i (putFld (s.bufWord p i) 22 22 1)) s1

-- retirement

/-- Is an arming, reference or exchange of (gen, xid) under a feed whose abort is not acknowledged (R147)? -/
def State.feedHolds (s : State) (c gen xid : Nat) : Bool :=
  s.feeds.any (fun f => f.ctx == c && !f.gate && f.gen == gen && f.xid == xid && f.abort.isSome && !f.ended)

/-- Release the Bays that a tag armed: OWNER becomes host (R125). -/
def State.releaseBays (s : State) (p : ArmedBay → Bool) : State :=
  let s1 := (s.arms.filter p).foldl (fun s a =>
    let b := s.bcb a.ctx a.lslot
    s.wr32 b (putFld (s.rd32 b) 3 0 0)) s
  { s1 with arms := s1.arms.filter (fun a => !p a) }

/-- Drop the recorded references that p selects (R268); answers whether a double free was found. -/
def State.dropRefsIf (s : State) (td : Bool) (p : Ref → Bool) : Bool × State :=
  let r := s.dropRefs td (s.refs.filter p)
  (r.1, { r.2 with refs := r.2.refs.filter (fun x => !p x) })

/-- Tag of a command that names one (R124). -/
def Cmd.gen? (c : Cmd) : Option Nat :=
  match c.op with
  | 0x20 => some (fld (c.s 5) 15 0)
  | 0x15 => some (fld (c.s 4) 15 0)
  | 0x21 => some (fld (c.s 3) 15 0)
  | 0x2A => some (fld (c.s 5) 15 0)
  | 0x29 => if c.h 2 = 0 then none else some (fld (c.s 3) 15 0)
  | _ => none

/-- What retirement does to a started command of the tag: an exchange command commits without effect, a COMBINE stops
writing and commits as stale (R125, R158). A FEED_ARM whose feed is open, also one that was complete, awaits the array's
answer to the abort and then commits without effect (R147). -/
def retireCmd (open_ : Bool) (c : Cmd) : Cmd :=
  if c.op = 0x2A then
    { c with phase := .complete, ran := true, acts := [.count 7 1, .stick 0x600 8], recs := [] }
  else if c.op = 0x29 then (if open_ then { c with phase := .started, acts := [] } else c)
  else { c with phase := .complete, ran := true, noMark := true, acts := [], recs := [] }

/-- Apply retirement to the commands of one queue, scrambling what a stopped COMBINE wrote. -/
def State.retireQueue (s : State) (c q : Nat) : State :=
  if s.owner q ≠ c then s
  else
    let x := s.queue q
    let hit (y : Cmd) : Bool := y.live && (match y.gen? with
      | some g => s.retired c g
      | none => false)
    let fed (y : Cmd) : Bool := s.feeds.any (fun f => f.q == q && f.idx == y.idx && !f.ended)
    let outs := (x.cmds.filter (fun y => hit y && y.op == 0x2A)).flatMap (fun y => y.wrote)
    (s.setQueue q { x with cmds := x.cmds.map (fun y => if hit y then retireCmd (fed y) y else y) }).scramble outs

/-- Apply R125 and R147 in context c after its floor has risen; td: as part of a teardown. -/
def State.retireTags (s : State) (c : Nat) (td : Bool) : Bool × State :=
  let ret (g : Nat) : Bool := s.retired c g
  let s1 := (s.feeds.filter (fun f => f.ctx == c && !f.gate && !f.ended && ret f.gen)).foldl
    (fun s f => s.feedAbort f .retire) s
  let s2 := s1.releaseBays (fun a => a.ctx == c && ret a.gen && !s1.feedHolds c a.gen a.xid)
  let s3 : State := { s2 with
    exch := s2.exch.filter (fun e => !(e.ctx == c && ret e.gen))
    rets := s2.rets.filter (fun e => !(e.ctx == c && ret e.gen))
    fed := s2.fed.filter (fun e => !(e.1 == c && ret e.2.1))
    feeds := s2.feeds.filter (fun f => !(f.ctx == c && !f.gate && f.ended && ret f.gen))
    tx := s2.tx.map (fun t => if t.ctx = c then
      { t with waiting := t.waiting.filter (fun o => !(vcOf (fKind o.f) != 0 && ret (fGen o.f))) } else t) }
  let s4 := (List.range 64).foldl (fun s q => s.retireQueue c q) s3
  s4.dropRefsIf td (fun r => r.ctx == c && r.kind != .ring && ret r.gen && !s4.feedHolds c r.gen r.xid)

-- abandoning and teardown

/-- End one started command without commit: its outputs are undefined, its stream and feed end (R286 step 1). -/
def State.abandonCmd (s : State) (q : Nat) (c : Cmd) : State :=
  if !c.live then s
  else
    let s1 := (s.scramble c.wrote).tapStop q c.idx
    (s1.feeds.filter (fun f => f.q == q && f.idx == c.idx && !f.ended)).foldl (fun s f => s.feedAbort f .retire) s1

/-- What queues keep of killed feeds for a rerun (R146) is forgotten: no rerun comes. -/
def State.dropKept (s : State) (q : Nat) : State := { s with feeds := s.feeds.filter (fun f => !(f.q == q && f.ended)) }

/-- A queue stops: its commands are abandoned and STATE becomes 0b11 (R286, R392). They are remembered, for what their reads
still bring (R357). -/
def State.stopQueue (s : State) (q : Nat) : State :=
  let x := s.queue q
  let s1 := (x.cmds.foldl (fun s c => s.abandonCmd q c) s).dropKept q
  let s2 := s1.setQueue q { dec := x.dec, commGid := x.commGid, gone := x.gone ++ x.cmds.map (fun c => (c.idx, c.op)) }
  if s2.rbit (kq q + 0xC) 0 then (s2.setRf (kq q + 0x18) 1 0 3).setRbit (kq q + 0xC) 1 false else s2

/-- Report the end of the bound collectives that p selects, and free their slots (R197). One that has sent a fault code or
been given one has no more to report. -/
def State.endRings (s : State) (p : RingSlot → Bool) (code : Nat) : State :=
  (s.rings.filter (fun x => p x.2)).foldl (fun s x =>
    let r := x.2
    let s1 := if r.reported.getD 0 ≠ 0 ∨ r.decided.getD 0 ≠ 0 then s
      else (s.ringReport r.ctx r.q r.gid r.gseq r.attempt r.retry r.op code r.members).2
    s1.ringFree x.1 r) s

/-- Free the slots and bindings that p (by context, queue and index) selects (R286 step 4). -/
def State.freeBound (s : State) (c : Nat) (pq : Nat → Bool) : State :=
  { s with
    regions := s.regions.filter (fun r => !(r.ctx == c && pq r.q))
    regWait := s.regWait.filter (fun r => !(r.ctx == c && pq r.q))
    barriers := s.barriers.filter (fun b => !(b.ctx == c && pq b.q))
    digests := s.digests.filter (fun d => !(d.ctx == c && pq d.q))
    jobs := s.jobs.filter (fun j => !(j.ctx == c && pq j.q))
    rets := s.rets.filter (fun r => !(r.ctx == c && pq r.q)) }

/-- Event of context c, to its own queue and to queue 16. -/
def State.postBoth (s : State) (c : Nat) (rs : List EvRec) : State :=
  if c < 16 then (s.post c rs).post 16 rs else s.post 16 rs

/-- The last step of a teardown (R286 step 5). -/
def State.tdnFinish (s : State) (c : Nat) : State :=
  let s1 := (s.setRf (kctx c + 4) 1 0 3).setRbit (kctx c + 8) 0 false
  s1.postBoth c [⟨3, c, 0, false, s1.reg (win c + 0x508), s1.rf (kctx c + 4) 23 16⟩]

/-- Tear context c down with a first fault code (R286); it ends once no landing of c is in progress (R269). A job that a save
holds ends with the others (R71): its image holds nothing any more (DEDUCED, log entry 15). -/
def State.teardown (s : State) (c code : Nat) : State :=
  let s0 := ((s.setRf (kctx c + 4) 1 0 2).setRf (kctx c + 4) 23 16 code).setRbit (kctx c + 4) 2 false
  let s1 := (List.range 64).foldl (fun s q => if s.owner q = c then s.stopQueue q else s) s0
  let hi := s1.reg (win c + 0x50C)
  let up := fld hi 15 0 + 1
  let s2 := if bitOf hi 16 ∧ 0 < i16diff up (s1.reg (win c + 0x508))
    then (s1.setReg (win c + 0x508) (up % 2 ^ 16)) else s1
  let s3 := (s2.retireTags c true).2
  let s4 := s3.endRings (fun r => r.ctx == c) ePeerTeardown
  let s5 : State := { s4 with
    aborts := s4.aborts.filter (fun a => a.ctx != c)
    exch := s4.exch.filter (fun e => e.ctx != c)
    fed := s4.fed.filter (fun e => e.1 != c)
    tx := s4.tx.filter (fun t => t.ctx != c)
    saves := s4.saves.filter (fun v => v.ctx != c) }
  let s6 := (((s5.freeBound c (fun _ => true)).setRbit (kctx c + 0xC) 0 false).setRbit (kctx c + 0xC) 1 false).setRbit
    (kctx c + 4) 4 false
  let s7 := (s6.dropRefsIf true (fun r => r.ctx == c && r.kind != .ring && !s6.feedHolds c r.gen r.xid)).2
  let s8 := (s7.releaseBays (fun a => a.ctx == c && !s7.feedHolds c a.gen a.xid)).txPump
  if s8.landings.any (fun l => l.ctx == c) then s8 else s8.tdnFinish c

/-- A contained error of context c that no command raised (R349, R357): logged; it tears the context down where it
runs, and an ERROR packet reports one that no teardown reports (R354). -/
def State.ctxError (s : State) (c : Nat) (e : Err) : State :=
  let m := s.merging c
  let r := s.logErr { e with cls := 2, own := c, sys := c == 16, merged := m }
  let s1 := r.2.2
  if c < 16 ∧ s1.rf (kctx c + 4) 1 0 = 1 ∧ !s1.rbit 0x1004 0 then s1.teardown c e.code
  else if s1.reported c then s1 else s1.postCtx c 8 r.1 2

/-- Tag and exchange id of a command that names a tag. -/
def Cmd.tag? (c : Cmd) : Option (Nat × Nat) :=
  let x (i : Nat) : Nat := fld (c.s i) 23 16
  c.gen?.map (fun g => (g, match c.op with
    | 0x15 => x 4
    | 0x21 => x 3
    | 0x29 => x 3
    | _ => x 5))

/-- A fault in a command of a system queue: its commands are abandoned, and what they hold is freed: slots, bindings,
exchanges, slabs not yet sent, Bays and recorded references (R392). -/
def State.sysFault (s : State) (q : Nat) : State :=
  let tags := ((s.queue q).cmds.filter (fun c => c.live)).filterMap (fun c => c.tag?)
  let mine (g x : Nat) : Bool := tags.contains (g, x)
  let s1 := s.endRings (fun r => r.q == q) ePeerTeardown
  let s2 := (s1.stopQueue q).freeBound 16 (fun x => x == q)
  let s3 : State := { s2 with
    exch := s2.exch.filter (fun e => !(e.ctx == 16 && mine e.gen e.xid))
    fed := s2.fed.filter (fun e => !(e.1 == 16 && mine e.2.1 e.2.2))
    tx := s2.tx.map (fun t => { t with waiting := t.waiting.filter (fun o => o.q != q) }) }
  let s4 := (s3.dropRefsIf false (fun r => r.ctx == 16 && r.kind != .ring && mine r.gen r.xid && !s3.feedHolds 16 r.gen r.xid)).2
  s4.releaseBays (fun a => a.ctx == 16 && mine a.gen a.xid && !s4.feedHolds 16 a.gen a.xid)

/-- Pipe of the first block of a command or, in the separate form, of its job; or ring slot (R374). -/
def State.placeOf (s : State) (q : Nat) (c : Cmd) : Nat :=
  match s.regions.find? (fun r => if r.job then decide (0x11 ≤ c.op) && decide (c.op ≤ 0x14) && r.ctx == s.owner q
      else r.q == q && r.idx == c.idx) with
  | some r => r.pipe
  | none => match s.rings.find? (fun p => p.2.q == q && p.2.idx == c.idx) with
    | some p => p.1
    | none => 0

/-- Words 3 to 6 of a START, COMMIT, KILL or FAULT record. -/
def State.cmdRec (s : State) (q : Nat) (c : Cmd) : List Nat :=
  [c.idx.toNat, c.op + c.opId * 2 ^ 16, c.layer, s.placeOf q c]

/-- The command of queue q at this index faults (R38, R350, R354, R357, R392). -/
def State.fault (s : State) (q : Nat) (idx : U32) (op : Nat) (f0 : Flt) : State :=
  let own := s.owner q
  let f : Flt := { f0 with unit := unitOf op }
  let e : Err := { cls := 2, merged := s.merging own, own := own, q := q, sys := own == 16, code := f.code,
                   unit := f.unit, qidx := idx.toNat, array := f.array, check := f.check, lo := f.lo, hi := f.hi,
                   peer := f.peer, inst := f.inst }
  let r := s.logErr e
  let s1 := if r.2.2.rf (kq q + 0x18) 15 8 = 0
    then (r.2.2.setRf (kq q + 0x18) 15 8 f.code).setReg (kq q + 0x1C) idx.toNat else r.2.2
  let rec2 := f.unit + f.check * 2 ^ 8 + (if r.2.1 then r.1 % 2 ^ 16 else 0xFFFF) * 2 ^ 16
  let ev : List EvRec := [⟨2, own, q, own == 16, idx.toNat, f.code + op * 2 ^ 8⟩, ⟨2, own, q, own == 16, f.lo, rec2⟩]
  let s2 := ((s1.postBoth own ev).opCount 30 15 1).trace 0x04 own q
    (((s.findCmd q idx).map (fun c => s.cmdRec q c)).getD [idx.toNat, op, 0, 0] ++ [f.code])
  if own = 16 then s2.sysFault q
  else if s2.rf (kctx own + 4) 1 0 = 1 ∧ !s2.rbit 0x1004 0 then s2.teardown own f.code else s2

/-- A fatal error (R358, R359): logged as it is detected, so that the first-error record shows it and the ring slots as they
stand (R355). -/
def State.fatal (s : State) (e : Err) (needsys : Bool) : State :=
  let e1 : Err := { e with cls := 3, own := 16, sys := true, code := eFatal, needsys := needsys }
  if s.rbit 0x1004 0 then
    let r := (s.setRbit 0x1004 4 true).logErr e1
    { r.2.2.postSys 8 r.1 3 with fatalPin := true }
  else
    let r := (if needsys then s.setRbit 0x1004 2 true else s).logErr e1
    let s1 := r.2.2.setRbit 0x1004 0 true
    let s2 := (List.range 16).foldl (fun s c => if s.rf (kctx c + 4) 1 0 = 1 then s.teardown c eFatal else s) s1
    let s3 := (List.range 64).foldl (fun s q => if s.rbit (kq q + 0xC) 0 ∧ s.owner q = 16 then s.sysFault q else s) s2
    let s4 := s3.postSys 8 r.1 3
    if s4.rbit 0x1000 1 then { s4 with fatalPin := true } else s4

/-- A bound collective faults, in the name of its slot: the slot is freed after the error is logged, so that the
first-error snapshot shows it (R184). -/
def State.ringFault (s : State) (slot : Nat) (r : RingSlot) (f : Flt) : State :=
  let s1 := s.fault r.q r.idx (((s.findCmd r.q r.idx).map (fun c => c.op)).getD 0) f
  match s1.rings.find? (fun p => p.1 == slot && p.2.q == r.q && p.2.idx == r.idx) with
  | some p => s1.ringFree slot p.2
  | none => s1

end Sys2Proof.Machine
end

