-- ==== Sys2Proof/Machine/Keystone.lean ====
section
/-! DEFINITION. Placement maps (R91, R92), capacity (R79), replica choice (R89), and the Keystone sort with its outputs
(R82, R90, R99 to R101). -/
namespace Sys2Proof.Machine

/-- Block-wide layer slot of a context-relative one; none beyond the context's slot count (R91). -/
def State.layerSlot (s : State) (c l : Nat) : Option Nat :=
  if l < s.rf (0x30100 + 8 * c) 16 8 ∧ c < 16 then some (s.rf (0x30100 + 8 * c) 7 0 + l) else none

def State.mapEpoch (s : State) (slot : Nat) : Nat := s.reg (0x31000 + 8 * slot)
/-- KMAP_SLOT_STAT bits: LIVE 0, SHADOW 1, LOADING 2. -/
def State.mapStat (s : State) (slot i : Nat) : Bool := s.rbit (0x31004 + 8 * slot) i
def State.setMapStat (s : State) (slot i : Nat) (b : Bool) : State := s.setRbit (0x31004 + 8 * slot) i b
/-- Header line of a bank of a slot (R91). -/
def State.mapLine (s : State) (slot bank : Nat) : Nat := s.rpair 0x30000 + 256 * (2 * slot + bank)
/-- First entry of a bank of a slot (R91). -/
def State.mapEnts (s : State) (slot bank : Nat) : Nat := s.rpair 0x30000 + 0x20000 + 0x100000 * (2 * slot + bank)

/-- E, GROUP_SIZE and HASH_SEED of a stored map (R92). -/
def State.mapE (s : State) (slot bank : Nat) : Nat := fld (s.rd32 (s.mapLine slot bank)) 16 0
def State.mapN (s : State) (slot bank : Nat) : Nat := fld (s.rd32 (s.mapLine slot bank + 4)) 12 0
def State.mapSeed (s : State) (slot bank : Nat) : Nat := s.rd32 (s.mapLine slot bank + 8)
/-- Entry of expert j as a 128-bit number. -/
def State.mapEnt (s : State) (slot bank j : Nat) : Nat := s.rdLe (s.mapEnts slot bank + 16 * j) 16

/-- Ways that context c may use, and those that it pins; a saved context pins none (R98, R284). -/
def State.mapWays (s : State) (c : Nat) : Nat := s.rf (0x30104 + 8 * c) 15 0
def State.mapPins (s : State) (c : Nat) : Nat := if s.rbit (kctx c + 4) 4 then 0 else s.rf (0x30104 + 8 * c) 31 16

/-- One 256-byte read of the map store for context c (R280). -/
def State.mapRead (s : State) (c : Nat) : State := (s.acct c 8 256).energy c 4 1

/-- One lookup of a line by context c: with no way a store read; else a hit in its ways, or a miss that reads the line into
one of them that no other context pins (R98). -/
def State.mapLookup (s : State) (c slot bank line : Nat) : State :=
  let ws := (List.range 16).filter (fun w => bitOf (s.mapWays c) w)
  if s.mapLines.any (fun l => ws.contains l.way && l.slot == slot && l.bank == bank && l.line == line) then s
  else
    let s1 := s.mapRead c
    let vs := ws.filter (fun w => (List.range 16).all (fun k => k == c || !bitOf (s.mapPins k) w))
    if vs.isEmpty then s1
    else
      let l : MapLine := { way := vs.getD (Config.freePick s1.free % vs.length) 0, set := Config.freeSet slot bank line % 512
                           slot := slot, bank := bank, line := line }
      { s1 with mapLines := s1.mapLines.filter (fun x => !(x.way == l.way && x.set == l.set)) ++ [l], free := s1.free + 1 }

/-- Lookups of the header line and of the entries of some experts. -/
def State.mapLookups (s : State) (c slot bank : Nat) (js : List Nat) : State :=
  js.foldl (fun s j => s.mapLookup c slot bank (1 + j / 16)) (s.mapLookup c slot bank 0)

def entChip (e i : Nat) : Nat := fld e (24 * i + 11) (24 * i)
def entSlot (e i : Nat) : Nat := fld e (24 * i + 23) (24 * i + 12)
def entReps (e : Nat) : Nat := fld e 97 96 + 1
def entLive (e i : Nat) : Bool := bitOf e (98 + i)

/-- Capacity C (R79): the mode, CAP_ROWS and CAP_F of the route parameter block, T, N, K and E. -/
def capacity (mode rows f t n k e : Nat) : Nat :=
  if mode = 0 then rows
  else
    let d := 256 * 128 * e
    min 1048576 (max 128 (128 * ((f * t * n * k + d - 1) / d)))

/-- The hash of R89 on a seed, token and source chip. -/
def replHash (seed t chip : Nat) : Nat :=
  let m (x : U32) : U32 := x
  let h0 : U32 := (u32 seed ^^^ u32 t) * m 0x9E3779B1
  let h1 : U32 := (h0 ^^^ (h0 >>> 15)) ^^^ u32 chip
  let h2 : U32 := h1 * m 0x85EBCA77
  (h2 ^^^ (h2 >>> 13)).toNat

/-- The next live replica, cyclically from i (R89). -/
def nextLive (e nrep : Nat) : Nat → Nat → Option Nat
  | 0, _ => none
  | k + 1, i => if entLive e i then some i else nextLive e nrep k ((i + 1) % nrep)

/-- The replica of an assignment of token t on source chip s, or none with no live replica (R89, R90). -/
def replicaOf (seed repl e t chip : Nat) : Option Nat :=
  let n := entReps e
  let i := if repl = 0 then (replHash seed t chip / 2 ^ 16 * n) / 2 ^ 16 else 0
  nextLive e n n i

/-- The sort key (R99). -/
def KRec.key (r : KRec) : Nat := r.chip * 2 ^ 14 + r.lslot * 2 ^ 2 + r.repl

/-- The assignments of one sealed row (R89, R90). -/
def State.rowRecs (s : State) (slot bank seed repl t : Nat) (x : Sel) : List KRec :=
  if x.nan ∨ x.masked then []
  else (List.range x.ents.length).map (fun i =>
    let p := x.ents.getD i (0, 0)
    let e := s.mapEnt slot bank p.1
    match replicaOf seed repl e t s.chip with
    | some k => ⟨t, i, p.1, k, entChip e k, entSlot e k, p.2, false⟩
    | none => ⟨t, i, p.1, 0, 0, 0, p.2, true⟩)

/-- Sorted insertion without repeats. -/
def insKey (k : Nat) : List Nat → List Nat
  | [] => [k]
  | a :: l => if k < a then k :: a :: l else if k = a then a :: l else a :: insKey k l

/-- Each record with its rank among earlier records of its key (R82). -/
def rankAll (seen : List Nat) : List KRec → List (Nat × KRec)
  | [] => []
  | r :: rs => if r.nolive then (0, r) :: rankAll seen rs
    else ((seen.filter (fun k => k == r.key)).length, r) :: rankAll (r.key :: seen) rs

/-- A bucket with its kept records (R82, R99). -/
structure Bucket where
  key  : Nat
  recs : List KRec
  deriving DecidableEq, Repr, Inhabited

/-- The sorted result: buckets in key order, and the dropped records with their DROP_SRC mark (R99). -/
structure Sorted where
  buckets : List Bucket
  dropped : List (Bool × KRec)
  deriving DecidableEq, Repr, Inhabited

def sortRecs (c : Nat) (rs : List KRec) : Sorted :=
  let ranked := rankAll [] rs
  let kept := (ranked.filter (fun p => !p.2.nolive && decide (p.1 < c))).map (fun p => p.2)
  let keys := kept.foldl (fun l r => insKey r.key l) []
  { buckets := keys.map (fun k => ⟨k, kept.filter (fun r => r.key == k)⟩)
    dropped := (ranked.filter (fun p => p.2.nolive || decide (c ≤ p.1))).map (fun p => (!p.2.nolive, p.2)) }

/-- The 16 bytes of a route record as the sort writes it (R85, R90, R100). -/
def KRec.bytes (r : KRec) (self : Nat) (drop : Bool) : List Byte :=
  natLe 16 (r.token + r.kslot * 2 ^ 24 + b2n (!r.nolive && r.chip == self) * 2 ^ 27 + b2n drop * 2 ^ 28
    + b2n r.nolive * 2 ^ 30 + r.expert * 2 ^ 32 + r.repl * 2 ^ 48 + r.chip * 2 ^ 50 + r.lslot * 2 ^ 84
    + r.weight.toNat * 2 ^ 96)

-- DEST (R101)
def e64 (e : Nat) : Nat := 64 * ((e + 15) / 16)
def t64 (t : Nat) : Nat := 64 * ((t + 63) / 64)
def destEcnt : Nat := 0x10040
def destTstat (e : Nat) : Nat := 0x10040 + 2 * e64 e
def destBuckets (e t : Nat) : Nat := destTstat e + t64 t
/-- Extent DEST must have; the third argument: a multi-pass ROUTE (R101). -/
def destExtent (e t k : Nat) (multi : Bool) : Nat :=
  destBuckets e t + 16 * min (t * k) (4 * e) + (if multi then 16 * t * k else 0)

/-- The TSTAT byte of a row (R101). -/
def tstatOf (x : Sel) (keptAny : Bool) : Nat :=
  (if x.nan ∨ x.masked then 0 else x.ents.length) + b2n x.nan * 2 ^ 4 + b2n x.masked * 2 ^ 5 + b2n (!keptAny) * 2 ^ 6

/-- Words of the DEST header, bytes 0 to 47 (R101). -/
def destHdrBytes (asel akept adrop nokeep tnan nb nchip epoch cap t e layer : Nat) : List Byte :=
  wordsBytes [asel, akept, adrop, nokeep, tnan, nb, nchip, epoch, cap, t, e, layer, 0, 0, 0, 0]

/-- First record index of each bucket. -/
def firsts (n : Nat) : List Bucket → List Nat
  | [] => []
  | b :: bs => n :: firsts (n + b.recs.length) bs

/-- The chip table entry of chip d (R101). -/
def chipEntry (bs : List Bucket) (fs : List Nat) (d : Nat) : List Byte :=
  let ix := (List.range bs.length).filter (fun i => (bs.getD i default).key / 2 ^ 14 == d)
  match ix with
  | [] => natLe 16 0
  | i :: _ => wordsBytes [fs.getD i 0, (ix.map (fun j => (bs.getD j default).recs.length)).sum, i, ix.length]

/-- The writes of a sort into RREC and DEST, and the drops at origin (R99 to R101). -/
def sortWrites (self epoch cap t e layer : Nat) (rrec dest : Desc) (sels : List Sel) (o : Sorted) :
    List (Nat × List Byte) :=
  let kept := o.buckets.flatMap (fun b => b.recs)
  let fs := firsts 0 o.buckets
  let has (i : Nat) : Bool := kept.any (fun r => r.token == i)
  let recB := kept.flatMap (fun r => r.bytes self false) ++ o.dropped.flatMap (fun p => p.2.bytes self p.1)
  let chips := o.buckets.foldl (fun l b => insKey (b.key / 2 ^ 14) l) []
  let idx := List.range sels.length
  let nokeep := (idx.filter (fun i => !has i && !(sels.getD i {}).nan)).length
  let tnan := (sels.filter (fun x => x.nan)).length
  let cntOf (l : List KRec) (j : Nat) : Nat := (l.filter (fun r => r.expert == j)).length
  rrec.put 0 recB
    ++ dest.put 0 (destHdrBytes (kept.length + o.dropped.length) kept.length o.dropped.length nokeep tnan o.buckets.length
        chips.length epoch cap t e layer)
    ++ dest.put 0x40 ((List.range 4096).flatMap (chipEntry o.buckets fs))
    ++ dest.put destEcnt ((List.range e).flatMap (fun j => natLe 4 (cntOf kept j)))
    ++ dest.put (destEcnt + e64 e) ((List.range e).flatMap (fun j => natLe 4 (cntOf (o.dropped.map (fun p => p.2)) j)))
    ++ dest.put (destTstat e) (idx.flatMap (fun i => natLe 1 (tstatOf (sels.getD i {}) (has i))))
    ++ dest.put (destBuckets e t) ((List.range o.buckets.length).flatMap (fun i =>
        let b := o.buckets.getD i default
        let r := b.recs.getD 0 default
        wordsBytes [r.chip + r.lslot * 2 ^ 12 + r.repl * 2 ^ 24, r.expert, fs.getD i 0, b.recs.length]))

/-- Every assignment of the rows, in token order. -/
def State.allRecs (s : State) (slot bank repl : Nat) (sels : List Sel) : List KRec :=
  let seed := s.mapSeed slot bank
  (List.range sels.length).flatMap (fun t => s.rowRecs slot bank seed repl t (sels.getD t {}))

/-- Entries 0 to 3 of a DEST header as read by a consumer (R101). -/
structure DestHdr where
  asel : Nat
  akept : Nat
  nbucket : Nat
  epoch : Nat
  cap : Nat
  t : Nat
  e : Nat
  layer : Nat
  deriving DecidableEq, Repr

def State.destHdr (s : State) (d : Desc) : DestHdr :=
  ⟨s.str32 d 0, s.str32 d 4, s.str32 d 20, s.str32 d 28, s.str32 d 32, s.str32 d 36, s.str32 d 40, s.strLe d 44 1⟩

/-- Bucket entry b of a DEST: DCHIP, LSLOT, REPLICA, EXPERT, FIRST, COUNT (R101). -/
def State.bucketAt (s : State) (d : Desc) (h : DestHdr) (b : Nat) : Nat × Nat × Nat × Nat × Nat × Nat :=
  let o := destBuckets h.e h.t + 16 * b
  let w := s.str32 d o
  (fld w 11 0, fld w 23 12, fld w 25 24, fld (s.str32 d (o + 4)) 15 0, s.str32 d (o + 8), s.str32 d (o + 12))

end Sys2Proof.Machine
end

