-- ==== Sys2Proof/Machine/Operands.lean ====
section
/-! DEFINITION. The operands of every opcode: the bits its slots define (R8, R52), the slots that may be indirect (R39),
the fields that must hold within the slots (R51 check 5), the counters and handles it names (checks 6 and 7), privilege
and kill class (R52), and the checks of a command at its decode in the order of R51. -/
namespace Sys2Proof.Machine

/-- Is an opcode in the table of R52? -/
def opOk (op : Nat) : Bool :=
  decide (op ≤ 0x07) || (decide (0x10 ≤ op) && decide (op ≤ 0x15)) || (decide (0x20 ≤ op) && decide (op ≤ 0x22))
    || (decide (0x28 ≤ op) && decide (op ≤ 0x2A)) || (decide (0x30 ≤ op) && decide (op ≤ 0x34))
    || (decide (0x38 ≤ op) && decide (op ≤ 0x3D)) || (decide (0x40 ≤ op) && decide (op ≤ 0x42))
    || (decide (0x48 ≤ op) && decide (op ≤ 0x4E)) || op == 0x50 || op == 0x51

/-- The bits of S0 to S7 that an opcode defines; the others are reserved. -/
def slotMask (op : Nat) : List Nat :=
  let w := 0xFFFFFFFF
  let h := 0xFFFFF
  match op with
  | 0x01 => [w]
  | 0x02 => [0x3FFFFF, w, 0x3FFFFF, w, 0x3FFFFF, w]
  | 0x03 => [3]
  | 0x04 => [h, 0xFF07, w]
  | 0x05 => [0x1FFF, h, 0xFFFFFF, 0x3FF, w]
  | 0x06 => [w, 1]
  | 0x07 => [0x1FFFF, 0x3FF]
  | 0x10 => [w, 0x3FFFFF, h, h, 0x3FFFFF, h, 0xFFFF]
  | 0x11 => [w, 0x3FFFFF, 0xFF, 0x1FFFF, 0x1FFFF, h, h]
  | 0x12 => [0xFF, 0x1FFFFF, h]
  | 0x13 => [0xFF, 0x1FFFFF]
  | 0x14 => [0xFF, h, h]
  | 0x15 => [w, h, h, h, 0xFFFFFF, h]
  | 0x20 => [w, h, h, h, h, 0x7FFFFFF]
  | 0x21 => [w, h, h, 0xFFFFFF]
  | 0x22 => [0x1FFFF, w]
  | 0x28 => [w, h, h, 1, h, h, h, w]
  | 0x29 => [w, h, h, 0xFFFFFF, w]
  | 0x2A => [w, h, h, h, h, 0xFFFFFF, 0x3FFFFF, w]
  | 0x30 => [w, h, h, 0x3FFF, w, 0xFF]
  | 0x31 => [w, h, h, h]
  | 0x32 => [w, h, h, h]
  | 0x33 => [w, h, h, h]
  | 0x34 => [w, h, h, h]
  | 0x38 => [w, 0x3FFFF, w, h, h, w, h, h]
  | 0x39 => [w, 0x3FFFF, w, h, h, w, h, h]
  | 0x3A => [w, 0x3FFFF, w, h, h, w, h, h]
  | 0x3B => [w, 0x3FFFF, w, h, h, w, h, h]
  | 0x3C => [w, h]
  | 0x3D => [0x1FFFF, 7, 0xFFFF, w, w, w, h]
  | 0x40 => [w, h]
  | 0x41 => [w, h, h, h, w, 0x1FFFF]
  | 0x42 => [w, 3, h, h]
  | 0x48 => [h, w, 0xFFFF]
  | 0x49 => [h, 0x1FFFF]
  | 0x4A => [w, 0xFF, h]
  | 0x4B => [0x1FFFF, 7]
  | 0x4C => [w, 3, 0x7FFF, h]
  | 0x4D => [w, h, h, 0xFF]
  | 0x4E => [0x1FFFFF, 0x11F07, w, 0xFFFF, w, 0xFFFF, 0x1FFFF]
  | 0x50 => [7, 3, h, h, h, h, h, h]
  | 0x51 => [7, 3, h, h, h, h, h, h]
  | _ => []

/-- The slots that may be indirect, as a mask: those the layouts mark so (R39). -/
def indMask (op : Nat) : Nat :=
  match op with
  | 0x10 => 1 | 0x11 => 0x11 | 0x15 => 1 | 0x20 => 1 | 0x21 => 1
  | 0x28 => 0x81 | 0x29 => 1 | 0x2A => 1
  | 0x30 => 1 | 0x31 => 1 | 0x32 => 1 | 0x33 => 1 | 0x34 => 1
  | 0x38 => 0x21 | 0x39 => 0x21 | 0x3A => 0x21 | 0x3B => 0x21 | 0x3C => 1
  | 0x40 => 1 | 0x41 => 0x11 | 0x42 => 1 | 0x4A => 1 | 0x4C => 1 | 0x4D => 1 | 0x50 => 1 | 0x51 => 1
  | _ => 0

/-- Privileged opcodes (R52); a PUBLISH with FU set is one (R244). -/
def Cmd.priv (c : Cmd) : Bool := c.op == 0x07 || c.op == 0x4C || c.op == 0x4E || (c.op == 0x4B && bitOf (c.s 1) 2)

/-- Kinds a SKIP_IF window must not contain (R44). -/
def skipBad (op : Nat) (quiet : Bool) : Bool :=
  [0x10, 0x11, 0x12, 0x13, 0x14, 0x15, 0x05, 0x38, 0x39, 0x3A, 0x3B, 0x3D].contains op
    || (quiet && (op == 0x20 || op == 0x21))

/-- Handles that a command names directly, with whether each is required (R208); 0 in an optional one names nothing. -/
def Cmd.handles (c : Cmd) : List (Nat × Bool) :=
  let r (i : Nat) : Nat × Bool := (c.h i, true)
  let o (i : Nat) : Nat × Bool := (c.h i, false)
  let on (b : Bool) (l : List (Nat × Bool)) : List (Nat × Bool) := if b then l else []
  match c.op with
  | 0x05 => [r 1]
  | 0x10 => [r 1] ++ on (fld (c.s 1) 21 20 != 1) [r 2, r 3] ++ on (fld (c.s 4) 21 20 != 0) [r 4]
              ++ on (fld (c.s 1) 21 20 != 0) [r 5]
  | 0x11 => [r 1, r 5] ++ on (fld (c.s 1) 21 20 == 2) [r 6]
  | 0x12 => on (bitOf (c.s 1) 20) [r 1] ++ [o 2]
  | 0x13 => on (bitOf (c.s 1) 20) [r 1]
  | 0x14 => [r 1, r 2]
  | 0x15 => [r 1, r 2, r 3, r 5]
  | 0x20 => [r 1, r 2, r 3, r 4]
  | 0x21 => [r 1, r 2]
  | 0x28 => [r 1, r 2] ++ on (bitOf (c.s 3) 0) [r 4, r 5, r 6]
  | 0x29 => [r 1, o 2]
  | 0x2A => [r 1, r 2, r 3, r 4]
  | 0x30 => [r 1, r 2]
  | 0x31 => [r 1, r 2, r 3]
  | 0x32 => [r 1, r 2, r 3]
  | 0x33 => [r 1, r 2, r 3]
  | 0x34 => [r 1, r 2, r 3]
  | 0x38 => [r 3, r 4]
  | 0x39 => [r 3, r 4, r 7]
  | 0x3A => [r 3, r 4, r 7]
  | 0x3B => [r 3, r 4, r 6, r 7]
  | 0x3C => [r 1]
  | 0x3D => [r 6]
  | 0x40 => [r 1]
  | 0x41 => on (!bitOf (c.s 5) 16) [r 1, o 2, o 3]
  | 0x42 => on (fld (c.s 1) 1 0 == 1) [r 2] ++ [r 3]
  | 0x4A => [r 2]
  | 0x4C => [r 3]
  | 0x4D => [r 1, r 2]
  | 0x50 => if c.ind 0 ∧ c.slots = [] then (List.range 6).map (fun i => o (2 + i))
            else (List.range (c.s 0)).map (fun i => r (2 + i))
  | 0x51 => [r 2] ++ (if c.ind 0 ∧ c.slots = [] then (List.range 5).map (fun i => o (3 + i))
              else (List.range (c.s 0)).map (fun i => r (3 + i)))
  | _ => []

/-- Handles in the indirect slots (R39). -/
def Cmd.indHandles (c : Cmd) : List Nat :=
  ((List.range 8).filter (fun i => c.ind i)).map (fun i => fld (c.w (8 + i)) 19 0)

/-- Is a list of four two-bit fields a permutation of 0 to 3? -/
def permOk (p : Nat) : Bool := distinct ((List.range 4).map (fun k => fld p (2 * k + 1) (2 * k)))

/-- Function codes that are rejected (R234). -/
def fuCodeBad (f : Nat) : Bool := (decide (0x0C ≤ f) && decide (f ≤ 0x0F)) || decide (0x40 ≤ f)

/-- The conditions that a layout places on its slot fields alone (R51 check 5); a slot that is not known yet is passed
over, and is checked when its value has been read (R39). -/
def fieldsOk (pipes : Nat) (sys : Bool) (c : Cmd) (known : Nat → Bool) : Bool :=
  let le (i n : Nat) : Bool := !known i || decide (c.s i ≤ n)
  let rng (i lo hi : Nat) : Bool := !known i || (decide (lo ≤ c.s i) && decide (c.s i ≤ hi))
  let zero (i : Nat) : Bool := !known i || c.s i == 0
  let tmax := 16777216
  let usMax := 60000000
  match c.op with
  | 0x01 => le 0 usMax
  | 0x02 => [0, 2, 4].all (fun i => decide (fld (c.s i) 21 20 ≠ 3)
              && (fld (c.s i) 21 20 != 0 || (fld (c.s i) 19 0 == 0 && c.s (i + 1) == 0)))
  | 0x03 => le 0 1
  | 0x04 => fld (c.s 1) 15 8 != 0
  | 0x05 => rng 0 1 4096 && le 3 1000 && le 4 usMax
  | 0x07 => decide (fld (c.s 0) 15 0 ≤ 0xFFFD) && le 1 1000
  | 0x10 =>
    let st := fld (c.s 1) 21 20
    let lm := fld (c.s 4) 21 20
    le 0 tmax && st != 3 && lm != 3 && (st != 1 || (c.s 2 == 0 && c.s 3 == 0)) && (lm != 0 || c.h 4 == 0)
      && (lm != 2 || c.s 6 == 0) && (st != 2 || lm == 2) && (st != 0 || c.s 5 == 0)
  | 0x11 =>
    let st := fld (c.s 1) 21 20
    le 0 (65536 * pipes) && st != 3 && rng 4 1 65536
      && (st == 2 || c.s 6 == 0)
  | 0x12 => bitOf (c.s 1) 20 || c.h 1 == 0
  | 0x13 => bitOf (c.s 1) 20 || c.h 1 == 0
  | 0x15 => le 0 tmax
  | 0x20 => le 0 tmax && decide (fld (c.s 5) 26 24 ≤ 5)
  | 0x21 => le 0 4096
  | 0x22 => (!bitOf (c.s 0) 16 || fld (c.s 0) 15 0 == 0) && le 1 usMax
  | 0x28 =>
    if bitOf (c.s 3) 0 then rng 0 2 256 && le 7 tmax
    else rng 0 1 4096 && c.s 4 == 0 && c.s 5 == 0 && c.s 6 == 0 && zero 7
  | 0x2A =>
    le 0 tmax && fld (c.s 6) 21 20 != 3 && (fld (c.s 6) 21 20 != 0 || (fld (c.s 6) 19 0 == 0 && c.s 7 == 0))
  | 0x30 => permOk (fld (c.s 3) 7 0) && !fuCodeBad (c.s 5)
  | 0x31 => le 0 tmax
  | 0x32 => le 0 tmax
  | 0x33 => le 0 tmax
  | 0x34 => le 0 tmax
  | 0x38 => zero 5 && c.s 6 == 0 && c.s 7 == 0
  | 0x39 => rng 5 1 tmax && c.s 6 == 0
  | 0x3A => rng 5 1 tmax && fld (c.s 6) 19 16 == 0
  | 0x3B => rng 5 1 tmax
  | 0x3C => le 0 tmax
  | 0x3D =>
    let m := fld (c.s 1) 1 0
    let solo := bitOf (c.s 1) 2 || m == 2
    let pos (x inf : Nat) : Bool := decide (0 < x) && decide (x ≤ inf)
    decide (1 ≤ fld (c.s 0) 16 8) && decide (fld (c.s 0) 16 8 ≤ 256) && m != 3
      && (!solo || (c.s 2 == 0 && c.s 3 == 0))
      && (if m = 2 then c.s 4 == 0 && c.s 5 == 0 else pos (c.s 4) 0x7F7FFFFF && pos (c.s 5) 0x7F800000)
  | 0x40 => rng 0 1 4096
  | 0x41 =>
    le 0 tmax && (!(known 0 && known 4) || decide (c.s 4 ≤ c.s 0))
      && (!bitOf (c.s 5) 16 || (c.s 1 == 0 && c.s 2 == 0 && c.s 3 == 0))
  | 0x42 =>
    let m := fld (c.s 1) 1 0
    m != 3 && (if m = 1 then rng 0 1 4096 else zero 0 && c.s 2 == 0)
  | 0x48 => fld (c.s 1) 5 0 == 0
  | 0x49 => rng 1 1 65536
  | 0x4A => rng 0 1 65536
  | 0x4B =>
    let n := fld (c.s 0) 16 8
    decide (1 ≤ n) && decide (n ≤ 256) && c.s 1 != 0
      && (if bitOf (c.s 1) 2 then c.s 1 == 4 && c.s 0 == 0x100 else !sys)
  | 0x4C =>
    let f := c.s 2
    if bitOf (c.s 1) 0 then rng 0 1 32768 && (!known 0 || decide (f + c.s 0 ≤ 32768))
    else rng 0 1 63 && decide (1 ≤ f) && decide (f ≤ 0x3F)
      && (!known 0 || (decide (f + c.s 0 ≤ 0x40) && (decide (f + c.s 0 ≤ 0x0C) || decide (0x10 ≤ f))))
  | 0x4D => c.s 3 != 0 && !fuCodeBad (c.s 3)
  | 0x4E =>
    le 0 1048576 && decide (12 ≤ fld (c.s 1) 12 8) && decide (fld (c.s 1) 12 8 ≤ 28) && fld (c.s 2) 11 0 == 0
      && fld (c.s 4) 11 0 == 0
      && decide (c.s 2 + 2 ^ 32 * c.s 3 + c.s 0 * 2 ^ fld (c.s 1) 12 8 ≤ 2 ^ 48)
      && decide (c.s 4 + 2 ^ 32 * c.s 5 + 8 * c.s 0 ≤ 2 ^ 48)
  | 0x50 => le 0 6 && (!known 0 || (List.range 6).all (fun i => decide (i < c.s 0) || c.s (2 + i) == 0))
  | 0x51 => le 0 5 && (!known 0 || (List.range 5).all (fun i => decide (i < c.s 0) || c.s (3 + i) == 0))
  | _ => true

/-- Header encodings (R27): reserved flags and bits, rejected operations, and nonzero fields under NONE. -/
def Cmd.headerOk (c : Cmd) : Bool :=
  let wait (a b : Nat) (top : Nat) : Bool :=
    let op := fld a 21 20
    op != 3 && fld a top 22 == 0 && (op != 0 || (fld a 19 0 == 0 && b == 0))
  fld (c.w 0) 15 11 == 0 && wait (c.w 2) (c.w 3) 23 && wait (c.w 4) (c.w 5) 31 && wait (c.w 6) (c.w 7) 31

/-- Check 5 of R51. -/
def Cmd.check5 (pipes : Nat) (sys : Bool) (c : Cmd) (bad : Bool) : Bool :=
  let m := slotMask c.op
  let resOk := (List.range 8).all (fun i => c.ind i || (c.s i &&& (0xFFFFFFFF - m.getD i 0)) == 0)
  let indOk := (List.range 8).all (fun i => !c.ind i || bitOf (indMask c.op) i)
  c.headerOk && resOk && indOk && fieldsOk pipes sys c (fun i => !c.ind i) && !bad

/-- The counters that check 6 looks at. -/
def Cmd.counters (c : Cmd) : List Nat :=
  let hdr (i : Nat) : List Nat := if fld (c.w i) 21 20 = 0 then [] else [fld (c.w i) 19 0]
  let slot (i : Nat) : List Nat := if fld (c.s i) 21 20 = 0 then [] else [fld (c.s i) 19 0]
  hdr 2 ++ hdr 4 ++ hdr 6 ++ (match c.op with
    | 0x02 => slot 0 ++ slot 2 ++ slot 4
    | 0x04 => [c.s 0]
    | 0x2A => slot 6
    | _ => [])

/-- Route pipes present (KCAP0.PIPES). -/
def Part.pipes (p : Part) : List Nat :=
  (List.range (match p.variant with
    | 0 => 4
    | 1 => 2
    | _ => 1)).filter (fun i => !bitOf p.disPipe i)
/-- Enabled FU cores (R231). -/
def Part.cores (p : Part) : Nat :=
  let g := if p.variant = 0 then 4 else 2
  8 * ((List.range g).filter (fun i => !bitOf p.disFu i)).length
def Part.piers (p : Part) : List Nat := (List.range 4).filter (fun i => p.pier i)
def Part.trestle (p : Part) : Bool := decide (p.variant ≤ 1) && !p.disTrestle
def Part.ledger (p : Part) : Bool := p.variant == 0 && !p.disLedger
def Part.digest (p : Part) : Bool := p.variant == 0 && !p.disDigest

/-- Is the command aimed at an absent unit (R3), or, from a context, at the ports that PORTS = 0 leaves it without? -/
def absentUnit (p : Part) (c : Cmd) : Bool :=
  let op := c.op
  (!p.trestle && ((decide (0x38 ≤ op) && decide (op ≤ 0x3B)) || (op == 0x3D && !bitOf (c.s 1) 2)))
    || (!p.ledger && decide (0x40 ≤ op) && decide (op ≤ 0x42)) || (!p.digest && (op == 0x50 || op == 0x51))
    || (op == 0x05 && decide (1 < fld (c.s 0) 12 0) && (List.range 4).all (fun i => !p.pier i))
    || (p.pipes.isEmpty && decide (0x10 ≤ op) && decide (op ≤ 0x14))
    || (p.cores == 0 && (op == 0x4C || op == 0x4D || (op == 0x30 && c.s 5 != 0) || (op == 0x4B && bitOf (c.s 1) 2)))

/-- Verdict of a handle at decode (R51 check 7, R215): bound, refused, of a rejected code, or to be checked later. -/
inductive HRes where
  | ok | oob | badCode | defer
  deriving DecidableEq, Repr

/-- Check one handle for a command of queue q at its decode; earlier: the uncommitted commands before it. -/
def State.handleCheck (s : State) (own : Nat) (earlier : List Cmd) (h : Nat) : HRes :=
  if earlier.any (fun c => c.op == 0x48 && c.skip == .run && c.h 0 == h && h != 0) then .defer
  else if !s.hValid own h ∨ s.retiring own h then .oob
  else
    let d := s.desc own h
    if 0xC < d.fmt ∨ 3 < d.layout then .badCode else .ok

end Sys2Proof.Machine
end

