-- ==== Sys2Proof/Machine/Truss.lean ====
section
/-! DEFINITION. The Truss: the route parameter block and its checks (R61, R62, R78, R81), scoring of a row (R63, R64),
selection (R65, R66), sealing and weights (R68, R69), and the records of R67 and R74. -/
namespace Sys2Proof.Machine

/-- The route parameter block (R61, R78). -/
structure Rpb where
  w : List Nat
  deriving DecidableEq, Repr

def Rpb.word (r : Rpb) (i : Nat) : Nat := r.w.getD i 0
def Rpb.e (r : Rpb) : Nat := fld (r.word 0) 16 0
def Rpb.k (r : Rpb) : Nat := fld (r.word 0) 23 20
/-- 0 FULL, 1 SELK, 2 SIGMOID, 3 NONE. -/
def Rpb.fn (r : Rpb) : Nat := fld (r.word 0) 25 24
def Rpb.norm (r : Rpb) : Bool := bitOf (r.word 0) 26
def Rpb.biasEn (r : Rpb) : Bool := bitOf (r.word 0) 27
def Rpb.inFmt (r : Rpb) : Nat := fld (r.word 1) 1 0
def Rpb.storeFmt (r : Rpb) : Nat := fld (r.word 1) 3 2
def Rpb.layer (r : Rpb) : Nat := fld (r.word 1) 15 8
def Rpb.g (r : Rpb) : Nat := fld (r.word 2) 8 0
def Rpb.gk (r : Rpb) : Nat := fld (r.word 2) 15 12
def Rpb.top2 (r : Rpb) : Bool := bitOf (r.word 2) 16
def Rpb.mulgw (r : Rpb) : Bool := bitOf (r.word 2) 17
def Rpb.capMode (r : Rpb) : Nat := fld (r.word 8) 1 0
def Rpb.repl (r : Rpb) : Nat := fld (r.word 8) 3 2
def Rpb.capRows (r : Rpb) : Nat := r.word 9
def Rpb.capF (r : Rpb) : Nat := fld (r.word 10) 15 0

/-- The block a handle names, read once at start. -/
def State.readRpb (s : State) (own h : Nat) : Rpb :=
  let d := s.desc own h
  ⟨(List.range 16).map (fun i => s.str32 d (4 * i))⟩

/-- FMT code of IN_FMT and STORE_FMT: 0 FP32, 1 BF16, 2 FP16. -/
def logitFmt (f : Nat) : Nat := match f with
  | 0 => 2
  | 1 => 0
  | _ => 1

/-- Columns of a row, E′ (R65). -/
def Rpb.cols (r : Rpb) (stage : Nat) : Nat :=
  match stage with
  | 0 => r.e
  | 1 => r.g
  | _ => r.gk * (r.e / r.g)

/-- Orders 1 to 8 of R62: the fault, if one fails. Order 7 raises E_TAP_STREAM, as R55 and R362 say (log entry 32). -/
def Rpb.check (r : Rpb) (stage : Nat) (tapV1 cmb : Bool) : Option Flt :=
  let bad (i : Nat) := some (flt eBadField 3 i)
  let eg := r.e / r.g
  let words1 := decide (1 ≤ r.e) && decide (r.e ≤ 65536) && fld (r.word 0) 19 17 == 0 && decide (1 ≤ r.k) && decide (r.k ≤ 8)
    && (!r.norm || decide (2 ≤ r.fn)) && fld (r.word 0) 31 28 == 0 && r.inFmt != 3 && r.storeFmt != 3
    && fld (r.word 1) 7 4 == 0 && fld (r.word 1) 31 16 == 0 && r.g != 1 && decide (r.g ≤ 256) && fld (r.word 2) 11 9 == 0
    && (if r.g = 0 then r.gk == 0 else decide (1 ≤ r.gk) && decide (r.gk ≤ 8)) && fld (r.word 2) 31 18 == 0
    && (List.range 5).all (fun i => r.word (3 + i) == 0)
  let kmax := if stage = 1 then 8 else if r.g = 0 then r.e else eg * r.gk
  if !words1 then bad 1
  else if decide (2 ≤ r.g) && (r.e % r.g != 0 || decide (r.g < r.gk) || (r.top2 && decide (eg < 2))) then bad 2
  else if stage = 0 ∧ 2 ≤ r.g ∧ 512 < r.e then bad 3
  else if stage ≠ 0 ∧ r.g = 0 then bad 4
  else if kmax < r.k then bad 5
  else if r.mulgw ∧ stage ≠ 2 then bad 6
  else if tapV1 ∧ r.inFmt ≠ 0 then some (flt eTapStream 3 7)
  else if r.biasEn ∧ stage ≠ 1 ∧ !cmb then some (flt eNoMap 3 8)
  else none

/-- Steps 1 to 3 of R81, at start of ROUTE and ADMIT; a stage-1 ROUTE skips steps 2 and 3. -/
def State.admitCheck (s : State) (own : Nat) (r : Rpb) (stage1 : Bool) : Option Flt :=
  let capOk := if r.capMode = 0
    then r.capRows % 128 == 0 && decide (128 ≤ r.capRows) && decide (r.capRows ≤ 1048576) && r.word 10 == 0
    else r.capRows == 0 && decide (1 ≤ r.capF)
  if 1 < r.capMode ∨ 1 < r.repl ∨ fld (r.word 8) 31 4 ≠ 0 ∨ fld (r.word 10) 31 16 ≠ 0 ∨ !capOk
      ∨ (List.range 5).any (fun i => r.word (11 + i) != 0) then some (flt eBadField 5 1)
  else if stage1 then none
  else
    match s.layerSlot own r.layer with
    | none => some (flt eNoMap 5 2)
    | some sl =>
      if !s.mapStat sl 0 then some (flt eNoMap 5 2)
      else if s.mapE sl (s.mapEpoch sl % 2) ≠ r.e then some (flt eBadField 5 3)
      else none

/-- Capacity under a route parameter block, for T tokens and a bound map bank (R79). -/
def State.capOf (s : State) (r : Rpb) (t : Nat) (slot bank : Nat) : Nat :=
  capacity r.capMode r.capRows r.capF t (s.mapN slot bank) r.k r.e

/-- Step 4 of R81, for the outputs of ROUTE and SORT (R101, R393). -/
def outCheck (r : Rpb) (t : Nat) (rrec dest : Desc) (multi : Bool) : Option Flt :=
  if rrec.len < 16 * t * r.k ∨ dest.len < destExtent r.e t r.k multi then some (flt eOobDesc 5 4) else none

/-- Order 10 of R62: a logit tensor of the given format, rows and columns (R58). -/
def logitCheck (d : Desc) (fmt t cols : Nat) : Option Flt :=
  if !d.linear ∨ d.fmt ≠ logitFmt fmt then some (flt eBadField 3 10)
  else if d.rows < t ∨ d.d0 < cols then some (flt eOobDesc 3 10)
  else none

-- bias

/-- Base of a layer slot's Camber area (R202). -/
def State.cmbSlot (s : State) (slot : Nat) : Nat := s.rpair 0x61000 + 0xC0000 * slot
def State.cmbEpoch (s : State) (slot : Nat) : Nat := s.reg (0x61100 + 4 * slot)
/-- FP32 bias of expert j in a bank. -/
def State.biasAt (s : State) (slot bank j : Nat) : Nat := s.rd32 (s.cmbSlot slot + 0x40000 * (1 + bank) + 4 * j)

/-- A bias entry as a K36 value, +0 where it is not finite, and whether it was (R63). -/
def finiteOrZero (x : Nat) : K36 × Bool := if kFinite (kOf32 x) then (kOf32 x, false) else (0, true)

-- group-selection records

/-- What stage 2 takes from a group-selection record (R67). -/
structure GRec where
  gw    : List Nat
  gid   : List Nat
  count : Nat
  nan   : Bool
  skip  : Bool
  deriving DecidableEq, Repr, Inhabited

/-- Group-selection record of row r. -/
def State.readGRec (s : State) (d : Desc) (r : Nat) : GRec :=
  let b := 64 * r
  let fl := s.strLe d (b + 41) 1
  ⟨(List.range 8).map (fun i => s.str32 d (b + 4 * i)), (List.range 8).map (fun i => s.strLe d (b + 32 + i) 1),
    s.strLe d (b + 40) 1, bitOf fl 0, bitOf fl 1⟩

/-- Expert of column c (R65). -/
def Rpb.expertOf (r : Rpb) (stage : Nat) (g : GRec) (c : Nat) : Nat :=
  if stage = 2 then g.gid.getD (c / (r.e / r.g)) 0 * (r.e / r.g) + c % (r.e / r.g) else c

-- scoring

def k1400 : K36 := kOf32 0x44AF0000

/-- What scoring needs beside the logit: the bound FU bank and the bias of an expert. -/
structure ScoreEnv where
  rpb   : Rpb
  stage : Nat
  fu    : FuBank
  /-- (slot, bank) of the bound bias, where one is used -/
  bias  : Option (Nat × Nat)
  deriving Repr

/-- Score column c of a row (section Scoring a row); a column that R67 masks is masked whatever it holds. In a row whose
group record has NAN set no column is clipped, counted, or counted for its bias (DESIGN CHOICE, log entry 57: R67 says only
that the row is a NaN row). -/
def State.score (s : State) (v : ScoreEnv) (g : GRec) (c : Nat) (x : K36) : Score :=
  let r := v.rpb
  let j := r.expertOf v.stage g c
  let absent := v.stage = 2 ∧ (g.count ≤ c / (r.e / r.g) ∨ g.skip)
  let gnan := v.stage == 2 && g.nan
  if absent then { j := j, x := x, nan := gnan }
  else if kIsNaN x ∨ gnan then { j := j, x := x, nan := true }
  else if x = kNegInf then { j := j, x := x }
  else
    let inf := decide (x = kInf)
    let clip := !inf && (kLt k1400 x || kLt x (kNeg k1400))
    let y := if clip then (if kSign x then kNeg k1400 else k1400) else x
    let e := if r.fn = 0 ∧ !inf then expK v.fu y else 0
    let w := if r.fn = 2 then fuEval v.fu 0x06 y else y
    let b := match v.bias with
      | some (sl, bk) => finiteOrZero (s.biasAt sl bk j)
      | none => (0, false)
    let key := if v.bias.isSome then kAdd w b.1 else w
    { j := j, x := y, v := w, key := key, e := e, live := true, inf := inf, clip := clip, badBias := b.2 }

/-- Add (column, value) terms in ascending columns, chunk by chunk (R64). -/
def sum64Go (part sum : K36) (chunk : Nat) : List (Nat × K36) → K36
  | [] => kAdd sum part
  | (c, v) :: l =>
    if c / 64 = chunk then sum64Go (kAdd part v) sum chunk l else sum64Go (kAdd 0 v) (kAdd sum part) (c / 64) l

def sum64 (l : List (Nat × K36)) : K36 := match l with
  | [] => 0
  | (c, _) :: _ => sum64Go 0 0 (c / 64) l

/-- Take the entry of greatest key, the earliest of equals. -/
def bestOf : List (Nat × K36) → Option (Nat × K36)
  | [] => none
  | p :: l => match bestOf l with
    | none => some p
    | some q => if kLt p.2 q.2 then some q else some p

/-- The k entries of greatest key, by rank (R66): indices into a list of (index, key) in ascending expert order. -/
def topK : Nat → List (Nat × K36) → List Nat
  | 0, _ => []
  | n + 1, l => match bestOf l with
    | none => []
    | some p => p.1 :: topK n (l.filter (fun q => q.1 != p.1))

/-- Group key of the keys of a group's unmasked members (section Selection). -/
def groupKey (top2 : Bool) (ks : List K36) : Option K36 :=
  let ix := (List.range ks.length).map (fun i => (i, ks.getD i 0))
  match topK 2 ix with
  | [] => none
  | [a] => some (ks.getD a 0)
  | a :: b :: _ => some (if top2 then kAdd (ks.getD a 0) (ks.getD b 0) else ks.getD a 0)

/-- The selected columns of a row by rank. -/
def Rpb.choose (r : Rpb) (stage : Nat) (row : List Score) : List Nat :=
  let cand := ((List.range row.length).filter (fun c => (row.getD c {}).live)).map (fun c => (c, (row.getD c {}).key))
  if stage = 1 then topK r.gk cand
  else if stage = 0 ∧ 2 ≤ r.g then
    let eg := r.e / r.g
    let gks := (List.range r.g).flatMap (fun g =>
      match groupKey r.top2 ((cand.filter (fun p => p.1 / eg == g)).map (fun p => p.2)) with
      | some k => [(g, k)]
      | none => [])
    let gs := topK r.gk gks
    topK r.k (cand.filter (fun p => gs.contains (p.1 / eg)))
  else topK r.k cand

/-- K36 of a natural number. -/
def kNat (n : Nat) : K36 := kEnc (.fin false n 0)

/-- Insert by ascending column. -/
def insCol (p : Nat × K36) : List (Nat × K36) → List (Nat × K36)
  | [] => [p]
  | q :: l => if p.1 < q.1 then p :: q :: l else q :: insCol p l

/-- Weights of the selected columns, before MULGW (R68, R69). -/
def Rpb.weights (r : Rpb) (fu : FuBank) (row : List Score) (cs : List Nat) : List K36 :=
  let at_ (c : Nat) : Score := row.getD c {}
  let ninf := (row.filter (fun x => x.live && x.inf)).length
  let minf := (cs.filter (fun c => (at_ c).inf)).length
  let sumSel (f : Score → K36) : K36 := sum64 ((cs.map (fun c => (c, f (at_ c)))).foldl (fun l p => insCol p l) [])
  let one := kOne
  if 0 < ninf ∧ !(r.fn = 2 ∧ minf = 0) then
    cs.map (fun c =>
      let i := (at_ c).inf
      match r.fn with
      | 0 => if i then kDiv one (kNat ninf) else 0
      | 1 => if i then kDiv one (kNat minf) else 0
      | 2 => if r.norm then (if i then kDiv one (kNat minf) else 0) else (at_ c).v
      | _ => if r.norm then (if i then kDiv one (kNat minf) else 0) else one)
  else
    match r.fn with
    | 0 =>
      let s := sum64 (((List.range row.length).filter (fun c => (at_ c).live)).map (fun c => (c, (at_ c).e)))
      cs.map (fun c => kDiv (at_ c).e s)
    | 1 =>
      let d := sumSel (fun x => expK fu x.x)
      cs.map (fun c => kDiv (expK fu (at_ c).x) d)
    | 2 => if r.norm then let d := sumSel (fun x => x.v)
                          cs.map (fun c => kDiv (at_ c).v d)
           else cs.map (fun c => (at_ c).v)
    | _ => cs.map (fun _ => if r.norm then kDiv one (kNat cs.length) else one)

/-- Seal a row (R68 to R70): the selection in k-slot order; g gives the stage-1 weights under MULGW. -/
def Rpb.seal (r : Rpb) (stage : Nat) (fu : FuBank) (g : GRec) (row : List Score) : Sel :=
  let nan := row.any (fun x => x.nan)
  let live := row.any (fun x => x.live)
  let clip := row.any (fun x => x.clip)
  let cs := r.choose stage row
  let ninf := row.any (fun x => x.live && x.inf)
  let minf := cs.any (fun c => (row.getD c {}).inf)
  let gwOf (j : Nat) : K36 :=
    match (List.range g.count).find? (fun i => g.gid.getD i 0 == j / (r.e / r.g)) with
    | some i => kOf32 (g.gw.getD i 0)
    | none => 0
  if nan then { nan := true, clip := clip }
  else if !live then { masked := true, clip := clip }
  else
    let ws := r.weights fu row cs
    { ents := (List.range cs.length).map (fun i =>
        let j := (row.getD (cs.getD i 0) {}).j
        let w := ws.getD i 0
        (j, kTo32 (if r.mulgw then kMul w (gwOf j) else w)))
      inf := ninf && !(r.fn == 2 && !minf), clip := clip }

-- records

/-- The selection record of a row (R74). -/
def Sel.bytes (x : Sel) : List Byte :=
  let m := if x.nan ∨ x.masked then 0 else x.ents.length
  let ent (i : Nat) : Nat × U32 := if x.nan then (0, 0x7FC00000) else if i < m then x.ents.getD i (0, 0) else (0, 0)
  (List.range 8).flatMap (fun i => natLe 4 (ent i).2.toNat) ++ (List.range 8).flatMap (fun i => natLe 2 (ent i).1)
    ++ natLe 1 m ++ natLe 1 (b2n x.nan + b2n x.masked * 2 + b2n x.inf * 4 + b2n x.clip * 8) ++ List.replicate 14 0

/-- Insertion by ascending group index. -/
def insGroup (p : Nat × U32) : List (Nat × U32) → List (Nat × U32)
  | [] => [p]
  | q :: l => if p.1 < q.1 then p :: q :: l else q :: insGroup p l

/-- The group-selection record of a row (R67). -/
def Sel.gbytes (x : Sel) : List Byte :=
  let l := if x.nan ∨ x.masked then [] else x.ents.foldl (fun l p => insGroup p l) []
  let w (i : Nat) : Nat := if x.nan then 0x7FC00000 else (l.getD i (0, 0)).2.toNat
  (List.range 8).flatMap (fun i => natLe 4 (w i)) ++ (List.range 8).flatMap (fun i => natLe 1 (l.getD i (0, 0)).1)
    ++ natLe 1 l.length ++ natLe 1 (b2n x.nan + b2n x.masked * 2 + b2n x.inf * 4 + b2n x.clip * 8) ++ List.replicate 22 0

/-- A selection as ADMIT takes it from its record (R103). -/
def State.readSel (s : State) (d : Desc) (r : Nat) : Sel :=
  let b := 64 * r
  let fl := s.strLe d (b + 49) 1
  let n := s.strLe d (b + 48) 1
  { ents := (List.range n).map (fun i => (s.str16 d (b + 32 + 2 * i), u32 (s.str32 d (b + 4 * i))))
    nan := bitOf fl 0, masked := bitOf fl 1, inf := bitOf fl 2, clip := bitOf fl 3 }

/-- Is a selection record fit for ADMIT (R103)? -/
def State.selOk (s : State) (d : Desc) (k e r : Nat) : Bool :=
  let b := 64 * r
  let n := s.strLe d (b + 48) 1
  let nan := bitOf (s.strLe d (b + 49) 1) 0
  let id (i : Nat) : Nat := s.str16 d (b + 32 + 2 * i)
  let w (i : Nat) : Nat := s.str32 d (b + 4 * i)
  decide (n ≤ k) && (List.range n).all (fun i => decide (id i < e)) && distinct ((List.range n).map id)
    && (List.range 8).all (fun i => decide (i < n) || (id i == 0 && w i == 0))
    && (nan || (List.range n).all (fun i => kFinite (kOf32 (w i)) || kIsInf (kOf32 (w i))))

/-- Logit of row t, column c of a tensor as K36. -/
def State.logit (s : State) (d : Desc) (t c : Nat) : K36 :=
  kEnc (fmtDec d.fmt (s.strLe d (t * d.rowB + c * ebOf d.fmt) (ebOf d.fmt)))

/-- Score columns c0 to c0 + n - 1 of row t from columns 0 to n - 1 of a tensor. -/
def State.scoreRow (s : State) (v : ScoreEnv) (g : GRec) (d : Desc) (t c0 n : Nat) : List Score :=
  (List.range n).map (fun i => s.score v g (c0 + i) (s.logit d t i))

/-- Per-context counts and flags that scored columns and sealed rows cause at commit (R77, R365). -/
def rowActs (rows : List (List Score)) (sels : List Sel) : List Act :=
  let nans := (sels.filter (fun x => x.nan)).length
  let clips := (rows.map (fun r => (r.filter (fun x => x.clip)).length)).sum
  let masked := (sels.filter (fun x => x.masked && !x.nan)).length
  let bads := (rows.map (fun r => (r.filter (fun x => x.badBias)).length)).sum
  let infs := sels.any (fun x => x.inf)
  [.count 0 nans, .count 1 clips, .count 2 masked, .count 3 bads,
    .stick 0x400 (b2n (nans != 0) + 2 * b2n (clips != 0) + 4 * b2n (masked != 0) + 8 * b2n infs + 16 * b2n (bads != 0))]

/-- FU results of scored rows, and of seals under SELK, times the passes of the function (R366 op 18). -/
def State.fuCharge (s : State) (own f n : Nat) (fu : FuBank) (fmt : Nat) : State :=
  let p := match fuProg (FMap.get [] fu.recs f) with
    | some g => (g.st.length + 23) / 24
    | none => 0
  ((s.opCount 18 fmt (n * p)).acct own 5 (n * p)).energy own 1 (n * p)

end Sys2Proof.Machine
end

