-- ==== Sys2Proof/Machine/Start.lean ====
section
/-! DEFINITION. What the start of a command answers, what its run answers, and the row-state regions (R45, R278). -/
namespace Sys2Proof.Machine

/-- Outcome of a start: the command waits, having changed nothing or sent a HELLO; it starts, with what it binds; it
faults before any side effect, or after a REPORT of the fault (R180). -/
inductive StartRes where
  | wait
  | hold (s : State)
  | fltS (s : State) (f : Flt)
  | go (s : State) (c : Cmd)
  | flt (f : Flt)

/-- Outcome of a run: in progress, complete with effects for its commit, or faulted. -/
inductive RunRes where
  | busy (s : State)
  | done (s : State) (acts : List Act)
  | flt (s : State) (f : Flt)

/-- The descriptor in slot i of a command. -/
def State.dsc (s : State) (own : Nat) (c : Cmd) (i : Nat) : Desc := s.desc own (c.h i)

/-- First fault of a list of checks. -/
def firstFlt : List (Option Flt) → Option Flt
  | [] => none
  | some f :: _ => some f
  | none :: l => firstFlt l

/-- A check: the fault unless b holds. -/
def need (b : Bool) (code unit : Nat) (check : Nat := 0) : Option Flt := if b then none else some (flt code unit check)

/-- Start a command on checks alone. -/
def startIf (s : State) (c : Cmd) (f : Option Flt) : StartRes := match f with
  | some f => .flt f
  | none => .go s c

/-- Is the block up, and neither dumping nor halted (R341, R381)? -/
def State.live (s : State) : Bool :=
  s.rst.posted && !s.rst.low && s.rst.level.isNone && !s.halted

/-- Is context c running (KCTX_STATE 0b01); the system always is. -/
def State.ctxRuns (s : State) (own : Nat) : Bool := own == 16 || (decide (own < 16) && s.rf (kctx own + 4) 1 0 == 1)

/-- Is queue q being served: the block up, the queue enabled and not faulted, its context running, and no fatal error
pending (R358)? -/
def State.serves (s : State) (q : Nat) : Bool :=
  s.live && !s.rbit 0x1004 0 && s.rbit (kq q + 0xC) 0 && s.rf (kq q + 0x18) 1 0 != 3 && s.ctxRuns (s.owner q)

/-- Memory as the run of a command of the Gantry works on it: what it reads and writes in place stands there again (R34). -/
def State.shown (s : State) (q : Nat) (i : U32) (c : Cmd) : State :=
  if c.saved.isEmpty ∨ c.op < 0x30 ∨ 0x34 < c.op then s else s.unhide q i

/-- Is a queue one of a latency-critical context (R276)? -/
def State.lcQueue (s : State) (q : Nat) : Bool := s.owner q != 16 && s.rbit (kctx (s.owner q)) 1

/-- Does a started command leave its unit to others (R277)? The Gantry moves nothing for another context while it has work of a
latency-critical one (R229); of the COMBINEs with tokens two hold the staging halves, latency-critical ones first, then in
the order in which they became ready (R154). -/
def State.givesWay (s : State) (q : Nat) (c : Cmd) : Bool :=
  let lc := s.lcQueue q
  let others (p : Nat → Cmd → Bool) : Nat := (s.started.filter (fun x => x.2.phase == .started && p x.1 x.2)).length
  if 0x30 ≤ c.op ∧ c.op ≤ 0x34 then
    !lc && others (fun p d => decide (0x30 ≤ d.op) && decide (d.op ≤ 0x34) && s.lcQueue p) != 0
  else c.op == 0x2A && c.s 0 != 0 && decide (2 ≤ others (fun p d => d.op == 0x2A && d.pre && d.s 0 != 0
    && (if s.lcQueue p = lc then decide (d.tick < c.tick) else s.lcQueue p)))

/-- Run a started command of an opcode once, unless it gives way: the result of its work is kept for the commit, a fault takes
effect. -/
def State.runCmd (s : State) (q : Nat) (i : U32) (op : Nat) (f : State → Nat → Cmd → RunRes) : State :=
  match s.findCmd q i with
  | none => s
  | some c =>
    if s.live ∧ c.phase = .started ∧ c.op = op ∧ c.skip = .run ∧ !s.givesWay q c then
      match f (s.shown q i c) (s.owner q) c with
      | .busy s1 => s1
      | .done s1 acts => s1.complete q i acts
      | .flt s1 f => s1.fault q i op f
    else s

/-- Mark that the run of a command has begun. -/
def State.markRan (s : State) (q : Nat) (i : U32) : State := s.updCmd q i (fun c => { c with ran := true })

-- row-state regions

def State.freeRegions (s : State) (pipe : Nat) : Nat := 16 - (s.regions.filter (fun r => r.pipe == pipe)).length

/-- May context c take one more region (R278)? -/
def State.quotaOk (s : State) (c : Nat) : Bool :=
  let n := s.rf (kctx c) 30 24
  c == 16 || n == 0 || decide ((s.regions.filter (fun r => r.ctx == c)).length < n)

/-- The pipe with the most free regions, the lowest-numbered among equals. -/
def State.freest (s : State) : Nat → Nat → Nat → Nat
  | 0, _, best => best
  | k + 1, i, best => s.freest k (i + 1) (if s.freeRegions best < s.freeRegions i then i else best)

/-- The pipe that block b of a holder would take now: in ordered mode its own, else the freest (R45). -/
def State.pipeOf (s : State) (c b : Nat) : Nat :=
  let np := s.part.pipes.length
  if s.rbit (win c + 0x700) 0 then b % np else s.freest (np - 1) 1 0

/-- Has that pipe a region for context c (R45, R278)? -/
def State.roomFor (s : State) (c b : Nat) : Bool :=
  !s.part.pipes.isEmpty && s.freeRegions (s.pipeOf c b) != 0 && s.quotaOk c

/-- Do two regions belong to one holder: one command, or one context's job? -/
def Region.same (a b : Region) : Bool := a.ctx == b.ctx && a.job == b.job && (a.job || (a.q == b.q && a.idx == b.idx))

/-- Does a block that waits for a region still wait: its command runs, or may start (R45), or its context's restore has begun
(R285)? -/
def State.waitsStill (s : State) (w : Region) : Bool :=
  (w.job && s.rbit (kctx w.ctx + 0xC) 1) || (s.queue w.q).cmds.any (fun c => (w.job || c.idx == w.idx) && (c.phase == .started
    || (c.phase == .waiting && s.serves w.q && !(s.queue w.q).killing && !s.rbit (kq w.q + 0xC) 2)))

/-- Does a waiting block go before one of r's holder: one of a latency-critical context first, then the oldest (R278)? -/
def State.goesBefore (s : State) (r w : Region) : Bool :=
  let lc (c : Nat) : Bool := c != 16 && s.rbit (kctx c) 1
  if lc w.ctx ≠ lc r.ctx then lc w.ctx
  else (s.regWait.takeWhile (fun x => !x.same r)).any (fun x => x.same w)

/-- Place block b of a pass, if its pipe has room that no waiting block takes first (R45, R278). -/
def State.placeBlock (s : State) (r : Region) (b : Nat) : Option State :=
  if s.roomFor r.ctx b ∧ !s.regWait.any (fun w => !w.same r && s.goesBefore r w && s.waitsStill w && s.roomFor w.ctx w.block
      && (s.pipeOf w.ctx w.block == s.pipeOf r.ctx b))
  then some { s with regions := s.regions ++ [{ r with pipe := s.pipeOf r.ctx b, block := b }] }
  else none

/-- Place the blocks of a list that can be placed now: those that cannot. -/
def State.placeGo (s : State) (r : Region) : List Nat → List Nat × State
  | [] => ([], s)
  | b :: bs => match s.placeBlock r b with
    | some s1 => s1.placeGo r bs
    | none =>
      let t := s.placeGo r bs
      (b :: t.1, t.2)

/-- Place the blocks of a list that can be placed now; the first that cannot waits (R45). Answers whether all were. -/
def State.placeBlocks (s : State) (r : Region) (bs : List Nat) : Bool × State :=
  let t := s.placeGo r bs
  let w := t.2.regWait
  match t.1 with
  | [] => (true, { t.2 with regWait := w.filter (fun x => !x.same r) })
  | b :: _ =>
    let w1 := if w.any (fun x => x.same r) then w.map (fun x => if x.same r then { x with block := b } else x)
      else w ++ [{ r with block := b }]
    (false, { t.2 with regWait := w1 })

/-- Is block b of a holder placed already? -/
def State.placed (s : State) (r : Region) (b : Nat) : Bool :=
  s.regions.any (fun x => x.ctx == r.ctx && x.job == r.job && x.block == b && (r.job || (x.q == r.q && x.idx == r.idx)))

/-- Free the regions of a command, which waits for none. -/
def State.freeRegionsOf (s : State) (q : Nat) (i : U32) : State :=
  let keep (r : Region) : Bool := r.job || !(r.q == q && r.idx == i)
  { s with regions := s.regions.filter keep, regWait := s.regWait.filter keep }

/-- Free the region of one block of a command, whose rows have sealed (R45). -/
def State.freeBlock (s : State) (r : Region) (b : Nat) : State :=
  { s with regions := s.regions.filter (fun x => !(x.same r && x.block == b)) }

/-- Blocks of pass p of a command of T tokens (R45). -/
def State.passBlocks (s : State) (t p : Nat) : List Nat :=
  let n := (t + 4095) / 4096
  let m := 16 * s.part.pipes.length
  (List.range (min m (n - p * m)))

/-- Has a command of any queue, started and uncommitted, the property p? -/
def State.anyStarted (s : State) (p : Nat → Cmd → Bool) : Bool := s.started.any (fun x => p x.1 x.2)

/-- The live bank and epoch of the map of a context's layer (R96). -/
def State.bindMap (s : State) (own layer : Nat) : Option (Nat × U32) :=
  (s.layerSlot own layer).map (fun sl => (sl, u32 (s.mapEpoch sl)))

/-- Does function f need a loaded slot of the live FU bank that is damaged or empty (R245, R248)? -/
def State.fuCheck (s : State) (f unit : Nat) : Option Flt :=
  if s.rbit 0x80004 3 then some (flt eUncorrectable unit)
  else if (s.fuBank s.fuLive).empty f then some (flt eBadField unit) else none

end Sys2Proof.Machine
end

