-- ==== Sys2Proof/Machine/Bay.lean ====
section
/-! DEFINITION. Bays (R111 to R113): the Tollgate's grant, landing, and the ready counts that follow (R141, R148). -/
namespace Sys2Proof.Machine

/-- Is the Bay at a control block receiving for a tag (R113, R114 check 7)? A DP1 slab carries no tag (R131). -/
def State.armed (s : State) (b gen : Nat) (dp1 : Bool) : Bool :=
  let w := s.rd32 b
  b != 0 && fld w 3 0 == 1 && (dp1 || fld w 31 16 == gen)

def State.bayCap (s : State) (b : Nat) : Nat := s.rd32 (b + 4)
def State.bayElems (s : State) (b : Nat) : Nat := if fld (s.rd32 (b + 8)) 16 0 = 0 then 65536 else fld (s.rd32 (b + 8)) 16 0
def State.bayFmt (s : State) (b : Nat) : Nat := fld (s.rd32 (b + 8)) 19 17
def State.bayPitch (s : State) (b : Nat) : Nat := s.rd32 (b + 12)
def State.bayRows (s : State) (b : Nat) : Nat := s.rd64 (b + 32) % addrMod
def State.bayLand (s : State) (b : Nat) : Nat := s.rd64 (b + 40) % addrMod
def State.bayTiles (s : State) (b : Nat) : Nat := s.rd64 (b + 52) % addrMod

/-- The Tollgate's answer to a reservation of n records with the source's C: FIRST_ROW and NROWS (R113). -/
def State.toll (s : State) (b n capc : Nat) : Nat × Nat × State :=
  let f := s.rd32 (b + 16)
  let l := min capc (s.bayCap b)
  let rows := if f < l then min n (l - f) else 0
  let s1 := s.wr32 (b + 16) (min (f + n) 0xFFFFFFFF)
  (f, rows, s1.wr32 (b + 24) ((s1.rd32 (b + 24) + (n - rows)) % 2 ^ 32))

/-- Raise the tile counts of rows [first, first + n) from tile t on, k tiles (R112 step 2). -/
def State.tileAdd (s : State) (tiles first n : Nat) : Nat → Nat → State
  | _, 0 => s
  | t, k + 1 =>
    let lo := max first (128 * t)
    let hi := min (first + n) (128 * t + 128)
    let s1 := if lo < hi then s.wr8 (tiles + t) (BitVec.ofNat 8 ((s.rd8 (tiles + t)).toNat + (hi - lo))) else s
    s1.tileAdd tiles first n (t + 1) k

/-- Are rows of tile t of a Bay in a landing whose writes are not yet visible (R141)? -/
def State.tileOpen (s : State) (b t : Nat) : Bool :=
  s.landings.any (fun l => l.spans.any (spanMeets (s.bayRows b + 128 * t * s.bayPitch b, 128 * s.bayPitch b)))

/-- Leading tiles of a Bay whose counts have reached 128, with every write that raised them visible (R141). -/
def State.leadTiles (s : State) (b : Nat) : Nat → Nat → Nat
  | t, 0 => t
  | t, k + 1 => if 128 ≤ (s.rd8 (s.bayTiles b + t)).toNat ∧ !s.tileOpen b t then s.leadTiles b (t + 1) k else t

/-- The ready count of an entry: it never decreases, and none below M is published on a version-1 link (R141, R148). -/
def State.readyOf (s : State) (c : Nat) (x : FeedEnt) : Nat :=
  let b := s.bcb c x.lslot
  if x.closed ∨ s.rf 0x10000 3 0 = 1 then x.ready
  else 128 * s.leadTiles b (x.ready / 128) (s.bayCap b / 128 - x.ready / 128)

/-- Publish the ready counts of a feed's entries that have risen, from entry e on (R141). -/
def State.readyEnts (s : State) (f : Feed) : Nat → List FeedEnt → List FeedEnt × State
  | _, [] => ([], s)
  | e, x :: xs =>
    let r := s.readyOf f.ctx x
    let t := (if x.ready < r then s.sendReady f e r false else s).readyEnts f (e + 1) xs
    ({ x with ready := max x.ready r } :: t.1, t.2)

/-- Publish the ready counts that have risen in the feeds of a context. -/
def State.readyGo (s : State) (c : Nat) : List Feed → State
  | [] => s
  | f :: fs =>
    if f.ctx = c ∧ !f.gate ∧ f.abort.isNone ∧ !f.ended then
      let r := s.readyEnts f 0 f.ents
      (r.2.updFeed f.id (fun g => { g with ents := r.1 })).readyGo c fs
    else s.readyGo c fs

def State.readyAll (s : State) (c : Nat) : State := s.readyGo c s.feeds

/-- A slab lands in a Bay (R112 steps 1 to 4), from a source chip, with its rows at the pitch of the Bay. -/
def State.landRows (s : State) (c lslot src first n : Nat) (payload : List Byte) : State :=
  let b := s.bcb c lslot
  let s1 := (s.wr (s.bayRows b + s.bayPitch b * first) payload).opCount 7 (wireFmt (s.bayFmt b)) n
  let s2 := s1.tileAdd (s1.bayTiles b) first n (first / 128) ((n + 254) / 128)
  let s3 := s2.wr32 (b + 20) ((s2.rd32 (b + 20) + n) % 2 ^ 32)
  let k := s3.rd32 (b + 48)
  (s3.wr64 (s3.bayLand b + 8 * k) (src + first * 2 ^ 12 + n * 2 ^ 32)).wr32 (b + 48) ((k + 1) % 2 ^ 32)

/-- Check 8 of R114 for rows at a Bay: inside the grant, or inside CAP in ordered mode. -/
def State.bayRange (s : State) (c b first n : Nat) : Bool :=
  let l := if s.rbit (win c + 0x700) 0 then s.bayCap b else min (s.rd32 (b + 16)) (s.bayCap b)
  decide (n ≤ 256) && decide (first + n ≤ l)

end Sys2Proof.Machine
end

