-- ==== Sys2Proof/Machine/Span.lean ====
section
/-! DEFINITION. The exchange block (R118), COUNT_XCHG (R164 to R168), DISPATCH (R119 to R121, R127, R128) and DRAIN
(R126). -/
namespace Sys2Proof.Machine

-- the exchange block

/-- An exchange block as read (R118). -/
structure Xb where
  ord  : Bool
  rfmt : Nat
  k    : Nat
  dm   : Nat
  rm   : Nat
  planes : List Nat
  members : List Nat
  /-- no field is rejected or nonzero where it must be 0; the list is ascending, distinct and holds this chip -/
  ok   : Bool
  deriving DecidableEq, Repr

/-- Strictly ascending? -/
def ascending : List Nat → Bool
  | a :: b :: l => decide (a < b) && ascending (b :: l)
  | _ => true

def State.readXb (s : State) (d : Desc) : Xb :=
  let w (i : Nat) : Nat := s.str32 d (4 * i)
  let k := fld (w 0) 7 4
  let n := fld (w 1) 12 0
  let ms := (List.range (min n 4096)).map (fun i => s.str16 d (0x100 + 2 * i))
  let ok := fld (w 0) 3 2 == 0 && fld (w 0) 31 8 == 0 && decide (1 ≤ k) && decide (k ≤ 8) && fld (w 1) 31 13 == 0
    && decide (1 ≤ n) && decide (n ≤ 4096) && fld (w 2) 31 20 == 0 && fld (w 3) 31 20 == 0
    && (List.range 8).all (fun i => fld (w (4 + i)) 31 20 == 0 && (decide (i < k) || w (4 + i) == 0))
    && (List.range 52).all (fun i => w (12 + i) == 0)
    && ascending ms && ms.contains s.chip && ms.all (fun m => decide (m < 4096))
  ⟨bitOf (w 0) 0, if bitOf (w 0) 1 then 2 else 0, k, w 2, w 3, (List.range k).map (fun i => w (4 + i)), ms, ok⟩

/-- Offset of the segments in the XB (R118). -/
def xbSegs : Nat := 0x12100

def State.ordOf (s : State) (c : Nat) : Bool := s.rbit (win c + 0x700) 0

def State.findExch (s : State) (c gen xid : Nat) : Option Exch :=
  s.exch.find? (fun e => e.ctx == c && e.gen == gen && e.xid == xid)
def State.updExch (s : State) (c gen xid : Nat) (g : Exch → Exch) : State :=
  { s with exch := s.exch.map (fun e => if e.ctx = c ∧ e.gen = gen ∧ e.xid = xid then g e else e) }

/-- Record a tag that a command of the context names (R124). -/
def State.nameGen (s : State) (c g : Nat) : State :=
  let h := s.reg (win c + 0x50C)
  if !bitOf h 16 ∨ 0 < i16diff g (fld h 15 0) then s.setReg (win c + 0x50C) (2 ^ 16 + g) else s

/-- XID of an exchange command. -/
def Cmd.xid (c : Cmd) : Nat := match c.op with
  | 0x20 => fld (c.s 5) 23 16
  | 0x15 => fld (c.s 4) 23 16
  | 0x2A => fld (c.s 5) 23 16
  | _ => fld (c.s 3) 23 16
def Cmd.gen (c : Cmd) : Nat := (c.gen?).getD 0

/-- Must a DISPATCH or COUNT_XCHG wait to start (R119, R120, R164)? -/
def State.exchWaits (s : State) (own gen xid : Nat) : Bool :=
  (s.cmdsOf own).any (fun p => p.2.live && (p.2.op == 0x20
      || (p.2.op == 0x15 && p.2.gen == gen && p.2.xid == xid)))
    || ((s.findExch own gen xid).isNone && decide (8 ≤ (s.exch.filter (fun e => e.ctx == own)).length))

/-- Bind the exchange slot (R120). -/
def State.bindExch (s : State) (own gen xid xb rrec dest : Nat) : State :=
  match s.findExch own gen xid with
  | some _ => s.updExch own gen xid (fun e => { e with xb := xb, rrec := rrec, dest := dest })
  | none =>
    let e : Exch := { ctx := own, gen := gen, xid := xid, xb := xb, rrec := rrec, dest := dest }
    { s with exch := s.exch ++ [e] }

/-- A command on a retired tag: it starts complete, with no effect and no markers (R119, R122, R164). -/
def retiredStart (s : State) (c : Cmd) : StartRes := .go s { c with phase := .complete, ran := true, noMark := true }

/-- Bucket list of a DEST. -/
def State.bucketsOf (s : State) (d : Desc) (h : DestHdr) : List (Nat × Nat × Nat × Nat × Nat × Nat) :=
  if h.t = 0 then [] else (List.range h.nbucket).map (fun b => s.bucketAt d h b)

/-- Has some token more selections than K planes (R119 step 3)? -/
def State.tstatOver (s : State) (d : Desc) (h : DestHdr) (k : Nat) : Bool :=
  (List.range h.t).any (fun i => decide (k < fld (s.strLe d (destTstat h.e + i) 1) 3 0))

/-- End of the bucket list of a DEST (R101). -/
def destEnd (h : DestHdr) : Nat := if h.t = 0 then 64 else destBuckets h.e h.t + 16 * h.nbucket

/-- Least extent of the XB for a DEST (R118). -/
def xbNeed (h : DestHdr) : Nat := xbSegs + 16 * (h.nbucket + (h.akept + 255) / 256)

-- COUNT slabs

def CountEnt.bytes (e : CountEnt) : List Byte := wordsBytes [e.lslot + e.repl * 2 ^ 12, e.expert, e.a, e.b]

/-- The entries of a COUNT payload (R168). -/
def countEnts (n : Nat) (bs : List Byte) : List CountEnt :=
  (List.range n).map (fun i =>
    let w (j : Nat) : Nat := leNat ((bs.drop (16 * i + 4 * j)).take 4)
    ⟨fld (w 0) 11 0, fld (w 0) 13 12, fld (w 1) 15 0, w 2, w 3⟩)

/-- Zero padding to a multiple of n bytes. -/
def padTo (n : Nat) (bs : List Byte) : List Byte := bs ++ List.replicate ((n - bs.length % n) % n) 0

/-- Common words of a COUNT slab, with ORD = 1 in either mode (R168). -/
def State.countHdr (s : State) (c d gen xid : Nat) (tail : List Nat) : List Nat :=
  match s.slabHdr 5 c d gen xid 0 0 0 tail with
  | w :: ws => putFld w 24 24 1 :: ws
  | [] => []

/-- A COUNT slab of phase 0 or 1 (R168). -/
def State.countSlab (s : State) (c d gen xid phase : Nat) (m : CountMsg) : Frame :=
  mkFrame (s.countHdr c d gen xid
      [phase + b2n m.mis * 4 + m.ents.length * 2 ^ 16, m.epoch.toNat, m.cap.toNat, m.layer])
    (padTo 32 (m.ents.flatMap (fun e => e.bytes)))

/-- Kept records that a source named for a slot. -/
def CountMsg.kept (m : CountMsg) (slot : Nat) : Nat := ((m.ents.find? (fun e => e.lslot == slot)).map (fun e => e.a)).getD 0

/-- Base row and admitted count of each source for a slot, in ascending source order, from base (R84, R165). -/
def admitGo (cap slot : Nat) : Nat → List CountMsg → List (Nat × Nat × Nat)
  | _, [] => []
  | base, m :: ms =>
    let k := m.kept slot
    (m.src, base, if base < cap then min k (cap - base) else 0) :: admitGo cap slot (base + k) ms

/-- Owner side of COUNT_XCHG: once every member's phase-0 slab is in, phase 1 goes out (R165). -/
def State.cxOwn (s : State) (e : Exch) : State :=
  let d := s.desc e.ctx e.xb
  let h := s.destHdr (s.desc e.ctx e.dest)
  let ms := (s.readXb d).members
  match e.cxq with
  | none => s
  | some (q, idx) =>
    if e.answered ∨ ms.any (fun m => !e.ph0.any (fun p => p.src == m)) then s
    else
      let ph := ms.flatMap (fun m => e.ph0.filter (fun p => p.src == m))
      let mis := ph.any (fun p => p.epoch.toNat != h.epoch || p.cap.toNat != h.cap || p.layer != h.layer)
      let slots := ph.foldl (fun l p => p.ents.foldl (fun l x => insKey x.lslot l) l) []
      let tab := slots.map (fun sl => (sl, admitGo h.cap sl 0 ph))
      let ref := tab.map (fun p => (p.1, (ph.map (fun m => m.kept p.1)).sum - (p.2.map (fun x => x.2.2)).sum))
      let look (sl src : Nat) : Nat × Nat :=
        (((tab.find? (fun p => p.1 == sl)).bind (fun p => p.2.find? (fun x => x.1 == src))).map (fun x => x.2)).getD (0, 0)
      let msg (m : CountMsg) : CountMsg :=
        { src := s.chip, mis := mis, epoch := u32 h.epoch, cap := u32 h.cap, layer := h.layer,
          ents := m.ents.map (fun x => { x with a := (look x.lslot m.src).1, b := (look x.lslot m.src).2 }) }
      let s1 := s.updExch e.ctx e.gen e.xid (fun x => { x with
        answered := true, refused := ref,
        ph1 := x.ph1 ++ (ph.filter (fun m => m.src == s.chip)).map msg })
      (ph.filter (fun m => m.src != s.chip)).foldl
        (fun s m => (s.txPush e.ctx m.src 4 q idx [s.countSlab e.ctx m.src e.gen e.xid 1 (msg m)]).trace 0x0D e.ctx q [e.gen + e.xid * 2 ^ 16, 1, m.src]) s1

/-- A phase-0 or phase-1 message arrives for a bound exchange (R165). -/
def State.cxArrive (s : State) (c gen xid phase : Nat) (m : CountMsg) : State :=
  let put (l : List CountMsg) : List CountMsg := if l.any (fun x => x.src == m.src) then l else l ++ [m]
  let s1 := s.updExch c gen xid (fun e => if phase = 0 then { e with ph0 := put e.ph0 } else { e with ph1 := put e.ph1 })
  match s1.findExch c gen xid with
  | some e => s1.cxOwn e
  | none => s1

/-- The checks of COUNT_XCHG at start (R164). -/
def State.cxChecks (s : State) (own : Nat) (c : Cmd) : Option Flt :=
  let d := s.dsc own c 2
  let x := s.dsc own c 3
  let h := s.destHdr d
  let b := s.readXb x
  firstFlt [need (decide (0x2100 ≤ x.len) && decide (64 ≤ d.len)) eOobDesc 8,
    need (s.ordOf own && b.ord && c.s 0 == h.t && b.ok) eBadField 8 1,
    need (decide (16 * h.asel ≤ (s.dsc own c 1).len) && decide (8 * h.nbucket ≤ (s.dsc own c 5).len)
      && decide (xbNeed h ≤ x.len) && decide (destEnd h ≤ d.len)) eOobDesc 8 2,
    need (!s.tstatOver d h b.k) eBadField 8 3,
    need (!s.part.piers.isEmpty || b.members == [s.chip]) eNoUnit 8 4]

/-- Start of COUNT_XCHG: its last check is the version of every member, for which it may have to wait (R130, R164). -/
def startCount (s : State) (q : Nat) (c : Cmd) : StartRes :=
  let own := s.owner q
  let rem := (s.readXb (s.dsc own c 3)).members.filter (fun m => m != s.chip)
  if s.retired own c.gen then retiredStart s c
  else if s.exchWaits own c.gen c.xid then .wait
  else match s.cxChecks own c, rem.find? (fun m => s.peerVer m == 1) with
    | some f, _ => .flt f
    | none, some m => .flt { flt ePeerVersion 8 5 with peer := m }
    | none, none =>
      if rem.any (fun m => s.peerVer m == 0) then .hold (rem.foldl (fun s m => s.hello m) s)
      else
      let s1 := s.bindExch own c.gen c.xid (c.h 3) (c.h 1) (c.h 2)
      let nb := (s.destHdr (s.dsc own c 2)).nbucket
      .go (s1.updExch own c.gen c.xid (fun e => { e with
          ofs := c.h 5, cxq := some (q, c.idx), cx0 := false, xchg := false, ph0 := [], ph1 := [], answered := false,
          refused := [] }))
        { c with wrote := (s.dsc own c 5).span 0 (8 * nb) }

/-- The answer of a bucket's owner: base row and admitted count (R165). -/
def bucketAnswer (ph1 : List CountMsg) (chip slot : Nat) : Option (Nat × Nat) :=
  ((ph1.find? (fun m => m.src == chip)).bind (fun m => m.ents.find? (fun e => e.lslot == slot))).map (fun e => (e.a, e.b))

/-- Record updates of a bucket: q < a are admitted at base + q, the others dropped (R85). -/
def bucketUpd (first count base a : Nat) : List RecUpd :=
  (List.range count).map (fun i => if i < a then ⟨first + i, true, base + i⟩ else ⟨first + i, false, 0⟩)

/-- The run of COUNT_XCHG: phase 0, then phase 1 from all members (R165). -/
def runCount (s : State) (own q : Nat) (c : Cmd) : RunRes :=
  match s.findExch own c.gen c.xid with
  | none => .busy s
  | some e =>
    let d := s.dsc own c 2
    let h := s.destHdr d
    let ms := (s.readXb (s.dsc own c 3)).members
    let bs := s.bucketsOf d h
    let rem := ms.filter (fun m => m != s.chip)
    if !e.cx0 then
      let msg (m : Nat) : CountMsg :=
        { src := s.chip, mis := false, epoch := u32 h.epoch, cap := u32 h.cap, layer := h.layer,
          ents := (bs.filter (fun b => b.1 == m)).map (fun b => ⟨b.2.1, b.2.2.1, b.2.2.2.1, b.2.2.2.2.2, 0⟩) }
      let s1 := s.updExch own c.gen c.xid (fun x => { x with cx0 := true })
      let s2 := rem.foldl (fun s m => (s.txPush own m 4 q c.idx [s.countSlab own m c.gen c.xid 0 (msg m)]).trace 0x0D own q
        [c.gen + c.xid * 2 ^ 16, 0, m]) s1
      .busy (((s2.cxArrive own c.gen c.xid 0 (msg s.chip)).charge own [2]).chargeReads own
        (d.headReads 64 ++ d.headReads (16 * h.nbucket) ++ (s.dsc own c 3).headReads 0x2100))
    else if ms.any (fun m => !e.ph1.any (fun p => p.src == m)) ∨ s.txBusy q c.idx then .busy s
    else if e.ph1.any (fun m => m.mis) then .flt s (flt eExchMismatch 8)
    else match bs.find? (fun b => (bucketAnswer e.ph1 b.1 b.2.1).isNone) with
      | some b => .flt s { flt eExchMismatch 8 with peer := b.1 }
      | none =>
        let ans := bs.map (fun b => (b.2.2.2.2, (bucketAnswer e.ph1 b.1 b.2.1).getD (0, 0)))
        let ups := ans.flatMap (fun p => bucketUpd p.1.1 p.1.2 p.2.1 p.2.2)
        let ofs := (s.dsc own c 5).put 0 (ans.flatMap (fun p => wordsBytes [p.2.1, min p.2.2 p.1.2]))
        let s1 := (s.updCmd q c.idx (fun x => { x with recs := ups })).puts ofs
        .done ((s1.charge own [2]).chargeRows own 9 ups.length 8 (s.dsc own c 1).half)
          [.count 4 (ups.filter (fun u => !u.adm)).length, .xchgDone c.gen c.xid]

/-- COUNT_XCHG (R164 to R168). -/
def execCountXchg (q : Nat) (i : U32) (s : State) : Host.Outcome State Fault Refusal :=
  .next (s.runCmd q i 0x15 (fun s own c => runCount s own q c))

-- DISPATCH

/-- A segment of the return index, with its bucket's chip, slot, replica and expert (R118). -/
structure Seg where
  bucket : Nat
  row    : Nat
  rows   : Nat
  rec_   : Nat
  dst    : Nat
  lslot  : Nat
  repl   : Nat
  expert : Nat
  deriving DecidableEq, Repr, Inhabited

/-- Segment i of an exchange. -/
def State.seg (s : State) (e : Exch) (i : Nat) : Seg :=
  let x := s.desc e.ctx e.xb
  let d := s.desc e.ctx e.dest
  let o := xbSegs + 16 * i
  let b := s.bucketAt d (s.destHdr d) (s.str32 x o)
  ⟨s.str32 x o, s.str32 x (o + 4), s.str32 x (o + 8), s.str32 x (o + 12), b.1, b.2.1, b.2.2.1, b.2.2.2.1⟩

def State.segs (s : State) (e : Exch) : List Seg := (List.range e.nseg).map (fun i => s.seg e i)

/-- Append a segment to the return index of a bound exchange; none for 0 rows (R113, R118). -/
def State.addSeg (s : State) (c gen xid bucket row rows rec_ : Nat) : State :=
  match s.findExch c gen xid with
  | some e =>
    if rows = 0 then s
    else
      ((s.strWr (s.desc c e.xb) (xbSegs + 16 * e.nseg) (wordsBytes [bucket, row, rows, rec_])).chargeRows c 9 1 16
        (s.desc c e.xb).half).updExch c gen xid (fun x => { x with nseg := x.nseg + 1 })
  | none => s

/-- What DISPATCH needs to send rows. -/
structure DspEnv where
  own  : Nat
  q    : Nat
  idx  : U32
  gen  : Nat
  xid  : Nat
  src  : Desc
  rrec : Desc
  /-- element format on the wire, and its code -/
  wf   : Nat
  wc   : Nat
  cap  : Nat

def DspEnv.n (v : DspEnv) : Nat := v.src.d0
/-- What sending n rows reads: a record and a source row for each (R280). -/
def DspEnv.reads (v : DspEnv) (n : Nat) : List (Nat × Nat × Bool) := (n, 16, v.rrec.half) :: v.src.rowReads n
def DspEnv.pitch (v : DspEnv) : Nat := pitchOf (rowBytes v.wf v.n)
/-- Rows per slab: at most 256 and 4 MiB (R121). -/
def DspEnv.per (v : DspEnv) : Nat := max 1 (min 256 (2 ^ 22 / max 1 v.pitch))

def State.dspEnv (s : State) (own q : Nat) (c : Cmd) : DspEnv :=
  let w := fld (c.s 5) 26 24
  { own := own, q := q, idx := c.idx, gen := c.gen, xid := c.xid, src := s.dsc own c 3, rrec := s.dsc own c 1,
    wf := wireFmt w, wc := w, cap := (s.destHdr (s.dsc own c 2)).cap }

/-- Token of route record r. -/
def State.recToken (s : State) (d : Desc) (r : Nat) : Nat := fld (s.str32 d (16 * r)) 23 0

/-- The wire row of route record r, padded to the pitch, and its NaN blocks (R109, R110). -/
def State.wireRow (s : State) (v : DspEnv) (r : Nat) : List Byte × Nat :=
  let t := s.recToken v.rrec r
  let x := convRow v.src.fmt v.wf v.n (s.strRd v.src (t * v.src.rowB) v.src.rowB)
  (padTo 32 x.1, x.2.1)

/-- The slabs of a segment: first row, rows and first record of each (R121). -/
def segParts (per : Nat) (g : Seg) : List (Nat × Nat × Nat) :=
  (List.range ((g.rows + per - 1) / per)).map (fun i => (g.row + i * per, min per (g.rows - i * per), g.rec_ + i * per))

/-- Payload of n rows from record r. -/
def State.wireRows (s : State) (v : DspEnv) (r n : Nat) : List Byte :=
  (List.range n).flatMap (fun i => (s.wireRow v (r + i)).1)

/-- DISPATCH slabs of a segment. Of the two encodings that R108 gives 65,536 elements, the model sends 0x10000 (DESIGN
CHOICE, log entry 59). -/
def State.dspSlabs (s : State) (v : DspEnv) (g : Seg) : List Frame :=
  (segParts v.per g).map (fun p => mkFrame (s.slabHdr 1 v.own g.dst v.gen v.xid (g.expert + g.lslot * 2 ^ 16 + g.repl * 2 ^ 28)
    (p.1 + p.2.1 * 2 ^ 20) (v.n + v.wc * 2 ^ 17) []) (s.wireRows v p.2.2 p.2.1))

/-- Slabs handed to a destination so far. -/
def Exch.sentTo (e : Exch) (d : Nat) : Nat := FMap.get 0 e.pushed d

def State.addPushed (s : State) (v : DspEnv) (d n : Nat) : State :=
  s.updExch v.own v.gen v.xid (fun e => { e with pushed := FMap.set 0 e.pushed d (e.sentTo d + n) })

/-- Count the MX blocks that rows were converted to (R366 op 26). -/
def State.countMx (s : State) (v : DspEnv) (rows : Nat) : State :=
  if isMx v.wf then s.opCount 26 v.wf (rows * (v.n / 32)) else s

/-- Hand slabs to a destination's dispatch stream (R121). -/
def State.dspPush (s : State) (v : DspEnv) (d : Nat) (fs : List Frame) : State :=
  let n := (fs.map (fun f => fRows f)).sum
  (((s.txPush v.own d 1 v.q v.idx fs).addPushed v d fs.length).countMx v n).chargeReads v.own (v.reads n)

/-- Land the parts of a local segment (R121). -/
def State.landParts (s : State) (v : DspEnv) (g : Seg) : List (Nat × Nat × Nat) → State
  | [] => s
  | p :: ps =>
    let s1 := (s.landRows v.own g.lslot s.chip p.1 p.2.1 (s.wireRows v p.2.2 p.2.1)).readyAll v.own
    (((((s1.addPushed v s.chip 1).opCount 6 v.wf p.2.1).countMx v p.2.1).chargeReads v.own (v.reads p.2.1)).chargeRows v.own 9 p.2.1
      v.pitch false).landParts v g ps

/-- Does the Bay of a local segment accept it (R114 checks 7 to 9)? none: not ready. Rows that stay on the chip are in
no slab, and R121 says nothing of a Bay that does not fit them: the DISPATCH faults as if a slab of them were refused
(DESIGN CHOICE, log entry 62). -/
def State.localFit (s : State) (v : DspEnv) (lslot first n : Nat) : Option (Option Flt) :=
  let b := s.bcb v.own lslot
  if !s.armed b v.gen false then none
  else if !(List.range ((n + 255) / 256)).all (fun i => s.bayRange v.own b (first + 256 * i) (min 256 (n - 256 * i)))
    then some (some (flt eSlabRange 8))
  else if s.bayElems b ≠ v.n ∨ s.bayFmt b ≠ v.wc ∨ s.bayPitch b ≠ v.pitch then some (some (flt eSlabFormat 8))
  else some none

/-- One reservation at the local Tollgate, with its rows landed (R113, R121). A Bay that does not fit them faults the DISPATCH
(DESIGN CHOICE, log entry 62). -/
def State.localChunk (s : State) (v : DspEnv) (k : Chunk) : Option (Except Flt State) :=
  let b := s.bcb v.own k.lslot
  if !s.armed b v.gen false then none
  else
    let t := s.toll b k.n v.cap
    let s1 := t.2.2.addSeg v.own v.gen v.xid k.bucket t.1 t.2.1 k.rix
    let s2 := s1.updExch v.own v.gen v.xid (fun e => { e with upd := e.upd ++ bucketUpd k.rix k.n t.1 t.2.1 })
    if t.2.1 = 0 then some (.ok s2)
    else match s2.localFit v k.lslot t.1 t.2.1 with
      | some (some f) => some (.error f)
      | _ =>
        let g : Seg := ⟨k.bucket, t.1, t.2.1, k.rix, s.chip, k.lslot, k.repl, k.expert⟩
        some (.ok (s2.landParts v g (segParts v.per g)))

/-- A RESERVE (R113, KIND 0x3). -/
def State.reserve (s : State) (v : DspEnv) (k : Chunk) : Frame :=
  mkFrame (s.slabHdr 3 v.own k.dst v.gen v.xid (k.expert + k.lslot * 2 ^ 16 + k.repl * 2 ^ 28) 0 0 [k.n, v.cap])

/-- Make the reservations that can be made: remote ones join their stream, local ones are taken where the Bay is armed.
Answers those that must be tried again. -/
def State.chunksGo (s : State) (v : DspEnv) : List Chunk → List Chunk × Option Flt × State
  | [] => ([], none, s)
  | k :: ks =>
    if k.dst = s.chip then
      match s.localChunk v k with
      | some (.error f) => (k :: ks, some f, s)
      | some (.ok s1) => s1.chunksGo v ks
      | none =>
        let r := s.chunksGo v ks
        (k :: r.1, r.2.1, r.2.2)
    else
      let s1 := (s.txPush v.own k.dst 4 v.q v.idx [s.reserve v k]).updExch v.own v.gen v.xid
        (fun e => { e with asked := e.asked ++ [k] })
      s1.chunksGo v ks

/-- Land the local segments of an ordered exchange, in order, while their Bays are armed. -/
def State.localSegs (s : State) (v : DspEnv) : List Seg → Bool × Option Flt × State
  | [] => (true, none, s)
  | g :: gs => match s.localFit v g.lslot g.row g.rows with
    | none => (false, none, s)
    | some (some f) => (false, some f, s)
    | some none => (s.landParts v g (segParts v.per g)).localSegs v gs

/-- Segments not yet landed, of local segments of which n slabs have landed. -/
def segsLeft (per : Nat) : Nat → List Seg → List Seg
  | _, [] => []
  | n, g :: gs => let k := (segParts per g).length
                  if k ≤ n then segsLeft per (n - k) gs else g :: gs

/-- The reservations of a DISPATCH in bucket order (R83, R121), without those already answered (R128). -/
def dspChunks (bs : List (Nat × Nat × Nat × Nat × Nat × Nat)) (upd : List RecUpd) : List Chunk :=
  ((List.range bs.length).flatMap (fun i =>
    let b := bs.getD i default
    let first := b.2.2.2.2.1
    let count := b.2.2.2.2.2
    (List.range ((count + 255) / 256)).map (fun r =>
      (⟨b.1, i, b.2.1, b.2.2.1, b.2.2.2.1, first + 256 * r, min 256 (count - 256 * r)⟩ : Chunk)))).filter
    (fun k => !upd.any (fun u => u.rix == k.rix))

/-- Chips that rows of an exchange go to, ascending. -/
def dspDests (bs : List (Nat × Nat × Nat × Nat × Nat × Nat)) : List Nat := bs.foldl (fun l b => insKey b.1 l) []

/-- Checks of DISPATCH at start (R119, R121). SRC and the planes must be LINEAR, the planes writable too (R211): check 1 here.
A plane is held against its rows and bytes alone, in whatever FMT (DESIGN CHOICE, log entry 62). -/
def State.dspChecks (s : State) (own : Nat) (c : Cmd) : Option Flt :=
  let d := s.dsc own c 2
  let src := s.dsc own c 3
  let x := s.dsc own c 4
  let h := s.destHdr d
  let b := s.readXb x
  let w := wireFmt (fld (c.s 5) 26 24)
  let conv := isFloat src.fmt && (w == src.fmt || (src.fmt == 2 && w == 0) || isMx w)
  let bs := s.bucketsOf d h
  firstFlt [need (decide (0x2100 ≤ x.len) && decide (64 ≤ d.len)) eOobDesc 8,
    need (c.s 0 == h.t && conv && src.layout == 0 && (!isMx w || src.d0 % 32 == 0) && decide (src.d0 ≤ 65536)
      && decide (rowBytes w src.d0 ≤ 65536) && b.ok && b.ord == s.ordOf own
      && b.planes.all (fun p => !s.hValid own p || (s.desc own p).linear)) eBadField 8 1,
    need (decide (16 * h.asel ≤ (s.dsc own c 1).len) && decide (destEnd h ≤ d.len) && decide (h.t ≤ src.rows)
      && decide (xbNeed h ≤ x.len)) eOobDesc 8 2,
    need (b.planes.all (fun p => s.hValid own p && decide (h.t ≤ (s.desc own p).rows)
      && decide (src.d0 * ebOf b.rfmt ≤ (s.desc own p).rowB))) eOobDesc 8 2,
    need (!s.tstatOver d h b.k) eBadField 8 3,
    need (!s.part.piers.isEmpty || (b.members == [s.chip] && bs.all (fun y => y.1 == s.chip))) eNoUnit 8 4,
    need (!s.ordOf own || (match s.findExch own c.gen c.xid with
      | some e => e.xchg && decide (8 * h.nbucket ≤ (s.desc own e.ofs).len)
      | none => false)) eBadField 8]

/-- Start of DISPATCH. -/
def startDispatch (s : State) (q : Nat) (c : Cmd) : StartRes :=
  let own := s.owner q
  if s.retired own c.gen then retiredStart s c
  else if s.exchWaits own c.gen c.xid then .wait
  else if (s.queue q).kept.any (fun k => k.idx == c.idx && k.broken) then .flt (flt eExchBroken 8)
  else match s.dspChecks own c with
    | some f => .flt f
    | none => .go (((s.bindExch own c.gen c.xid (c.h 4) (c.h 1) (c.h 2)).updExch own c.gen c.xid
        (fun e => { e with listed := false, todo := [], asked := [] })).repeatSlabs own q c.idx c.gen c.xid) c

/-- The first run of a DISPATCH: in ordered mode the segments of COUNT_XCHG, in free mode the reservations; slabs of
recorded segments that never reached their stream follow (R121, R128). The progress words of the XB are the block's own (log
entry 19). -/
def State.dspList (s : State) (v : DspEnv) (e : Exch) (bs : List (Nat × Nat × Nat × Nat × Nat × Nat)) : State :=
  let ofs := s.desc e.ctx e.ofs
  let xb := s.desc e.ctx e.xb
  let s0 := (s.scramble ((dspDests bs).flatMap (fun d => xb.span (0x2100 + 16 * d) 16))).chargeRows v.own 9 (dspDests bs).length 16 xb.half
  let s1 := if s.ordOf v.own ∧ e.nseg = 0 then
      (List.range bs.length).foldl (fun s i =>
        s.addSeg v.own v.gen v.xid i (s.str32 ofs (8 * i)) (s.str32 ofs (8 * i + 4)) (bs.getD i default).2.2.2.2.1) s0
    else s0
  let s2 := s1.updExch v.own v.gen v.xid (fun x => { x with
    listed := true, todo := if s.ordOf v.own then [] else dspChunks bs x.upd })
  match s2.findExch v.own v.gen v.xid with
  | none => s2
  | some e1 =>
    let gs := s2.segs e1
    (dspDests bs).foldl (fun s d =>
      if d = s.chip then s
      else s.dspPush v d (((gs.filter (fun g => g.dst == d)).flatMap (fun g => s.dspSlabs v g)).drop (e1.sentTo d))) s2

/-- NaN blocks among the rows that a DISPATCH sent (R110). -/
def State.dspNan (s : State) (v : DspEnv) (gs : List Seg) : Nat :=
  if isMx v.wf then
    ((gs.map (fun g => ((List.range g.rows).map (fun i => (s.wireRow v (g.rec_ + i)).2)).sum))).sum else 0

/-- The run of DISPATCH (R121): it lists, sends what may leave, and is complete once every reservation is answered and
every slab acknowledged. A DP1 chip that no row goes to gets its marker in any format: R131 is read of slabs of rows alone
(DESIGN CHOICE, log entry 62). -/
def runDispatch (s : State) (own q : Nat) (c : Cmd) : RunRes :=
  match s.findExch own c.gen c.xid with
  | none => .busy s
  | some e =>
    let v := s.dspEnv own q c
    let d := s.dsc own c 2
    let bs := s.bucketsOf d (s.destHdr d)
    match (dspDests bs).find? (fun m => m != s.chip && s.peerVer m == 1 && !(v.wc == 0 || v.wc == 2)) with
    | some m => .flt s { flt ePeerVersion 8 with peer := m }
    | none =>
      let h := s.destHdr d
      let s1 := if e.listed then s else ((s.dspList v e bs).charge own [2]).chargeReads own
        (d.headReads 64 ++ d.headReads (16 * h.nbucket) ++ (s.dsc own c 4).headReads 0x2100
          ++ (if s.ordOf own then (s.desc own e.ofs).headReads (8 * h.nbucket) else []))
      match s1.findExch own c.gen c.xid with
      | none => .busy s1
      | some e1 =>
        let r := s1.chunksGo v e1.todo
        let s2 := r.2.2.updExch own c.gen c.xid (fun x => { x with todo := r.1 })
        match r.2.1, s2.findExch own c.gen c.xid with
        | some f, _ => .flt s2 f
        | none, none => .busy s2
        | none, some e2 =>
          let gs := s2.segs e2
          let mine := gs.filter (fun g => g.dst == s.chip)
          let l := if s.ordOf own then s2.localSegs v (segsLeft v.per (e2.sentTo s.chip) mine) else (true, none, s2)
          match l.2.1 with
          | some f => .flt l.2.2 f
          | none =>
            let s3 := l.2.2
            if r.1 ≠ [] ∨ e2.asked ≠ [] ∨ !l.1 ∨ s3.txBusy q c.idx then .busy s3
            else
              let nan := s3.dspNan v gs
              let s4 := s3.updCmd q c.idx (fun x => { x with recs := e2.upd })
              .done (s4.chargeRows own 9 e2.upd.length 8 v.rrec.half) [.count 4 (e2.upd.filter (fun u => !u.adm)).length, .count 12 nan,
                .stick 0x524 (if nan = 0 then 0 else 8)]

/-- DISPATCH (R119 to R121). -/
def execDispatch (q : Nat) (i : U32) (s : State) : Host.Outcome State Fault Refusal :=
  .next (s.runCmd q i 0x20 (fun s own c => runDispatch s own q c))

/-- A GRANT, or a STALE in its place, answers the oldest reservation toward a chip: it is recorded as a segment, and its
rows are sent while the DISPATCH runs (R113, R117, R127). -/
def State.granted (s : State) (e : Exch) (k : Chunk) (first rows : Nat) : State :=
  let s1 := s.updExch e.ctx e.gen e.xid (fun x => { x with
    asked := x.asked.filter (fun y => !(y.dst == k.dst && y.rix == k.rix)),
    upd := x.upd ++ bucketUpd k.rix k.n first rows })
  let s2 := s1.addSeg e.ctx e.gen e.xid k.bucket first rows k.rix
  match (s2.cmdsOf e.ctx).find? (fun p => p.2.op == 0x20 && p.2.phase == .started && p.2.gen == e.gen && p.2.xid == e.xid) with
  | none => s2
  | some (q, c) =>
    if rows = 0 then s2
    else
      let v := s2.dspEnv e.ctx q c
      let g : Seg := ⟨k.bucket, first, rows, k.rix, k.dst, k.lslot, k.repl, k.expert⟩
      s2.dspPush v k.dst (s2.dspSlabs v g)

/-- A DISPATCH slab of a context was answered STALE: its records are dropped at commit, also where the DISPATCH has been
killed and is to be rerun (R117, R128). -/
def State.dspStale (s : State) (own : Nat) (f : Frame) : State :=
  match s.findExch own (fGen f) (fXid f) with
  | none => s
  | some e =>
    let gs := (s.segs e).filter (fun g => g.dst == fDst f && g.lslot == fLslot f && decide (g.row ≤ fRow f)
      && decide (fRow f < g.row + g.rows))
    match gs with
    | [] => s
    | g :: _ =>
      let r0 := g.rec_ + (fRow f - g.row)
      let rs := (List.range (fRows f)).map (fun i => r0 + i)
      s.updExch own e.gen e.xid (fun x => { x with
        upd := x.upd.filter (fun u => !rs.contains u.rix) ++ rs.map (fun r => ⟨r, false, 0⟩) })

-- DRAIN

/-- May a DRAIN of a tag, or of every tag, commit (R126)? -/
def State.drained (s : State) (c gen : Nat) (all : Bool) : Bool :=
  let hit (g : Nat) : Bool := all || g == gen
  let slabs := s.tx.any (fun t => t.ctx == c && t.unacked.any (fun o => vcOf (fKind o.f) != 0 && hit (fGen o.f)))
  let lands := s.landings.any (fun l => l.ctx == c && hit l.gen)
  let held := s.exch.any (fun e => e.ctx == c && hit e.gen && s.retired c e.gen)
    || s.arms.any (fun a => a.ctx == c && hit a.gen && s.retired c a.gen)
  !slabs && !lands && !held

/-- Start of DRAIN: it has no check of its own. -/
def startDrain (s : State) (_q : Nat) (c : Cmd) : StartRes := .go s c

/-- DRAIN (R126). -/
def execDrain (q : Nat) (i : U32) (s : State) : Host.Outcome State Fault Refusal :=
  .next (s.runCmd q i 0x22 (fun s own c =>
    if s.drained own (fld (c.s 0) 15 0) (bitOf (c.s 0) 16) then .done s [] else .busy (s.markRan q i)))

end Sys2Proof.Machine
end

