-- ==== Sys2Proof/Machine/Girder.lean ====
section
/-! DEFINITION. The Girder: GROUP_TABLE (R135 to R138, R149) and FEED_ARM (R139 to R148, R150), and the references that
commands take on Caisson buffers (R268, R270, R271). -/
namespace Sys2Proof.Machine

/-- A command takes a reference on the buffer that holds an address, and records it under (GEN, XID) (R268). -/
def State.cmdTake (s : State) (own gen xid unit : Nat) (kind : RefKind) (a : Nat) : Except Flt State :=
  match s.handleAt a with
  | none => .ok s
  | some h =>
    let r : Ref := { ctx := own, gen := gen, xid := xid, kind := kind, handle := u32 h }
    match s.casTest own h true with
    | .ok => .ok { (s.takeRef h) with refs := s.refs ++ [r] }
    | .quar => .ok s
    | .foreign => .error { flt eOobDesc unit with lo := h }
    | .sat => .error { flt eRefSat 0x10 with lo := h }
    | _ => .error { flt eDoubleFree 0x10 with lo := h }

/-- Take references on a list of addresses; the state so far stands beside a fault. -/
def State.cmdTakes (s : State) (own gen xid unit : Nat) (kind : RefKind) : List Nat → Option Flt × State
  | [] => (none, s)
  | a :: l => match s.cmdTake own gen xid unit kind a with
    | .error f => (some f, s)
    | .ok s1 => s1.cmdTakes own gen xid unit kind l

-- GROUP_TABLE

/-- Word j of feed-list entry i. -/
def State.flWord (s : State) (d : Desc) (i j : Nat) : Nat := s.str32 d (32 * i + 4 * j)

def elemsOf (w : Nat) : Nat := if fld w 16 0 = 0 then 65536 else fld w 16 0
/-- Element format of OFMT: 0 FP32, 1 BF16, 2 FP16 (R136). -/
def ofmtOf (w : Nat) : Nat := [2, 0, 1].getD (fld w 21 20) 2

/-- Check 1 of R138 on feed-list entry i. -/
def State.flOk (s : State) (d : Desc) (gate : Bool) (i : Nat) : Bool :=
  let w (j : Nat) : Nat := s.flWord d i j
  let f := fld (w 2) 19 17
  let n := elemsOf (w 2)
  fld (w 0) 31 12 == 0 && fld (w 2) 31 22 == 0 && decide (fld (w 2) 16 0 ≤ 65536) && fld (w 2) 21 20 != 3
    && fld (w 6) 31 20 == 0 && w 7 == 0
    && (if gate then w 0 == i && w 1 == 0 && f == 0
        else w 1 % 128 == 0 && decide (128 ≤ w 1) && decide (w 1 ≤ 1048576) && decide (f ≤ 5) && fld (w 2) 21 20 != 2
          && w 3 == 0 && (!isMx (wireFmt f) || n % 32 == 0) && decide (rowBytes (wireFmt f) n ≤ 65536))

/-- Rows of the index lists in order (R149): (group, token, slot). -/
def State.gateRows (s : State) (d : Desc) (t : Nat) : List (Nat × Nat × Nat) :=
  (List.range t).flatMap (fun r =>
    let g := s.readGRec d r
    if g.nan ∨ g.skip then [] else (List.range g.count).map (fun i => (g.gid.getD i 0, r, i)))

/-- The checks of GROUP_TABLE at start (R138, R149). R149 gives its fault of a GID at or above L no place: it stands
last, with check number 0 (DESIGN CHOICE, log entry 62). -/
def State.gtChecks (s : State) (own : Nat) (c : Cmd) : Option Flt :=
  let gate := bitOf (c.s 3) 0
  let l := c.s 0
  let t := c.s 7
  let fl := s.dsc own c 1
  let seen := min l (fl.len / 32)
  let ix := List.range seen
  let out (i : Nat) : Nat := fld (s.flWord fl i 6) 19 0
  firstFlt [need (ix.all (fun i => s.flOk fl gate i)
      && (gate || distinct (ix.map (fun i => fld (s.flWord fl i 0) 11 0)))) eBadField 10 1,
    need (decide (32 * l ≤ fl.len) && decide (64 + 64 * l ≤ (s.dsc own c 2).len)) eOobDesc 10 2,
    (if gate then need (decide (64 * t ≤ (s.dsc own c 4).len) && decide (t ≤ (s.dsc own c 5).rows)
      && decide (32 * t ≤ (s.dsc own c 6).len)) eOobDesc 10 2 else none),
    need (ix.all (fun i =>
      let o := s.desc own (out i)
      s.hValid own (out i) && (gate || (decide (s.flWord fl i 1 ≤ o.rows)
        && decide (elemsOf (s.flWord fl i 2) * ebOf (ofmtOf (s.flWord fl i 2)) ≤ o.rowB))))) eOobDesc 10 2,
    need (ix.all (fun i => (s.desc own (out i)).linear)) eBadField 10 3,
    (if gate then need ((s.gateRows (s.dsc own c 4) t).all (fun x => decide (x.1 < l))) eBadField 10 else none)]

/-- Start of GROUP_TABLE. -/
def startGroup (s : State) (q : Nat) (c : Cmd) : StartRes :=
  let own := s.owner q
  let gate := bitOf (c.s 3) 0
  startIf s { c with wrote := (s.dsc own c 2).span 0 (64 + 64 * c.s 0)
      ++ (if gate then (s.dsc own c 6).span 0 (4 * (s.gateRows (s.dsc own c 4) (c.s 7)).length) else []) }
    (s.gtChecks own c)

/-- The 64 bytes of a GOT entry that GROUP_TABLE writes (R137). -/
def gotEntry (w : Nat → Nat) (gate : Bool) (m pitch outPitch inA outA idxA : Nat) : List Byte :=
  wordsBytes [fld (w 0) 11 0 + b2n gate * 2 ^ 12, if gate then w 3 else w 1, m, 0, 0, fld (w 2) 21 0, pitch, outPitch]
    ++ natLe 8 inA ++ natLe 8 outA ++ natLe 4 (w 4) ++ natLe 4 (w 5) ++ natLe 8 idxA

/-- The run of GROUP_TABLE. -/
def runGroup (s : State) (own : Nat) (c : Cmd) : RunRes :=
  let gate := bitOf (c.s 3) 0
  let l := c.s 0
  let fl := s.dsc own c 1
  let got := s.dsc own c 2
  let x := s.dsc own c 5
  let idx := s.dsc own c 6
  let rows := if gate then s.gateRows (s.dsc own c 4) (c.s 7) else []
  let cnt (g : Nat) : Nat := (rows.filter (fun r => r.1 == g)).length
  let base (g : Nat) : Nat := (rows.filter (fun r => decide (r.1 < g))).length
  let list := (List.range l).flatMap (fun g => rows.filter (fun r => r.1 == g))
  let ent (i : Nat) : List Byte :=
    let w (j : Nat) : Nat := s.flWord fl i j
    let o := s.desc own (fld (w 6) 19 0)
    if gate then gotEntry w true (cnt i) (x.p1 % 2 ^ 32) (o.p1 % 2 ^ 32) x.base o.base (idx.byteAt (4 * base i))
    else gotEntry w false 0 (pitchOf (rowBytes (wireFmt (fld (w 2) 19 17)) (elemsOf (w 2)))) (o.p1 % 2 ^ 32) 0 o.base 0
  let hdr := wordsBytes ([l + b2n gate * 2 ^ 13] ++ List.replicate 15 0)
  let s1 := (s.strWr got 0 hdr).puts ((List.range l).flatMap (fun i => got.put (64 + 64 * i) (ent i)))
  let s2 := if list.isEmpty then s1
    else s1.strWr idx 0 (list.flatMap (fun r => natLe 4 (r.2.1 + r.2.2 * 2 ^ 24)))
  .done ((s2.charge own [7]).chargeReads own
    (fl.headReads (32 * l) ++ (if gate then (s.dsc own c 4).headReads (64 * c.s 7) else []))) []

/-- GROUP_TABLE (R135 to R138, R149). -/
def execGroupTable (q : Nat) (i : U32) (s : State) : Host.Outcome State Fault Refusal :=
  .next (s.runCmd q i 0x28 (fun s own c => runGroup s own c))

-- FEED_ARM

/-- L and GATE of a GOT header, and the local slots of its entries. -/
def State.gotL (s : State) (d : Desc) : Nat := fld (s.str32 d 0) 12 0
def State.gotGate (s : State) (d : Desc) : Bool := bitOf (s.str32 d 0) 13
def State.gotSlots (s : State) (d : Desc) : List Nat :=
  (List.range (min (s.gotL d) ((d.len - 64) / 64))).map (fun i => fld (s.str32 d (64 + 64 * i)) 11 0)

/-- Does another started and uncommitted FEED_ARM hold the GOT or a Bay of this one (R139)? -/
def State.feedWaits (s : State) (own q : Nat) (c : Cmd) : Bool :=
  let d := s.dsc own c 1
  let mine := if s.gotGate d then [] else s.gotSlots d
  s.started.any (fun p => p.2.op == 0x29 && !(p.1 == q && p.2.idx == c.idx)
    && (let o := s.dsc (s.owner p.1) p.2 1
        o.base == d.base || (s.owner p.1 == own && !s.gotGate o && (s.gotSlots o).any (fun x => mine.contains x))))

/-- A feed that a killed run of this command left (R146). -/
def State.oldFeed (s : State) (q : Nat) (idx : U32) : Option Feed :=
  s.feeds.find? (fun f => f.q == q && f.idx == idx && f.ended)

/-- The checks of FEED_ARM at start (R139), and of its exchange block's mode (R162). -/
def State.faChecks (s : State) (own q : Nat) (c : Cmd) : Option Flt :=
  let d := s.dsc own c 1
  let gate := s.gotGate d
  let slots := s.gotSlots d
  let x := s.dsc own c 2
  let gen := fld (c.s 3) 15 0
  let old := (s.oldFeed q c.idx).isSome
  firstFlt [need (decide (64 ≤ d.len)) eOobDesc 10 1,
    need (decide (64 + 64 * s.gotL d ≤ d.len)) eOobDesc 10 1,
    need (c.s 0 == s.gotL d && (!gate || (c.h 2 == 0 && c.s 3 == 0 && c.s 4 == 0))) eBadField 10 2,
    (if gate then none else firstFlt [
      need (slots.all (fun l => s.bcb own l != 0)) eBadField 10 3,
      need (slots.all (fun l =>
        let w := s.rd32 (s.bcb own l)
        fld w 3 0 == 0 || (old && fld w 31 16 == gen))) eBadField 10 4,
      need (c.h 2 != 0 && decide (xbSegs ≤ x.len)
        && (List.range (min 8 (fld (s.str32 x 0) 7 4))).all (fun i => s.hValid own (fld (s.str32 x (16 + 4 * i)) 19 0)))
        eOobDesc 10 5,
      need (bitOf (s.str32 x 0) 0 == s.ordOf own) eBadField 10])]

/-- Start of FEED_ARM: it waits for the Tap (R344), and for a Bay or table another FEED_ARM holds (R139). -/
def startFeed (s : State) (q : Nat) (c : Cmd) : StartRes :=
  let own := s.owner q
  let gen := fld (c.s 3) 15 0
  if c.h 2 ≠ 0 ∧ s.retired own gen then retiredStart s c
  else if !s.rbit 0x10000 4 ∨ s.feedWaits own q c then .wait
  else if s.rbit 0x10004 1 ∨ (s.queue q).kept.any (fun k => k.idx == c.idx && k.tapBad) then .flt (flt eFeedTimeout 10)
  else match s.faChecks own q c with
    | some f => .flt f
    | none => .go s c

/-- A feed id unique among the open feeds (section Feed of 13_boundary_ports). Log entry 12. -/
def State.newFeedId (s : State) : Nat × State :=
  let used (i : Nat) : Bool := s.feeds.any (fun f => f.id == i && !f.ended)
  let f := (Config.freeFeed s.free).toNat
  let i := if used f then ((List.range (s.feeds.length + 1)).find? (fun i => !used i)).getD 0 else f
  (i, { s with free := s.free + 1 })

/-- Arm the Bay of GOT entry e (R140). -/
def State.armBay (s : State) (own gen xid : Nat) (d : Desc) (e : Nat) : Except (Flt × State) State :=
  let o := 64 + 64 * e
  let lslot := fld (s.str32 d o) 11 0
  let cap := s.str32 d (o + 4)
  let w5 := s.str32 d (o + 20)
  let pitch := pitchOf (rowBytes (wireFmt (fld w5 19 17)) (elemsOf w5))
  let size := 256 * ((cap * pitch + 8 * cap + cap / 128 + 255) / 256)
  match s.alloc own size false false with
  | none => .error (flt ePoolEmpty 0x10, s.allocFail own size)
  | some (h, a, s1) =>
    let land := a + 256 * ((cap * pitch + 255) / 256)
    let tiles := land + 8 * cap
    let b := s.bcb own lslot
    let s2 := s1.wr tiles (List.replicate (cap / 128) 0)
    let s3 := s2.wr b (wordsBytes [1 + gen * 2 ^ 16, cap, fld w5 19 0, pitch, 0, 0, 0, 0] ++ natLe 8 a ++ natLe 8 land
      ++ natLe 4 0 ++ natLe 8 tiles ++ natLe 4 0)
    let s4 := s3.strWr d (o + 32) (natLe 8 a)
    let s5 := s4.strWr d (o + 8) (natLe 12 0)
    let s6 := s5.strWr32 d o (fld (s5.str32 d o) 12 0)
    let r : Ref := { ctx := own, gen := gen, xid := xid, kind := .bay, handle := u32 h }
    let ab : ArmedBay := { ctx := own, gen := gen, xid := xid, lslot := lslot }
    .ok { s6 with refs := s6.refs ++ [r], arms := s6.arms ++ [ab] }

/-- Arm every Bay of a table, from entry e; the state so far stands beside a fault. -/
def State.armBays (s : State) (own gen xid : Nat) (d : Desc) : Nat → Nat → Option Flt × State
  | _, 0 => (none, s)
  | e, k + 1 => match s.armBay own gen xid d e with
    | .error f => (some f.1, f.2)
    | .ok s1 => s1.armBays own gen xid d (e + 1) k

/-- Words of GOT entry e as a Feed word. -/
def State.gotWords (s : State) (d : Desc) (e : Nat) : List Nat :=
  (List.range 16).map (fun j => s.str32 d (64 + 64 * e + 4 * j))

/-- ENTRY, and READY where a count stands, for entries e on (R314, R146, R150). -/
def State.sendEntries (s : State) (d : Desc) (f : Feed) : Nat → List FeedEnt → State
  | _, [] => s
  | e, x :: xs =>
    if f.gate ∧ x.zero then s.sendEntries d f (e + 1) xs
    else
      let s1 := ((s.feedMsg [2 + f.id * 2 ^ 16, e, x.done]).feedMsg (s.gotWords d e)).opCount 23 15 1
      let s2 := if x.ready ≠ 0 ∨ x.closed then s1.sendReady f e x.ready x.closed else s1
      s2.sendEntries d f (e + 1) xs

/-- Open the Feed stream (R314). -/
def State.openFeed (s : State) (d : Desc) (f : Feed) (resume : Bool) : State :=
  let s1 := s.feedMsg [1 + f.id * 2 ^ 16, f.ents.length, 0, b2n f.gate + b2n resume * 2]
  s1.sendEntries d f 0 f.ents

/-- Entries of a gate table at open (R150): each final, ZERO where no token chose it. -/
def State.gateEnts (s : State) (d : Desc) : List FeedEnt :=
  (List.range (s.gotL d)).map (fun e =>
    let m := s.str32 d (64 + 64 * e + 8)
    { lslot := fld (s.str32 d (64 + 64 * e)) 11 0, m := m, ready := m, closed := true, zero := m == 0 })

/-- Write ZERO, CLOSED, READY and DONE of a gate table's entries. -/
def State.gateMark (s : State) (d : Desc) : Nat → List FeedEnt → State
  | _, [] => s
  | e, x :: xs =>
    let o := 64 + 64 * e
    let s1 := s.strWr32 d o (putFld (putFld (s.str32 d o) 13 13 (b2n x.zero)) 14 14 1)
    ((s1.strWr32 d (o + 12) x.m).strWr32 d (o + 16) 0).gateMark d (e + 1) xs

/-- Charge the opening of a feed: its table is read and written, and each Bay control block that it arms (R280). -/
def State.chargeFeed (s : State) (own : Nat) (d : Desc) (bays : Nat) : State :=
  let n := 1 + s.gotL d
  ((((s.charge own [7]).chargeReads own (d.headReads (64 * n))).chargeReads own (flatReads bays 64)).chargeRows own 9 n 64
    d.half).chargeRows own 9 bays 64 false

/-- The first run of a FEED_ARM on an expert table (R140), or its rerun (R146). -/
def State.feedExpert (s : State) (own q : Nat) (c : Cmd) : RunRes :=
  let d := s.dsc own c 1
  let x := s.dsc own c 2
  let gen := fld (c.s 3) 15 0
  let xid := fld (c.s 3) 23 16
  match s.oldFeed q c.idx with
  | some f =>
    let n := s.newFeedId
    let g : Feed := { f with id := n.1, abort := none, ended := false,
                             ents := f.ents.map (fun x => { x with ready := s.readyOf own x }) }
    let s1 : State := { n.2 with feeds := n.2.feeds.filter (fun y => !(y.q == q && y.idx == c.idx)) ++ [g] }
    let s2 := (s1.openFeed d g true).closeFeeds own [g]
    .busy (s2.feedCheck s2.feeds)
  | none =>
    let r := s.armBays own gen xid d 0 (s.gotL d)
    match r.1 with
    | some f => .flt r.2 f
    | none =>
      let ps := (List.range (min 8 (fld (s.str32 x 0) 7 4))).map (fun i => (s.desc own (fld (s.str32 x (16 + 4 * i)) 19 0)).base)
      let t := r.2.cmdTakes own gen xid 10 .plane ps
      match t.1 with
      | some f => .flt t.2 f
      | none =>
        let n := t.2.newFeedId
        let g : Feed := { id := n.1, q := q, idx := c.idx, ctx := own, gen := gen, xid := xid, gate := false, got := c.h 1,
                          dmcnt := fld (s.str32 x 8) 19 0, dmval := u32 (c.s 4),
                          ents := (s.gotSlots d).map (fun l => ({ lslot := l } : FeedEnt)) }
        let s1 := (n.2.strWr32 d 4 (gen + xid * 2 ^ 16)).strWr32 d 8 1
        let s2 : State := { s1 with feeds := s1.feeds ++ [g], fed := s1.fed ++ [(own, gen, xid)] }
        let s3 := (s2.openFeed d g false).closeFeeds own [g]
        .busy ((s3.feedCheck s3.feeds).chargeFeed own d (s.gotL d))

/-- The first run of a FEED_ARM on a gate table, or its rerun (R150, R146). -/
def State.feedGate (s : State) (own q : Nat) (c : Cmd) : RunRes :=
  let d := s.dsc own c 1
  let n := s.newFeedId
  let old := s.oldFeed q c.idx
  let g : Feed := match old with
    | some f => { f with id := n.1, abort := none, ended := false }
    | none => { id := n.1, q := q, idx := c.idx, ctx := own, gen := 0, xid := 0, gate := true, got := c.h 1,
                ents := s.gateEnts d }
  let s1 := if old.isSome then n.2 else ((n.2.strWr32 d 4 0).strWr32 d 8 1).gateMark d 0 g.ents
  let s2 : State := { s1 with feeds := s1.feeds.filter (fun y => !(y.q == q && y.idx == c.idx)) ++ [g] }
  let s3 := s2.openFeed d g old.isSome
  .busy ((s3.feedCheck s3.feeds).chargeFeed own d 0)

/-- The run of FEED_ARM: it arms, opens the feed, and completes as R145 and R150 say. -/
def runFeed (s : State) (own q : Nat) (c : Cmd) : RunRes :=
  if s.feeds.any (fun f => f.q == q && f.idx == c.idx && !f.ended) then .busy (s.feedCheck s.feeds)
  else if c.h 2 ≠ 0 ∧ s.retired own (fld (c.s 3) 15 0) then .done s []
  else if s.gotGate (s.dsc own c 1) then s.feedGate own q c
  else s.feedExpert own q c

/-- FEED_ARM (R139 to R150). -/
def execFeedArm (q : Nat) (i : U32) (s : State) : Host.Outcome State Fault Refusal :=
  .next (s.runCmd q i 0x29 (fun s own c => runFeed s own q c))

end Sys2Proof.Machine
end

