-- ==== Sys2Proof/Machine/Causeway.lean ====
section
/-! DEFINITION. The Causeway: RETURN (R122, R123, R145) and COMBINE (R152 to R159). -/
namespace Sys2Proof.Machine

-- answers at the origin

/-- Where the rows of a RETURN slab go: the plane and the token of each, or none outside one segment (R123). -/
def State.retTargets (s : State) (e : Exch) (src lslot first n : Nat) : Option (List (Desc × Nat)) :=
  match (s.segs e).find? (fun g => g.dst == src && g.lslot == lslot && decide (g.row ≤ first) && decide (first < g.row + g.rows)) with
  | none => none
  | some g =>
    if 256 < n ∨ g.row + g.rows < first + n then none
    else
      let x := s.desc e.ctx e.xb
      let d := s.desc e.ctx e.rrec
      some ((List.range n).map (fun i =>
        let r := g.rec_ + (first + i - g.row)
        let k := fld (s.str32 d (16 * r)) 26 24
        (s.desc e.ctx (fld (s.str32 x (16 + 4 * k)) 19 0), s.recToken d r)))

/-- Place answer rows of B_row bytes at a pitch in their planes (R123). -/
def State.placeRows (s : State) (brow pitch : Nat) (payload : List Byte) : Nat → List (Desc × Nat) → State
  | _, [] => s
  | i, (d, t) :: l =>
    (s.strWr d (t * d.rowB) ((payload.drop (i * pitch)).take brow)).placeRows brow pitch payload (i + 1) l

/-- Charge the writes of answer rows to their planes (R280, R281). -/
def State.chargePlaced (s : State) (own brow : Nat) (ts : List (Desc × Nat)) : State :=
  ts.foldl (fun s p => s.chargeRows own 9 1 brow p.1.half) s

-- RETURN

/-- What a RETURN waits for: another RETURN of its context (R120), and that a FEED_ARM of its exchange has armed every
Bay of its table (R145). -/
def State.retWaits (s : State) (own : Nat) (gen xid : Nat) : Bool :=
  (s.cmdsOf own).any (fun p => p.2.live && p.2.op == 0x21) || !s.fed.contains (own, gen, xid)

def State.findRet (s : State) (own gen xid : Nat) : Option RetRun :=
  s.rets.find? (fun r => r.ctx == own && r.gen == gen && r.xid == xid)
def State.updRet (s : State) (own gen xid : Nat) (g : RetRun → RetRun) : State :=
  { s with rets := s.rets.map (fun r => if r.ctx = own ∧ r.gen = gen ∧ r.xid = xid then g r else r) }

/-- Check 4.. of entry i of OUTTAB (R122): its Bay is armed for GEN, its tensor holds CAP rows of ELEMS. A BF16 tensor under an
RFMT of FP32 is refused with E_BAD_FIELD, since R110 lists no such conversion (DESIGN CHOICE, log entry 62). -/
def State.outtabChk (s : State) (own gen rfmt : Nat) (tab : Desc) (old : Bool) (i : Nat) : Option Flt :=
  let h := s.str32 tab (8 * i)
  let l := s.str16 tab (8 * i + 4)
  let b := s.bcb own l
  let w := s.rd32 b
  let o := s.desc own h
  firstFlt [need (s.str16 tab (8 * i + 6) == 0 && decide (l < 4096) && b != 0) eBadField 11,
    need (old || (fld w 3 0 != 0 && fld w 31 16 == gen)) eBadField 11,
    need (decide (h < 2 ^ 20) && s.hValid own h && decide (s.bayCap b ≤ o.rows) && decide (s.bayElems b ≤ o.d0)) eOobDesc 11,
    need ((o.fmt == 0 || o.fmt == 2) && o.layout == 0 && (o.fmt == rfmt || rfmt == 0)) eBadField 11]

/-- The checks of RETURN at start (R118, R122, R4, R162). R122 gives R4's E_NO_UNIT no place: it stands here after the sizes and
the mode and before the entries of OUTTAB (DESIGN CHOICE, log entry 62). -/
def State.retChecks (s : State) (own : Nat) (c : Cmd) : Option Flt :=
  let tab := s.dsc own c 1
  let x := s.dsc own c 2
  let b := s.readXb x
  let gen := fld (c.s 3) 15 0
  let old := (s.findRet own gen (fld (c.s 3) 23 16)).isSome
  firstFlt ([need (decide (0x2100 ≤ x.len) && decide (8 * c.s 0 ≤ tab.len)) eOobDesc 11,
    need (b.ord == s.ordOf own) eBadField 11,
    need (!s.part.piers.isEmpty || b.members == [s.chip]) eNoUnit 11]
    ++ (List.range (c.s 0)).map (fun i => s.outtabChk own gen b.rfmt tab old i))

/-- Start of RETURN. -/
def startReturn (s : State) (q : Nat) (c : Cmd) : StartRes :=
  let own := s.owner q
  let gen := fld (c.s 3) 15 0
  let xid := fld (c.s 3) 23 16
  if s.retired own gen then retiredStart s c
  else if s.retWaits own gen xid then .wait
  else match s.retChecks own c with
    | some f => .flt f
    | none =>
      match s.findRet own gen xid with
      | some _ => .go ((s.updRet own gen xid (fun r => { r with q := q, idx := c.idx })).repeatSlabs own q c.idx gen xid) c
      | none =>
        let tab := s.dsc own c 1
        let slots := (List.range (c.s 0)).map (fun i => s.str16 tab (8 * i + 4))
        let t := s.cmdTakes own gen xid 11 .ret (slots.map (fun l => s.bayRows (s.bcb own l)))
        match t.1 with
        | some f => .flt f
        | none =>
          let bays := (List.range (c.s 0)).map (fun i =>
            let l := slots.getD i 0
            let b := s.bcb own l
            ({ lslot := l, out := s.str32 tab (8 * i), elems := s.bayElems b, land := s.bayLand b } : RetBay))
          let r : RetRun := { q := q, idx := c.idx, ctx := own, gen := gen, xid := xid, bays := bays }
          let s2 : State := { t.2 with
            rets := t.2.rets ++ [r]
            feeds := t.2.feeds.map (fun f => if f.ctx = own ∧ !f.gate ∧ f.gen = gen ∧ f.xid = xid
              then { f with retSeen := true } else f) }
          .go (s2.feedCheck s2.feeds) c

/-- Of a Bay of a RETURN: DONE, the length of the landing list, and whether it is final (R122, R145). -/
def State.retSeen (s : State) (r : RetRun) (b : RetBay) : Nat × Nat × Bool :=
  match b.nland with
  | some n => (2 ^ 32, n, true)
  | none =>
    let e := (s.feeds.find? (fun f => f.ctx == r.ctx && !f.gate && f.gen == r.gen && f.xid == r.xid)).bind
      (fun f => f.ents.find? (fun e => e.lslot == b.lslot))
    match e with
    | some e => (e.done, s.rd32 (s.bcb r.ctx b.lslot + 48), e.closed)
    | none => (0, 0, false)

/-- Landing-list entry i: source chip, first row, rows (R111). -/
def State.landEnt (s : State) (a i : Nat) : Nat × Nat × Nat :=
  let v := s.rd64 (a + 8 * i)
  (fld v 11 0, fld v 31 12, fld v 40 32)

/-- Insert by ascending (LSLOT, first row). -/
def insSeg (p : Nat × Nat × Nat × RetBay) : List (Nat × Nat × Nat × RetBay) → List (Nat × Nat × Nat × RetBay)
  | [] => [p]
  | q :: l =>
    if p.2.2.2.lslot < q.2.2.2.lslot ∨ (p.2.2.2.lslot = q.2.2.2.lslot ∧ p.2.1 < q.2.1) then p :: q :: l else q :: insSeg p l

/-- The slabs whose rows the array has completed and that have not been handed on, in ascending (LSLOT, first row)
order: source chip, first row, rows, Bay (R122). -/
def State.retReady (s : State) (r : RetRun) (pitch : RetBay → Nat) : List (Nat × Nat × Nat × RetBay) :=
  let all := r.bays.flatMap (fun b =>
    let v := s.retSeen r b
    ((List.range v.2.1).map (fun i => s.landEnt b.land i)).flatMap (fun p =>
      let per := max 1 (min 256 (2 ^ 22 / max 1 (pitch b)))
      if p.2.1 + p.2.2 ≤ v.1 then
        (List.range ((p.2.2 + per - 1) / per)).map (fun k => (p.1, p.2.1 + k * per, min per (p.2.2 - k * per), b))
      else []))
  (all.filter (fun p => !r.sent.contains (p.2.2.2.lslot, p.2.1))).foldl (fun l p => insSeg p l) []

/-- Is every landing of every Bay final and handed on? -/
def State.retDone (s : State) (r : RetRun) (pitch : RetBay → Nat) : Bool :=
  r.bays.all (fun b =>
    let v := s.retSeen r b
    v.2.2 && ((List.range v.2.1).map (fun i => s.landEnt b.land i)).all (fun p => decide (p.2.1 + p.2.2 ≤ v.1)))
    && (s.retReady r pitch).isEmpty

/-- Payload of n answer rows of a Bay from a row, in RFMT at the pitch (R110, R122). -/
def State.retRows (s : State) (o : Desc) (rfmt elems first n : Nat) : List Byte :=
  (List.range n).flatMap (fun i =>
    padTo 32 (convRow o.fmt rfmt elems (s.strRd o ((first + i) * o.rowB) (elems * ebOf o.fmt))).1)

/-- Send or place ready slabs. -/
def State.retSend (s : State) (r : RetRun) (rfmt : Nat) : List (Nat × Nat × Nat × RetBay) → Option Flt × State
  | [] => (none, s)
  | (src, first, n, b) :: l =>
    let o := s.desc r.ctx b.out
    let pay := s.retRows o rfmt b.elems first n
    let mark (s : State) : State := (s.updRet r.ctx r.gen r.xid (fun x => { x with sent := x.sent ++ [(b.lslot, first)] })).chargeReads
      r.ctx ((n, b.elems * ebOf o.fmt, o.half) :: flatReads 1 8)
    if src = s.chip then
      match (s.findExch r.ctx r.gen r.xid).bind (fun e => s.retTargets e src b.lslot first n) with
      | none => (some (flt eSlabRange 11), s)
      | some ts =>
        let brow := rowBytes rfmt b.elems
        if ts.any (fun p => p.1.rowB != brow) then (some (flt eSlabFormat 11), s)
        else (mark ((((s.placeRows brow (pitchOf brow) pay 0 ts).opCount 9 rfmt n).opCount 8 rfmt n).chargePlaced r.ctx brow ts)).retSend r rfmt l
    else
      let f := mkFrame (s.slabHdr 2 r.ctx src r.gen r.xid (b.lslot * 2 ^ 16) (first + n * 2 ^ 20)
        (b.elems + (if rfmt = 2 then 2 else 0) * 2 ^ 17) []) pay
      (mark (s.txPush r.ctx src 2 r.q r.idx [f])).retSend r rfmt l

/-- The run of RETURN: completed segments go out; it is complete once all are acknowledged (R122). -/
def runReturn (s : State) (own q : Nat) (c : Cmd) : RunRes :=
  let gen := fld (c.s 3) 15 0
  let xid := fld (c.s 3) 23 16
  match s.findRet own gen xid with
  | none => .busy s
  | some r =>
    let rfmt := (s.readXb (s.dsc own c 2)).rfmt
    let pitch (b : RetBay) : Nat := pitchOf (rowBytes rfmt b.elems)
    let t := s.retSend r rfmt (s.retReady r pitch)
    match t.1, t.2.findRet own gen xid with
    | some f, _ => .flt t.2 f
    | none, none => .busy t.2
    | none, some r1 =>
      if t.2.retDone r1 pitch ∧ !t.2.txBusy q c.idx then
        .done ((t.2.charge own [2, 3]).chargeReads own ((s.dsc own c 1).headReads (8 * c.s 0))) [.dropRets gen xid]
      else .busy t.2

/-- RETURN (R122, R145). -/
def execRet (q : Nat) (i : U32) (s : State) : Host.Outcome State Fault Refusal :=
  .next (s.runCmd q i 0x21 (fun s own c => runReturn s own q c))

-- COMBINE

/-- The checks of COMBINE at start (R152, R162). -/
def State.cmbChecks (s : State) (own : Nat) (c : Cmd) : Option Flt :=
  let rrec := s.dsc own c 1
  let d := s.dsc own c 2
  let x := s.dsc own c 3
  let out := s.dsc own c 4
  let h := s.destHdr d
  let b := s.readXb x
  let ps := b.planes
  firstFlt [need (decide (0x2100 ≤ x.len) && decide (64 ≤ d.len)) eOobDesc 11,
    need (c.s 0 == h.t && isFloat out.fmt && decide (out.layout ≤ 1) && !out.ro && (s.findExch own c.gen c.xid).isSome
      && b.ord == s.ordOf own && ps.all (fun p => !s.hValid own p || (s.desc own p).layout == 0)) eBadField 11 1,
    need (decide (16 * h.akept ≤ rrec.len) && decide (h.t ≤ out.rows)
      && ps.all (fun p => s.hValid own p && decide (h.t ≤ (s.desc own p).rows)
        && decide (out.d0 * ebOf b.rfmt ≤ (s.desc own p).rowB))) eOobDesc 11 2,
    need (!out.meets rrec && !out.meets d && ps.all (fun p => !out.meets (s.desc own p))) eOverlap 11 3]

/-- Start of COMBINE: on a retired tag it writes nothing (R158), and makes none of R152's checks (DESIGN CHOICE, log entry 62);
without a prefetch wait the prefetch begins (R153). -/
def startCombine (s : State) (q : Nat) (c : Cmd) : StartRes :=
  let own := s.owner q
  if s.retired own c.gen then
    .go s { c with phase := .complete, ran := true, acts := [.count 7 1, .stick 0x600 8] }
  else startIf s { c with pre := c.pre || fld (c.s 6) 21 20 == 0, wrote := (s.dsc own c 4).span 0 (c.s 0 * (s.dsc own c 4).rowB) }
    (s.cmbChecks own c)

/-- The weights of the admitted records: (token, k slot) to FP32 weight (R154). -/
def State.weightTab (s : State) (d : Desc) (n : Nat) : List (Nat × Nat × Nat) :=
  (List.range n).flatMap (fun i =>
    let w := s.str32 d (16 * i)
    if bitOf w 31 then [(fld w 23 0, fld w 26 24, s.str32 d (16 * i + 12))] else [])

/-- An order of the present slots that free mode leaves open (R156), and the next free number. Log entry 9. -/
def pickOrder {α : Type} : Nat → Nat → List α → List α × Nat
  | 0, fr, l => (l, fr)
  | k + 1, fr, l =>
    let i := Config.freePick fr % l.length
    match l.drop i with
    | [] => (l, fr)
    | x :: r =>
      let t := pickOrder k (fr + 1) (l.take i ++ r)
      (x :: t.1, t.2)

/-- One chunk of an output row: each element's sum over the slots in order (R155). -/
def sumChunk (ws : List (K36 × List K36)) (n : Nat) : List K36 :=
  (List.range n).map (fun i => ws.foldl (fun a p => kFma p.1 (p.2.getD i 0) a) 0)

/-- The sums of an output row, chunk by chunk of 512 elements (R155, R156). -/
def sumRow (ord : Bool) (h : Nat) : Nat → Nat → Nat → List (K36 × List K36) → List K36 × Nat
  | 0, _, fr, _ => ([], fr)
  | k + 1, c, fr, ws =>
    let o := if ord then (ws, fr) else pickOrder (ws.length - 1) fr ws
    let n := min 512 (h - c)
    let part := sumChunk (o.1.map (fun p => (p.1, (p.2.drop c).take n))) n
    let r := sumRow ord h k (c + 512) o.2 ws
    (part ++ r.1, r.2)

/-- What COMBINE has met (R157): layer skips, NaN rows, NaN output, overflow, present answers. -/
structure CmbTally where
  skips : Nat := 0
  nans  : Nat := 0
  nanOut : Bool := false
  ovf   : Bool := false
  seen  : Nat := 0

/-- Write output row t (R155, R157). -/
def State.cmbRow (s : State) (own : Nat) (d out : Desc) (e rfmt : Nat) (planes : List Desc)
    (tab : List (Nat × Nat × Nat)) (t : Nat) (y : CmbTally) : CmbTally × State :=
  let put (s : State) (vs : List K36) : State := s.strWr out (t * out.rowB) (rowPack out.fmt vs).1
  let mine := tab.filter (fun x => x.1 == t)
  let slots := (List.range planes.length).flatMap (fun k => match (mine.filter (fun x => x.2.1 == k)).getLast? with
    | some x => [(k, x.2.2)]
    | none => [])
  if bitOf (s.strLe d (destTstat e + t) 1) 4 then
    ({ y with nans := y.nans + 1 }, put s (List.replicate out.d0 kNaN))
  else if slots.isEmpty then ({ y with skips := y.skips + 1 }, put s (List.replicate out.d0 0))
  else
    let ws := slots.map (fun p =>
      let pd := planes.getD p.1 default
      (kOf32 p.2, rowVals rfmt out.d0 (s.strRd pd (t * pd.rowB) (out.d0 * ebOf rfmt))))
    let r := sumRow (s.rbit (win own + 0x700) 0) out.d0 ((out.d0 + 511) / 512) 0 s.free ws
    let pk := rowPack out.fmt r.1
    ({ y with nanOut := y.nanOut || r.1.any kIsNaN, ovf := y.ovf || pk.2.2, seen := y.seen + ws.length },
      put { s with free := r.2 } r.1)

/-- Write rows t on. -/
def State.cmbRows (s : State) (own : Nat) (d out : Desc) (e rfmt : Nat) (planes : List Desc)
    (tab : List (Nat × Nat × Nat)) : Nat → Nat → CmbTally → CmbTally × State
  | 0, _, y => (y, s)
  | k + 1, t, y =>
    let r := s.cmbRow own d out e rfmt planes tab t y
    r.2.cmbRows own d out e rfmt planes tab k (t + 1) r.1

/-- What a COMBINE reads (R154): the records, the DEST header and token statuses, and the answers present of each row
that is summed. -/
def State.cmbReads (s : State) (own : Nat) (c : Cmd) (rfmt : Nat) (planes : List Desc) (tab : List (Nat × Nat × Nat)) :
    List (Nat × Nat × Bool) :=
  let d := s.dsc own c 2
  let h := s.destHdr d
  let on := ((tab.map (fun x => (x.1, x.2.1))).eraseDups).filter (fun x =>
    decide (x.1 < c.s 0) && !bitOf (s.strLe d (destTstat h.e + x.1) 1) 4)
  (s.dsc own c 1).headReads (16 * h.akept) ++ d.headReads 64 ++ d.headReads (c.s 0)
    ++ (List.range planes.length).map (fun k =>
      ((on.filter (fun x => x.2 == k)).length, (s.dsc own c 4).d0 * ebOf rfmt, (planes.getD k default).half))

/-- The run of COMBINE, once its prefetch wait is met (R153); with no token it has nothing to wait for (R37, R158). -/
def runCombine (s : State) (own : Nat) (c : Cmd) : RunRes :=
  if !c.pre ∧ c.s 0 ≠ 0 then .busy s
  else
    let d := s.dsc own c 2
    let out := s.dsc own c 4
    let h := s.destHdr d
    let b := s.readXb (s.dsc own c 3)
    let tab := s.weightTab (s.dsc own c 1) h.akept
    let ps := b.planes.map (fun p => s.desc own p)
    let r := s.cmbRows own d out h.e b.rfmt ps tab (c.s 0) 0 {}
    let y := r.1
    let s1 := ((((r.2.opCount 10 b.rfmt (y.seen * out.d0)).opCount 11 out.fmt (c.s 0 * out.d0)).charge own [3]).chargeReads own
      (s.cmbReads own c b.rfmt ps tab)).chargeRows own 9 (c.s 0) out.rowB out.half
    .done s1 [.count 5 y.skips, .count 6 y.nans,
      .stick 0x600 (b2n (y.nans != 0) + 2 * b2n y.nanOut + 4 * b2n y.ovf), .dropPlanes c.gen c.xid, .unbindExch c.gen c.xid]

/-- COMBINE (R152 to R159). -/
def execCombine (q : Nat) (i : U32) (s : State) : Host.Outcome State Fault Refusal :=
  .next (s.runCmd q i 0x2A (fun s own c => runCombine s own c))

/-- The prefetch of a COMBINE whose prefetch wait is met (R153): it reads only, and has no effect to be seen. Where the
wait has not yet been found met, it is evaluated. -/
def execCombinePrefetch (q : Nat) (i : U32) (s : State) : Host.Outcome State Fault Refusal :=
  .next (match s.findCmd q i with
    | some c => if s.live ∧ c.op = 0x2A ∧ s.ctxRuns (s.owner q) then
        s.updCmd q i (fun c => { c with pre := c.pre || s.preMet (s.owner q) c }) else s
    | none => s)

end Sys2Proof.Machine
end

