-- ==== Sys2Proof/Machine/Gantry.lean ====
section
/-! DEFINITION. The Gantry: COPY (R219 to R222), GATHER, SCATTER, SCATTER_ACC and PAGED_GATHER (R223 to R230), and
FU_APPLY of the Causeway (R249), which shares its element conversions. -/
namespace Sys2Proof.Machine

-- conversions

/-- Zero and sign extensions of R221. -/
def intConv (a b : Nat) : Bool :=
  (a == 3 && (b == 5 || b == 7)) || (a == 5 && b == 7) || (a == 4 && (b == 6 || b == 8)) || (a == 6 && b == 8)

/-- The conversions of R221. -/
def convOk (a b : Nat) : Bool := a == b || fltConv a b || intConv a b

/-- One integer element widened from format a to b. -/
def intExt (a b x : Nat) : Nat :=
  let n := 8 * ebOf a
  if (a = 4 ∨ a = 6) ∧ bitOf x (n - 1) then x + 2 ^ (8 * ebOf b) - 2 ^ n else x

/-- Elements of a row of a format that has element bytes. -/
def rowEls (fmt n : Nat) (row : List Byte) : List Nat :=
  (List.range n).map (fun i => leNat ((row.drop (i * ebOf fmt)).take (ebOf fmt)))

/-- A row of n elements converted from format a to b (R221), and whether a finite value became infinite. -/
def convAny (a b n : Nat) (row : List Byte) : List Byte × Bool :=
  if a = b then (row, false)
  else if intConv a b then ((rowEls a n row).flatMap (fun x => natLe (ebOf b) (intExt a b x)), false)
  else
    let r := rowPack b (rowVals a n row)
    (r.1, r.2.2)

/-- A row of n elements passed through function f and stored in format b (R221, R237): its bytes, whether a finite result
became infinite, and the correction passes. -/
def fuRow (fb : FuBank) (supplied : Bool) (f a b n : Nat) (row : List Byte) : List Byte × Bool × Nat :=
  let xs := rowVals a n row
  if isMx b then ((mxPack b (xs.map (fuEval fb f))).1, false, 0)
  else
    let ys := xs.map (fuShort fb supplied f b)
    (ys.flatMap (fun y => natLe (ebOf b) y),
      (List.range n).any (fun i => fmtInf b (ys.getD i 0) && kFinite (fuEval fb f (xs.getD i 0))),
      (xs.filter (fun x => supplied && decide (b < 2) && fuNear f b x (fuEval fb f x))).length)

/-- A row passed through function f of bank k. -/
def State.fuRow (s : State) (k f a b n : Nat) (row : List Byte) : List Byte × Bool × Nat :=
  Machine.fuRow (s.fuBank k) (fuSupplied s.fu.image (s.fuBank k) f) f a b n row

/-- Column of the FU counters for a destination format (R366): an MX destination takes K36. -/
def fuCol (b : Nat) : Nat := if isMx b then 0xD else b

/-- Count the MX blocks of rows converted between formats (R366 op 26). -/
def State.mxCount (s : State) (a b rows n : Nat) : State :=
  if a ≠ b ∧ (isMx a ∨ isMx b) then s.opCount 26 b (rows * (n / 32)) else s

/-- The Gantry holds four started commands of any contexts (R229). -/
def State.gantryFull (s : State) : Bool :=
  decide (4 ≤ (s.started.filter (fun p => p.2.phase == .started && decide (0x30 ≤ p.2.op) && decide (p.2.op ≤ 0x34))).length)

-- COPY

/-- Extents of a descriptor by dimension. -/
def Desc.dim (d : Desc) (k : Nat) : Nat := [d.d0, d.d1, d.d2, d.d3].getD k 1
/-- Rank. -/
def Desc.rank (d : Desc) : Nat := d.rankm1 + 1

/-- Condition 1 of R222: equal base, layout, rank, extents, pitches, swizzle fields and element size. -/
def Desc.same (a b : Desc) : Bool :=
  a.base == b.base && a.layout == b.layout && a.rankm1 == b.rankm1 && a.d0 == b.d0 && a.d1 == b.d1 && a.d2 == b.d2
    && a.d3 == b.d3 && a.p1 == b.p1 && a.p2 == b.p2 && a.p3 == b.p3 && a.gbc == b.gbc && a.sb == b.sb && a.ss == b.ss
    && a.rowB == b.rowB

/-- May a descriptor be the destination of a Gantry command: LINEAR or SWIZZLE, writable (R211)? -/
def Desc.gtyDst (d : Desc) : Bool := decide (d.layout ≤ 1) && !d.ro

def cpPerm (w k : Nat) : Nat := fld w (2 * k + 1) (2 * k)
def cpRev (w d : Nat) : Bool := bitOf w (8 + d)
def cpRdim (w : Nat) : Nat := fld w 13 12

/-- Does source dimension d change under PERM, REV or the rotation of a COPY? -/
def cpChanges (w ramt d : Nat) : Bool := cpPerm w d != d || cpRev w d || (cpRdim w == d && ramt != 0)

/-- Source index of destination index j (R219). -/
def cpIndex (sd : Desc) (w ramt : Nat) (j : List Nat) : List Nat :=
  (List.range 4).map (fun d =>
    let k := ((List.range 4).find? (fun k => cpPerm w k == d)).getD 0
    let i := j.getD k 0
    let r := if cpRev w d then sd.dim d - 1 - i else i
    if cpRdim w = d then (r + ramt) % sd.dim d else r)

/-- Is a copy between intersecting extents tile-local (R222)? -/
def tileLocal (sd dd : Desc) (w ramt : Nat) : Bool :=
  sd.same dd && (List.range 4).all (fun d =>
    !cpChanges w ramt d || (decide (d ≤ 1) && decide (sd.dim d ≤ 64)) || sd.dim d == 1)

/-- Is a COPY or SCATTER one of class D (R35, R52): its output meets its input? -/
def Cmd.inPlace (s : State) (own : Nat) (c : Cmd) : Bool :=
  (c.op == 0x30 && (s.dsc own c 1).meets (s.dsc own c 2)) || (c.op == 0x32 && (s.dsc own c 1).meets (s.dsc own c 3))

/-- The checks of COPY at start (R219, R222, R245). -/
def State.copyChecks (s : State) (own : Nat) (c : Cmd) : Option Flt :=
  let sd := s.dsc own c 1
  let dd := s.dsc own c 2
  let w := c.s 3
  let f := c.s 5
  let mx := isMx sd.fmt || isMx dd.fmt
  firstFlt [need ((List.range 4).all (fun k => decide (k < sd.rank) || cpPerm w k == k)) eBadField 13,
    need (decide (c.s 4 < sd.dim (cpRdim w))) eBadField 13,
    need ((List.range 4).all (fun k => dd.dim k == sd.dim (cpPerm w k))) eBadField 13,
    need (if f = 0 then convOk sd.fmt dd.fmt else fltConv sd.fmt dd.fmt) eBadField 13,
    need (dd.gtyDst && sd.layout != 2) eBadField 13,
    need (!(mx && cpChanges w (c.s 4) 0)) eBadField 13,
    need (decide (c.s 0 ≤ dd.rows)) eBadField 13,
    if f = 0 then none else s.fuCheck f 13,
    need (!sd.meets dd || tileLocal sd dd w (c.s 4)) eOverlap 13]

/-- Start of COPY. -/
def startCopy (s : State) (q : Nat) (c : Cmd) : StartRes :=
  let own := s.owner q
  if s.gantryFull then .wait
  else
    let dd := s.dsc own c 2
    startIf s { c with wrote := dd.span 0 (c.s 0 * dd.rowB), fuB := if c.s 5 = 0 then none else some s.fuLive }
      (s.copyChecks own c)

/-- Bytes of destination row r as source bytes: a whole MX row, or element by element (R217, R219). -/
def State.copyRow (s : State) (sd dd : Desc) (w ramt r : Nat) : List Byte :=
  let j (i0 : Nat) : List Nat := [i0, r % dd.d1, r / dd.d1 % dd.d2, r / (dd.d1 * dd.d2)]
  if isMx sd.fmt then
    let i := cpIndex sd w ramt (j 0)
    (List.range sd.rowB).map (fun o => s.rd8 (sd.at_ o (i.getD 1 0) (i.getD 2 0) (i.getD 3 0)))
  else
    let eb := ebOf sd.fmt
    (List.range dd.d0).flatMap (fun i0 =>
      let i := cpIndex sd w ramt (j i0)
      (List.range eb).map (fun o => s.rd8 (sd.at_ (i.getD 0 0 * eb + o) (i.getD 1 0) (i.getD 2 0) (i.getD 3 0))))

/-- The run of COPY: every source row is read before a row is written, as a tile-local copy reads each block (R222). -/
def runCopy (s : State) (own : Nat) (c : Cmd) : RunRes :=
  let sd := s.dsc own c 1
  let dd := s.dsc own c 2
  let f := c.s 5
  let n := dd.d0
  let raw := (List.range (c.s 0)).map (fun r => s.copyRow sd dd (c.s 3) (c.s 4) r)
  let fb := s.fuBank (c.fuB.getD 0)
  let rows : List (List Byte × Bool × Nat) := raw.map (fun x =>
    if f = 0 then
      let y := convAny sd.fmt dd.fmt n x
      (y.1, y.2, 0)
    else s.fuRow (c.fuB.getD 0) f sd.fmt dd.fmt n x)
  let s1 := (List.range (c.s 0)).foldl (fun s r => s.strWr dd (r * dd.rowB) (rows.getD r default).1) s
  let s2 := ((s1.opCount 12 sd.fmt (c.s 0 * n)).opCount 13 dd.fmt (c.s 0 * n)).mxCount sd.fmt dd.fmt (c.s 0) n
  let s3 := if f = 0 then s2
    else (s2.fuCharge own f (c.s 0 * n) fb (fuCol dd.fmt)).opCount 19 (fuCol dd.fmt) ((rows.map (fun r => r.2.2)).sum)
  .done (((s3.charge own [4]).chargeReads own [(c.s 0, if isMx sd.fmt then sd.rowB else n * ebOf sd.fmt, sd.half)]).chargeRows own 9
      (c.s 0) dd.rowB dd.half)
    [.stick 0x900 (8 * b2n (rows.any (fun r => r.2.1)) + 4 * b2n (c.s 0 != 0 && (sd.half || dd.half)))]

/-- COPY (R219 to R222). -/
def execCopy (q : Nat) (i : U32) (s : State) : Host.Outcome State Fault Refusal :=
  .next (s.runCmd q i 0x30 (fun s own c => runCopy s own c))

-- the indexed commands

/-- Index j of an index list (R223). -/
def State.index (s : State) (d : Desc) (j : Nat) : Int := (BitVec.ofNat 32 (s.str32 d (4 * j))).toInt

/-- The rows that indices 0 to n - 1 name, of R rows; none where out of bounds. -/
def State.indices (s : State) (d : Desc) (n rows : Nat) : List (Option Nat) :=
  (List.range n).map (fun j =>
    let x := s.index d j
    if 0 ≤ x ∧ x < rows then some x.toNat else none)

/-- The checks of the four indexed commands at start (R223, R226, R227). -/
def State.idxChecks (s : State) (own : Nat) (c : Cmd) : Option Flt :=
  let sd := s.dsc own c 1
  let ix := s.dsc own c 2
  let dd := s.dsc own c 3
  let n := c.s 0
  let gather := c.op == 0x31 || c.op == 0x34
  let fmts := if c.op = 0x33 then sd.fmt == dd.fmt && (isFloat dd.fmt || dd.fmt == 7 || dd.fmt == 8)
    else convOk sd.fmt dd.fmt
  let lay := match c.op with
    | 0x34 => sd.layout == 2
    | 0x31 => sd.layout != 2
    | _ => decide (sd.layout ≤ 1)
  let inPlace := sd.meets dd
  firstFlt [need (sd.d0 == dd.d0 && fmts && dd.gtyDst && lay) eBadField 13,
    need (ix.fmt == 8 && ix.layout == 0 && ix.rankm1 == 0) eBadField 13,
    need (decide (n ≤ ix.d0) && decide (n ≤ (if gather then dd else sd).rows)) eOobDesc 13,
    need (!dd.meets ix) eOverlap 13,
    need (!inPlace || (c.op == 0x32 && sd.same dd && decide (sd.d0 ≤ 64)
      && (List.range n).all (fun j => match (s.indices ix n dd.rows).getD j none with
        | some x => x / 64 == j / 64
        | none => true))) eOverlap 13]

/-- Start of an indexed command; what it writes are the destination rows that its in-bounds indices name. -/
def startIndexed (s : State) (q : Nat) (c : Cmd) : StartRes :=
  let own := s.owner q
  if s.gantryFull then .wait
  else match s.idxChecks own c with
    | some f => .flt f
    | none =>
      let dd := s.dsc own c 3
      let wrote := if c.op = 0x31 ∨ c.op = 0x34 then dd.span 0 (c.s 0 * dd.rowB)
        else (s.indices (s.dsc own c 2) (c.s 0) dd.rows).flatMap (fun x => match x with
          | some r => dd.span (r * dd.rowB) dd.rowB
          | none => [])
      .go s { c with wrote := wrote }

/-- A row of FILL (R223). -/
def Desc.fillRow (d : Desc) : List Byte :=
  if isMx d.fmt then List.replicate d.rowB 0 else (List.range d.d0).flatMap (fun _ => natLe (ebOf d.fmt) d.fill)

/-- Where row x of a PAGED tensor lies: an address, no page, or a bad entry (R217, R228). -/
def State.pagedRow (s : State) (own : Nat) (d : Desc) (x : Nat) : Except Flt (Option Nat) :=
  let rpp := 2 ^ d.ps / d.p1
  let pl := s.desc own d.plist
  let e := s.strLe pl (8 * (x / rpp)) 8
  let page := fld e 47 12 * 2 ^ 12
  if !bitOf e 0 then .ok none
  else if fld e 11 1 ≠ 0 ∨ fld e 63 48 ≠ 0 ∨ page % 2 ^ d.ps ≠ 0 ∨ !s.inWindow own page (2 ^ d.ps) then
    .error { code := eOobDesc, unit := 13, lo := page % 2 ^ 32, hi := page / 2 ^ 32 }
  else .ok (some (page + x % rpp * d.p1))

/-- What a gather has met: rows gathered; rows of FILL for an index, for a page; overflow; a row read from the source. -/
structure GatherTally where
  rows : Nat := 0
  oob  : Nat := 0
  inv  : Nat := 0
  ovf  : Bool := false
  read : Bool := false

/-- Gather rows from destination row j on; stops at a bad page entry (R223, R228). -/
def State.gatherRows (s : State) (own : Nat) (sd dd : Desc) : Nat → List (Option Nat) → GatherTally →
    Option Flt × GatherTally × State
  | _, [], y => (none, y, s)
  | j, x :: xs, y =>
    let put (s : State) (row : List Byte) : Bool × State :=
      let r := convAny sd.fmt dd.fmt sd.d0 row
      (r.2, s.strWr dd (j * dd.rowB) r.1)
    match x with
    | none =>
      let r := put s sd.fillRow
      r.2.gatherRows own sd dd (j + 1) xs { y with rows := y.rows + 1, oob := y.oob + 1, ovf := y.ovf || r.1 }
    | some k =>
      if sd.layout = 2 then
        match s.pagedRow own sd k with
        | .error f => (some f, y, s)
        | .ok none =>
          let r := put s sd.fillRow
          r.2.gatherRows own sd dd (j + 1) xs { y with rows := y.rows + 1, inv := y.inv + 1, ovf := y.ovf || r.1 }
        | .ok (some a) =>
          let r := put s (s.rd a sd.rowB)
          r.2.gatherRows own sd dd (j + 1) xs { y with rows := y.rows + 1, ovf := y.ovf || r.1, read := true }
      else
        let r := put s (s.strRd sd (k * sd.rowB) sd.rowB)
        r.2.gatherRows own sd dd (j + 1) xs { y with rows := y.rows + 1, ovf := y.ovf || r.1, read := true }

/-- The run of GATHER and PAGED_GATHER. Rows gathered before a bad page entry count too (R367). -/
def runGather (s : State) (own op : Nat) (c : Cmd) : RunRes :=
  let sd := s.dsc own c 1
  let dd := s.dsc own c 3
  let n := c.s 0
  let r := s.gatherRows own sd dd 0 (s.indices (s.dsc own c 2) n sd.rows) {}
  let y := r.2.1
  let pages := if sd.layout = 2 then flatReads (y.rows - y.oob) 8 else []
  let s1 := ((((r.2.2.opCount op dd.fmt y.rows).mxCount sd.fmt dd.fmt y.rows sd.d0).charge own [4]).chargeReads own
    ((s.dsc own c 2).headReads (4 * n) ++ pages ++ sd.rowReads (y.rows - y.oob - y.inv))).chargeRows own 9 y.rows dd.rowB dd.half
  match r.1 with
  | some f => .flt s1 f
  | none =>
    .done s1 [.count 13 (y.oob + y.inv),
      .stick 0x900 (b2n (y.oob != 0) + 4 * b2n ((y.read && sd.half) || (n != 0 && dd.half)) + 8 * b2n y.ovf
        + 16 * b2n (y.inv != 0))]

/-- GATHER (R223, R224). -/
def execGather (q : Nat) (i : U32) (s : State) : Host.Outcome State Fault Refusal :=
  .next (s.runCmd q i 0x31 (fun s own c => runGather s own 14 c))

/-- PAGED_GATHER (R228). -/
def execPagedGather (q : Nat) (i : U32) (s : State) : Host.Outcome State Fault Refusal :=
  .next (s.runCmd q i 0x34 (fun s own c => runGather s own 17 c))

/-- The rows a scatter moves: (j, destination row), in ascending j. -/
def scatterPairs (ix : List (Option Nat)) : List (Nat × Nat) :=
  (List.range ix.length).flatMap (fun j => match ix.getD j none with
    | some x => [(j, x)]
    | none => [])

/-- The run of SCATTER: every source row is read before a row is written; the last j wins (R225, R227). -/
def runScatter (s : State) (own : Nat) (c : Cmd) : RunRes :=
  let sd := s.dsc own c 1
  let dd := s.dsc own c 3
  let ps := scatterPairs (s.indices (s.dsc own c 2) (c.s 0) dd.rows)
  let rows := ps.map (fun p => (p.2, convAny sd.fmt dd.fmt sd.d0 (s.strRd sd (p.1 * sd.rowB) sd.rowB)))
  let s1 := rows.foldl (fun s r => s.strWr dd (r.1 * dd.rowB) r.2.1) s
  let drop := c.s 0 - ps.length
  let s2 := ((((s1.opCount 15 dd.fmt ps.length).mxCount sd.fmt dd.fmt ps.length sd.d0).charge own [4]).chargeReads own
    ((s.dsc own c 2).headReads (4 * c.s 0) ++ sd.rowReads ps.length)).chargeRows own 9 ps.length dd.rowB dd.half
  .done s2 [.count 14 drop,
    .stick 0x900 (2 * b2n (drop != 0) + 4 * b2n (!ps.isEmpty && (sd.half || dd.half)) + 8 * b2n (rows.any (fun r => r.2.2)))]

/-- SCATTER (R223, R225). -/
def execScatter (q : Nat) (i : U32) (s : State) : Host.Outcome State Fault Refusal :=
  .next (s.runCmd q i 0x32 (fun s own c => runScatter s own c))

/-- One addition of SCATTER_ACC in a format (R226). -/
def accEl (fmt a b : Nat) : Nat :=
  if isFloat fmt then fmtEnc fmt (fvAdd (fmtDec fmt a) (fmtDec fmt b)) else (a + b) % 2 ^ 32

/-- The run of SCATTER_ACC: ascending j in ordered mode; in free mode an order that timing leaves open (R226). -/
def runScatterAcc (s : State) (own : Nat) (c : Cmd) : RunRes :=
  let sd := s.dsc own c 1
  let dd := s.dsc own c 3
  let ps := scatterPairs (s.indices (s.dsc own c 2) (c.s 0) dd.rows)
  let o := if s.ordOf own then (ps, s.free) else pickOrder (ps.length - 1) s.free ps
  let s0 : State := { s with free := o.2 }
  let s1 := o.1.foldl (fun s p =>
    let a := rowEls dd.fmt dd.d0 (s.strRd dd (p.2 * dd.rowB) dd.rowB)
    let b := rowEls sd.fmt sd.d0 (s.strRd sd (p.1 * sd.rowB) sd.rowB)
    s.strWr dd (p.2 * dd.rowB) ((List.range dd.d0).flatMap (fun i => natLe (ebOf dd.fmt) (accEl dd.fmt (a.getD i 0) (b.getD i 0))))) s0
  let drop := c.s 0 - ps.length
  .done ((((s1.opCount 16 dd.fmt (ps.length * dd.d0)).charge own [4]).chargeReads own
    ((s.dsc own c 2).headReads (4 * c.s 0) ++ sd.rowReads ps.length ++ dd.rowReads ps.length)).chargeRows own 9 ps.length dd.rowB
      dd.half) [.count 14 drop,
    .stick 0x900 (2 * b2n (drop != 0) + 4 * b2n (!ps.isEmpty && (sd.half || dd.half)))]

/-- SCATTER_ACC (R226). -/
def execScatterAcc (q : Nat) (i : U32) (s : State) : Host.Outcome State Fault Refusal :=
  .next (s.runCmd q i 0x33 (fun s own c => runScatterAcc s own c))

end Sys2Proof.Machine
end

