-- ==== Sys2Proof/Machine/Tables.lean ====
section
/-! DEFINITION. The commands that load tables: FU_LOAD (R243, R244) and FU_APPLY (R249), MAP_LOAD (R92 to R94), PUBLISH
(R95), DESC_CREATE and DESC_RETIRE (R213 to R216), and POOL_CONFIG (R264, R265). -/
namespace Sys2Proof.Machine

-- FU_LOAD and FU_APPLY

/-- Is a bank of the FU tables bound by a started command or a live job (R244, R245)? -/
def State.fuBound (s : State) (b : Nat) : Bool :=
  s.anyStarted (fun _ c => c.fuB == some b) || s.jobs.any (fun j => j.fuB == some b)

/-- Start of FU_LOAD (R243, R244): the shadow bank is no longer marked loaded. -/
def startFuLoad (s : State) (q : Nat) (c : Cmd) : StartRes :=
  let own := s.owner q
  if s.fuBound (1 - s.fuLive) || s.anyStarted (fun _ x => x.op == 0x4C) then .wait
  else
    let d := s.dsc own c 3
    match firstFlt [need (decide ((if bitOf (c.s 1) 0 then 8 else 1024) * c.s 0 ≤ d.len)) eOobDesc 14,
        need (!(bitOf (c.s 1) 1 && s.rbit 0x80004 3)) eUncorrectable 14] with
    | some f => .flt f
    | none => .go (s.setRbit 0x80004 1 false) c

/-- Load words or records, stopping at the first that breaks R240 to R242. -/
def fuLoadGo (seed : Bool) (b : FuBank) (k : Nat) : List (List Byte) → Bool × FuBank
  | [] => (true, b)
  | x :: xs =>
    if seed then
      if fuSeedOk (leNat x) then
        fuLoadGo seed { b with seed := FMap.set 0 b.seed k (BitVec.ofNat 36 (leNat x)) } (k + 1) xs
      else (false, b)
    else if fuRecOk x then fuLoadGo seed (recPut b k x) (k + 1) xs
    else (false, b)

/-- The run of FU_LOAD: into the shadow bank, after a copy of the live one with CLONE. -/
def runFuLoad (s : State) (own : Nat) (c : Cmd) : RunRes :=
  let d := s.dsc own c 3
  let seed := bitOf (c.s 1) 0
  let sh := 1 - s.fuLive
  let b0 := if bitOf (c.s 1) 1 then s.fuBank s.fuLive else s.fuBank sh
  let sz := if seed then 8 else 1024
  let r := fuLoadGo seed b0 (c.s 2) ((List.range (c.s 0)).map (fun i => s.strRd d (sz * i) sz))
  let s1 := s.setFuBank sh r.2
  if r.1 then .done (s1.chargeReads own (d.headReads (sz * c.s 0))) [.fuLoaded] else .flt s1 (flt eBadField 14)

/-- FU_LOAD (R243). -/
def execFuLoad (q : Nat) (i : U32) (s : State) : Host.Outcome State Fault Refusal :=
  .next (s.runCmd q i 0x4C (fun s own c => runFuLoad s own c))

/-- Start of FU_APPLY (R249). -/
def startFuApply (s : State) (q : Nat) (c : Cmd) : StartRes :=
  let own := s.owner q
  let sd := s.dsc own c 1
  let dd := s.dsc own c 2
  startIf s { c with wrote := dd.span 0 (c.s 0 * dd.rowB), fuB := some s.fuLive }
    (firstFlt [s.fuCheck (c.s 3) 14,
      need (sd.rankm1 == dd.rankm1 && (List.range 4).all (fun k => sd.dim k == dd.dim k)
        && (isFloat sd.fmt || isMx sd.fmt) && isFloat dd.fmt && dd.gtyDst && decide (sd.layout ≤ 1)
        && decide (c.s 0 ≤ dd.rows)) eBadField 14,
      need (!sd.meets dd) eOverlap 14])

/-- The run of FU_APPLY. -/
def runFuApply (s : State) (own : Nat) (c : Cmd) : RunRes :=
  let sd := s.dsc own c 1
  let dd := s.dsc own c 2
  let fb := s.fuBank (c.fuB.getD 0)
  let n := dd.d0
  let rows := (List.range (c.s 0)).map (fun r => s.fuRow (c.fuB.getD 0) (c.s 3) sd.fmt dd.fmt n (s.strRd sd (r * sd.rowB) sd.rowB))
  let s1 := (List.range (c.s 0)).foldl (fun s r => s.strWr dd (r * dd.rowB) (rows.getD r default).1) s
  let s2 := ((s1.mxCount sd.fmt dd.fmt (c.s 0) n).fuCharge own (c.s 3) (c.s 0 * n) fb dd.fmt).opCount 19 dd.fmt
    ((rows.map (fun r => r.2.2)).sum)
  .done ((s2.chargeReads own (sd.rowReads (c.s 0))).chargeRows own 9 (c.s 0) dd.rowB dd.half)
    [.stick 0x900 (8 * b2n (rows.any (fun r => r.2.1)) + 4 * b2n (c.s 0 != 0 && (sd.half || dd.half)))]

/-- FU_APPLY (R249). -/
def execFuApply (q : Nat) (i : U32) (s : State) : Host.Outcome State Fault Refusal :=
  .next (s.runCmd q i 0x4D (fun s own c => runFuApply s own c))

-- MAP_LOAD

/-- Is bank b of a map slot bound by a started command, or by a live job, which keeps what its ADMIT bound until it ends (R94,
R96)? R94 names started commands only: that the job holds a MAP_LOAD back is a DESIGN CHOICE (log entry 58). -/
def State.mapBound (s : State) (slot b : Nat) : Bool :=
  let hit (m : Option (Nat × U32)) : Bool := match m with
    | some (sl, e) => sl == slot && e.toNat % 2 == b
    | none => false
  s.anyStarted (fun _ c => hit c.mapB) || s.jobs.any (fun j => hit j.mapB)

/-- Is a MAP_LOAD of a slot in flight (R94, R95)? -/
def State.mapLoading (s : State) (slot : Nat) : Bool :=
  s.anyStarted (fun q c => c.op == 0x4A && s.layerSlot (s.owner q) (c.s 1) == some slot)

/-- Start of MAP_LOAD (R93, R94): the shadow bank is no longer marked loaded. -/
def startMapLoad (s : State) (q : Nat) (c : Cmd) : StartRes :=
  let own := s.owner q
  match (if s.rbit 0x30008 0 then s.layerSlot own (c.s 1) else none) with
  | none => .flt (flt eNoMap 7)
  | some sl =>
    let sh := 1 - s.mapEpoch sl % 2
    if s.mapBound sl sh || s.mapLoading sl then .wait
    else
      let s1 : State := { s.setMapStat sl 1 false with
        mapLines := s.mapLines.filter (fun l => !(l.slot == sl && l.bank == sh)) }
      if (s.dsc own c 2).len < 64 + 16 * c.s 0 then .fltS s1 (flt eOobDesc 7)
      else .go s1 { c with wrote := [(s.mapLine sl sh, 64), (s.mapEnts sl sh, 16 * c.s 0)] }

/-- The (chip, slot) pairs of an entry. -/
def entPairs (e : Nat) : List Nat := (List.range (entReps e)).map (fun i => entChip e i * 4096 + entSlot e i)

/-- Does an entry obey R92, pairs of other entries aside? -/
def entOk (e : Nat) : Bool :=
  fld e 127 102 == 0 && (List.range 4).all (fun i => decide (i < entReps e)
    || (entChip e i == 0 && entSlot e i == 0 && !entLive e i))

/-- The checks of a map image (R91, R92): its header and entries, and a chip that can be reached. Every entry is looked at for
E_BAD_FIELD before any is for E_NO_UNIT (DESIGN CHOICE, log entry 58: R93 orders faults no further than by "any entry"). -/
def State.mapImgChecks (s : State) (own : Nat) (c : Cmd) : Option Flt :=
  let d := s.dsc own c 2
  let n := c.s 0
  let w (i : Nat) : Nat := s.str32 d (4 * i)
  let ents := (List.range n).map (fun j => s.strLe d (64 + 16 * j) 16)
  let hdrOk := w 0 == n && fld (w 1) 31 13 == 0 && decide (1 ≤ w 1) && decide (w 1 ≤ 4096)
    && (List.range 13).all (fun i => w (3 + i) == 0) && (s.part.variant != 2 || decide (n ≤ 4096))
  firstFlt [need (hdrOk && ents.all entOk && distinct (ents.flatMap entPairs)) eBadField 7,
    need (!s.part.piers.isEmpty
      || ents.all (fun e => (List.range (entReps e)).all (fun i => entChip e i == s.chip))) eNoUnit 7]

/-- The run of MAP_LOAD: the image, checked, into the shadow bank (R91 to R93). -/
def runMapLoad (s : State) (own : Nat) (c : Cmd) : RunRes :=
  match s.layerSlot own (c.s 1) with
  | none => .busy s
  | some sl =>
    let d := s.dsc own c 2
    let sh := 1 - s.mapEpoch sl % 2
    match s.mapImgChecks own c with
    | some f => .flt s f
    | none =>
      let s1 := (s.wr (s.mapLine sl sh) (s.strRd d 0 64)).wr (s.mapEnts sl sh) (s.strRd d 64 (16 * c.s 0))
      .done (s1.chargeReads own (d.headReads (64 + 16 * c.s 0))) [.mapLoaded sl]

/-- MAP_LOAD (R93). -/
def execMapLoad (q : Nat) (i : U32) (s : State) : Host.Outcome State Fault Refusal :=
  .next (s.runCmd q i 0x4A (fun s own c => runMapLoad s own c))

-- PUBLISH

/-- Slots a context owns (R91). -/
def State.slotCount (s : State) (own : Nat) : Nat := if own < 16 then s.rf (0x30100 + 8 * own) 16 8 else 0

/-- Does a CAMBER_UPDATE or CAMBER_ACCUM name a slot of its context? -/
def State.camberNames (s : State) (own : Nat) (c : Cmd) (slot : Nat) : Bool :=
  let l0 := fld (c.s 0) 7 0
  c.op == 0x3D && (List.range (fld (c.s 0) 16 8)).any (fun i => s.layerSlot own (l0 + i) == some slot)

/-- Is a CAMBER_UPDATE of a slot in flight (R95, R205)? -/
def State.camberBusy (s : State) (slot : Nat) : Bool := s.anyStarted (fun q c => s.camberNames (s.owner q) c slot)

/-- Start of PUBLISH (R95, R244). -/
def startPublish (s : State) (q : Nat) (c : Cmd) : StartRes :=
  startIf s c (need (bitOf (c.s 1) 2 || decide (fld (c.s 0) 7 0 + fld (c.s 0) 16 8 ≤ s.slotCount (s.owner q))) eBadField 7)

/-- Flip what a PUBLISH names of one slot, at its commit (R95). -/
def State.flipSlot (s : State) (map bias : Bool) (slot : Nat) : State :=
  let s1 := if map && s.mapStat slot 1 && !s.mapLoading slot then
      ((s.setMapStat slot 0 true).setMapStat slot 1 false).setReg (0x31000 + 8 * slot) (s.mapEpoch slot + 1)
    else s
  if bias && s1.biasW.contains slot && !s1.camberBusy slot then
    let s2 : State := { s1 with biasW := s1.biasW.filter (fun x => x != slot) }
    s2.setReg (0x61100 + 4 * slot) (s2.cmbEpoch slot + 1)
  else s1

/-- Flip the FU banks (R244, R248). -/
def State.flipFu (s : State) : State :=
  if s.rbit 0x80004 1 && !s.anyStarted (fun _ x => x.op == 0x4C) then
    (((s.setReg 0x80000 (s.reg 0x80000 + 1)).setRbit 0x80004 1 false).setRbit 0x80004 0 true).setRbit 0x80004 3 false
  else s

/-- What a PUBLISH does at its commit. -/
def State.publishAct (s : State) (own first n : Nat) (map bias fu : Bool) : State :=
  if fu then s.flipFu
  else (List.range n).foldl (fun s i => match s.layerSlot own (first + i) with
    | some sl => s.flipSlot map bias sl
    | none => s) s

/-- PUBLISH (R95): its work is its commit. -/
def execPublish (q : Nat) (i : U32) (s : State) : Host.Outcome State Fault Refusal :=
  .next (s.runCmd q i 0x4B (fun s _ c =>
    .done s [.publish (fld (c.s 0) 7 0) (fld (c.s 0) 16 8) (bitOf (c.s 1) 0) (bitOf (c.s 1) 1) (bitOf (c.s 1) 2)]))

-- DESC_CREATE

/-- Row span and EXTENT of a descriptor (R214). -/
def Desc.rowSpan (d : Desc) : Nat :=
  let up (n g : Nat) : Nat := (n + g - 1) / g * g
  match d.layout with
  | 1 => up d.rowB (2 ^ (4 + d.gbc + d.sb))
  | 3 => up d.rowB 256
  | _ => d.rowB
def Desc.extent (d : Desc) : Nat :=
  match d.layout with
  | 2 => 0
  | 3 => 8192 * ((d.d1 + 31) / 32) * (d.rowSpan / 256)
  | _ => (d.d1 - 1) * d.p1 + (d.d2 - 1) * d.p2 + (d.d3 - 1) * d.p3 + d.rowSpan

/-- HALF of a descriptor (R214). -/
def Desc.isHalf (d : Desc) : Bool :=
  decide (d.layout ≤ 1) && (d.base % 256 != 0 || (d.d1 != 1 && d.p1 % 256 != 0) || (d.d2 != 1 && d.p2 % 256 != 0)
    || (d.d3 != 1 && d.p3 % 256 != 0))

/-- Check 3 of R213 on the words of an image. -/
def imgOk (w : Nat → Nat) : Bool :=
  let d := descOf w
  let rsv := fld (w 0) 7 7 == 0 && fld (w 0) 15 11 == 0 && fld (w 0) 23 22 == 0 && fld (w 0) 31 29 == 0
    && fld (w 2) 31 16 == 0 && (List.range 4).all (fun i => fld (w (3 + i)) 31 25 == 0) && fld (w 9) 31 16 == 0
    && fld (w 11) 31 16 == 0 && fld (w 13) 31 20 == 0 && w 14 == 0 && w 15 == 0
  let ext (n : Nat) : Bool := decide (1 ≤ n) && decide (n ≤ 16777216)
  let dims := ext d.d0 && ext d.d1 && ext d.d2 && ext d.d3 && (decide (1 ≤ d.rankm1) || (d.d1 == 1 && d.p1 == 0))
    && (decide (2 ≤ d.rankm1) || (d.d2 == 1 && d.p2 == 0)) && (d.rankm1 == 3 || (d.d3 == 1 && d.p3 == 0))
  let other := (d.layout == 1 || (d.gbc == 0 && d.sb == 0 && d.ss == 0)) && (d.layout == 2 || (d.ps == 0 && d.plist == 0))
    && (d.layout != 1 || d.sb != 0)
  let fill := if isMx d.fmt then d.fill == 0 else decide (d.fill < 2 ^ (8 * ebOf d.fmt))
  decide (d.fmt ≤ 0xC) && decide (d.layout ≤ 3) && rsv && dims && other && fill

/-- The checks of R213 in their order, on the image's words. -/
def State.descChecks (s : State) (own : Nat) (c : Cmd) (w : Nat → Nat) : Option Flt :=
  let h := c.h 0
  let a := c.s 1 + 2 ^ 32 * c.s 2
  let d := descOf w
  let eb := ebOf d.fmt
  let mx := isMx d.fmt
  let g := 2 ^ (4 + d.gbc + d.sb)
  let rpp := 2 ^ d.ps / max 1 d.p1
  let pl := s.desc own d.plist
  let k1 := d.rankm1 == 1 && d.ro && (d.fmt == 0 || d.fmt == 2) && d.base % 4096 == 0 && d.p1 == 0
  let pg := d.rankm1 == 1 && d.ro && d.base == 0 && decide (12 ≤ d.ps) && decide (d.ps ≤ 21) && d.p1 % 256 == 0
    && decide (d.rowB ≤ d.p1) && decide (d.p1 ≤ 2 ^ d.ps)
  let plOk := s.hValid own d.plist && !s.retiring own d.plist && pl.fmt == 9 && pl.layout == 0 && pl.rankm1 == 0
    && decide ((d.d1 + rpp - 1) / rpp ≤ pl.d0)
  let lap := (decide (1 ≤ d.rankm1) && decide (d.p1 < d.rowSpan)) || (decide (2 ≤ d.rankm1) && decide (d.p2 < d.d1 * d.p1))
    || (d.rankm1 == 3 && decide (d.p3 < d.d2 * d.p2))
  let busy := s.anyStarted (fun q x => s.owner q == own && x.op == 0x48 && x.h 0 == h)
  (firstFlt [need (h != 0 && decide (h < s.reg (kdsc own + 8)) && s.inWindow own a 64) eOobDesc 1 1,
    need (a % 64 == 0 && !(s.desc own h).valid && !s.retiring own h && !busy) eBadField 1 2,
    need (imgOk w) eBadField 1 3,
    need (mx || [d.base, d.p1, d.p2, d.p3].all (fun x => x % eb == 0)) eBadField 1 4,
    need (!mx || (d.d0 % 32 == 0 && decide (d.layout ≤ 1))) eBadField 1 5,
    need (d.layout != 1 || (d.base % g == 0 && d.p1 % g == 0)) eBadField 1 6,
    need (d.layout != 3 || k1) eBadField 1 7,
    need (d.layout != 2 || pg) eBadField 1 8,
    need (d.layout != 2 || plOk) eOobDesc 1 9,
    need (d.ro || !lap) eOverlap 1 10,
    need (d.extent == 0 || (s.inWindow own d.base d.extent && decide (d.base + d.extent ≤ 2 ^ 48))) eOobDesc 1 11]).map
    (fun f => { f with lo := h })

/-- Start of DESC_CREATE: the image is read and checked; the entry is stored at commit (R213, R214). -/
def startDescCreate (s : State) (q : Nat) (c : Cmd) : StartRes :=
  let own := s.owner q
  let a := c.s 1 + 2 ^ 32 * c.s 2
  let ws := (List.range 16).map (fun i => s.rd32 (a + 4 * i))
  let w (i : Nat) : Nat := ws.getD i 0
  match s.descChecks own c w with
  | some f => .flt f
  | none =>
    let d := descOf w
    let x := d.extent % 2 ^ 48 + 2 ^ 62 * b2n d.isHalf + 2 ^ 63
    .go s { c with acts := [.write (s.descAddr own (c.h 0)) (wordsBytes (ws.take 14) ++ natLe 8 x), .descSync (c.h 0) 1] }

/-- DESC_CREATE (R213): its entry awaits the commit. -/
def execDescCreate (q : Nat) (i : U32) (s : State) : Host.Outcome State Fault Refusal :=
  .next (s.runCmd q i 0x48 (fun s own _ => .done (s.chargeReads own (flatReads 1 64)) []))

-- DESC_RETIRE

/-- Start of DESC_RETIRE: the valid handles of the range are marked retiring (R216); one that is retiring already is no
valid handle. -/
def startDescRetire (s : State) (q : Nat) (c : Cmd) : StartRes :=
  let own := s.owner q
  let n := min (c.s 1) (s.reg (kdsc own + 8) - c.h 0)
  .go s { c with retire := ((List.range n).map (fun i => c.h 0 + i)).filter (fun h => s.hValid own h && !s.retiring own h) }

/-- Does a command of an owner, or one that was killed, hold a binding on a handle of a list (R215)? -/
def State.anyBinds (s : State) (own : Nat) (hs : List Nat) : Bool :=
  (s.cmdsOf own).any (fun p => p.2.binds.any (fun h => hs.contains h))
    || (List.range 64).any (fun q => s.owner q == own
      && (s.queue q).kept.any (fun k => k.binds.any (fun h => hs.contains h)))

/-- Does a binding on a handle of a DESC_RETIRE's range still stand (R216)? -/
def State.rangeBound (s : State) (own : Nat) (c : Cmd) : Bool :=
  let n := min (c.s 1) (s.reg (kdsc own + 8) - c.h 0)
  s.anyBinds own ((List.range n).map (fun k => c.h 0 + k))

/-- DESC_RETIRE (R216): complete once no command binds a handle of the range; VALID is cleared at commit. -/
def execDescRetire (q : Nat) (i : U32) (s : State) : Host.Outcome State Fault Refusal :=
  .next (s.runCmd q i 0x49 (fun s own c =>
    if s.rangeBound own c then .busy s
    else .done s (c.retire.flatMap (fun h =>
      let a := s.descAddr own h + 60
      [Act.write a (natLe 4 (putFld (s.rd32 a) 31 31 0)), .descSync h 1]))))

-- POOL_CONFIG

/-- Do two address ranges meet? -/
def rangesMeet (a n b m : Nat) : Bool := decide (a < b + m) && decide (b < a + n)

/-- Start of POOL_CONFIG (R264). -/
def startPoolConfig (s : State) (_q : Nat) (c : Cmd) : StartRes :=
  let p := fld (c.s 1) 2 0
  let n := c.s 0
  let base := c.s 2 + 2 ^ 32 * c.s 3
  let mt := c.s 4 + 2 ^ 32 * c.s 5
  let sz := fld (c.s 1) 12 8
  let mine := [(base, n * 2 ^ sz), (mt, 8 * n)]
  let clash := (List.range 8).any (fun o => o != p && s.poolCount o != 0
    && mine.any (fun x => rangesMeet x.1 x.2 (s.poolBase o) (s.poolCount o * 2 ^ s.poolSz o)
      || rangesMeet x.1 x.2 (s.poolMeta o) (8 * s.poolCount o)))
  let bufs := (List.range (s.poolCount p)).map (fun i => s.bufWord p i)
  startIf s { c with wrote := if n = 0 then [] else [(mt, 8 * n)] }
    (firstFlt [need (n == 0 || !clash) eBadField 16,
      need (bufs.all (fun w => fld w 7 0 == 0 && !bitOf w 21)) eBadField 16,
      need (bufs.all (fun w => !bitOf w 22)) eBadField 16])

/-- POOL_CONFIG: the metadata is written, and the registers at commit (R264, R265). -/
def execPoolConfig (q : Nat) (i : U32) (s : State) : Host.Outcome State Fault Refusal :=
  .next (s.runCmd q i 0x4E (fun s _ c =>
    let n := c.s 0
    let mt := c.s 4 + 2 ^ 32 * c.s 5
    let s1 := if n = 0 then s
      else s.wr mt (List.replicate (4 * n) 0 ++ (List.range n).flatMap (fun k => natLe 4 (n - 1 - k)))
    .done s1 [.pool (fld (c.s 1) 2 0)
      (u32 (n + fld (c.s 1) 12 8 * 2 ^ 21 + b2n (bitOf (c.s 1) 16) * 2 ^ 26)) (u32 (c.s 2)) (u32 (c.s 3)) (u32 (c.s 4))
      (u32 (c.s 5)) (u32 (c.s 6)) (u32 n)]))

end Sys2Proof.Machine
end

