-- ==== Sys2Proof/Machine/Ledger.lean ====
section
/-! DEFINITION. The Ledger (R289 to R300): its table, LEDGER_ADMIT, LEDGER_STEP and LEDGER_RETIRE. -/
namespace Sys2Proof.Machine

/-- Ledger table of an owner (R290). -/
def State.ldgBase (s : State) (own : Nat) : Nat := s.rpair (win own + 0xD00)
/-- Word j of the table header, and of entry e. -/
def State.ldgHdr (s : State) (own j : Nat) : Nat := s.rd32 (s.ldgBase own + 4 * j)
def State.ldgEnt (s : State) (own e : Nat) : List Nat :=
  (List.range 16).map (fun j => s.rd32 (s.ldgBase own + 64 + 64 * e + 4 * j))

/-- Field accessors of an entry's words. -/
def lState (w : List Nat) : Nat := fld (w.getD 0 0) 1 0
def lLc (w : List Nat) : Bool := bitOf (w.getD 0 0) 2
def lRid (w : List Nat) : Nat := w.getD 1 0
def lSteps (w : List Nat) : Nat := fld (w.getD 2 0) 11 0
def lDone (w : List Nat) : Nat := fld (w.getD 2 0) 27 16
def lWait (w : List Nat) : Nat := fld (w.getD 3 0) 15 0
def lTok (w : List Nat) : Nat := fld (w.getD 4 0) 24 0
def lSeq (w : List Nat) : Nat := w.getD 6 0

/-- The entries that are not free, with their slots, ascending. -/
def State.ldgUsed (s : State) (own : Nat) : List (Nat × List Nat) :=
  ((List.range 4096).map (fun e => (e, s.ldgEnt own e))).filter (fun p => lState p.2 != 0)

/-- The write of entry e at commit. -/
def State.ldgPut (s : State) (own e : Nat) (w : List Nat) : Act := .write (s.ldgBase own + 64 + 64 * e) (wordsBytes w)
/-- The write of header words from word j at commit. -/
def State.ldgHdrPut (s : State) (own j : Nat) (w : List Nat) : Act := .write (s.ldgBase own + 4 * j) (wordsBytes w)

/-- One Ledger command runs at a time for the whole block (R291). -/
def State.ldgBusy (s : State) : Bool :=
  s.anyStarted (fun _ c => decide (0x40 ≤ c.op) && decide (c.op ≤ 0x42))

-- LEDGER_ADMIT

/-- Start of LEDGER_ADMIT (R292). -/
def startLedgerAdmit (s : State) (q : Nat) (c : Cmd) : StartRes :=
  if s.ldgBusy then .wait
  else
    let d := s.dsc (s.owner q) c 1
    startIf s c (firstFlt [
      need (fld (s.str32 d 0) 3 0 == 3
        && (fld (s.str32 d 12) 3 0 == 1 || fld (s.str32 d 12) 3 0 == 2)) eBadField 17,
      need (decide (64 + 32 * c.s 0 ≤ d.len)) eOobDesc 17])

/-- What LEDGER_ADMIT carries from record to record: RIDs present, free slots, ASEQ, the new entries, the answers. -/
structure AdmitSt where
  rids : List Nat
  free : List Nat
  aseq : Nat
  ents : List (Nat × List Nat) := []
  ans  : List (Nat × Nat) := []

/-- Take one intake record (R292). -/
def AdmitSt.take (x : AdmitSt) (w : List Nat) : AdmitSt :=
  let g (i : Nat) : Nat := w.getD i 0
  let n := fld (g 1) 11 0
  let tok := fld (g 2) 24 0
  if n = 0 ∨ fld (g 1) 15 12 ≠ 0 ∨ fld (g 1) 31 17 ≠ 0 ∨ fld (g 2) 31 25 ≠ 0 ∨ tok = 0 ∨ 16777216 < tok ∨ g 7 ≠ 0 then
    { x with ans := x.ans ++ [(0xFFFF, 3)] }
  else if x.rids.contains (g 0) then { x with ans := x.ans ++ [(0xFFFF, 2)] }
  else match x.free with
    | [] => { x with ans := x.ans ++ [(0xFFFF, 1)] }
    | e :: es =>
      let ent := [1 + b2n (bitOf (g 1) 16) * 4, g 0, n, 0, tok, g 3, x.aseq, 0, g 4, g 5, 0, 0, 0, 0, 0, 0]
      { rids := g 0 :: x.rids, free := es, aseq := (x.aseq + 1) % 2 ^ 32, ents := x.ents ++ [(e, ent)],
        ans := x.ans ++ [(e, 0)] }

/-- Charge a read of the whole table: its header and 4,096 entries of 64 bytes (R291, R300). -/
def State.chargeTable (s : State) (own : Nat) : State := s.chargeReads own (flatReads 4097 64)

/-- The run of LEDGER_ADMIT: all its effects await commit. -/
def runLedgerAdmit (s : State) (own : Nat) (c : Cmd) : RunRes :=
  let d := s.dsc own c 1
  let used := s.ldgUsed own
  let slots := used.map (fun p => p.1)
  let x0 : AdmitSt := { rids := used.map (fun p => lRid p.2),
                        free := (List.range 4096).filter (fun e => !slots.contains e), aseq := s.ldgHdr own 1 }
  let x := (List.range (c.s 0)).foldl (fun x i =>
    x.take ((List.range 8).map (fun j => s.str32 d (64 + 32 * i + 4 * j)))) x0
  let full := (x.ans.filter (fun a => a.2 == 1)).length
  let bad := x.ans.any (fun a => a.2 == 2 || a.2 == 3)
  let own0 := s.str32 d 0
  let st := if full ≠ 0 then 2 else if bad then 3 else 1
  let w0 := fld (s.str32 d 12) 3 0 + st * 2 ^ 4 + (fld own0 31 16 + 1) % 2 ^ 16 * 2 ^ 16
  let act := (used.filter (fun p => lState p.2 == 1)).length + x.ents.length
  let put (k v : Nat) : List Act := (d.put k (natLe 4 v)).map (fun p => .write p.1 p.2)
  .done ((s.chargeTable own).chargeReads own (d.headReads (64 + 32 * c.s 0)))
    (x.ents.map (fun p => s.ldgPut own p.1 p.2)
      ++ [s.ldgHdrPut own 1 [x.aseq, act], s.ldgHdrPut own 4 [0, min (s.ldgHdr own 5 + full) 0xFFFFFFFF],
        .stick 0xD08 (b2n (full != 0))]
      ++ (List.range (c.s 0)).flatMap (fun i =>
        let a := x.ans.getD i (0, 0)
        put (64 + 32 * i + 24) (a.1 + a.2 * 2 ^ 16))
      ++ put 8 x.ents.length ++ put 0 w0)

/-- LEDGER_ADMIT (R292). -/
def execLedgerAdmit (q : Nat) (i : U32) (s : State) : Host.Outcome State Fault Refusal :=
  .next (s.runCmd q i 0x40 (fun s own c => runLedgerAdmit s own c))

-- LEDGER_STEP

/-- Insert an entry by ascending admission sequence. -/
def insSeq (p : Nat × List Nat) : List (Nat × List Nat) → List (Nat × List Nat)
  | [] => [p]
  | q :: l => if lSeq p.2 < lSeq q.2 then p :: q :: l else q :: insSeq p l
/-- Insert an entry by descending wait, then ascending sequence. -/
def insWait (p : Nat × List Nat) : List (Nat × List Nat) → List (Nat × List Nat)
  | [] => [p]
  | q :: l =>
    if lWait q.2 < lWait p.2 ∨ (lWait q.2 = lWait p.2 ∧ lSeq p.2 < lSeq q.2) then p :: q :: l else q :: insWait p l

/-- What a build carries: the selected (slot, entry, offset), the passed (slot, entry), and its totals (R293). -/
structure BuildSt where
  sel   : List (Nat × List Nat × Nat) := []
  pass  : List (Nat × List Nat) := []
  used  : Nat := 0
  beu   : Nat := 0
  block : Bool := false

/-- One latency-critical request of a build (R293). -/
def BuildSt.lc (b : Nat) (x : BuildSt) (p : Nat × List Nat) : BuildSt :=
  if x.used + lTok p.2 ≤ b then { x with sel := x.sel ++ [(p.1, p.2, x.used)], used := x.used + lTok p.2 }
  else { x with pass := x.pass ++ [p] }

/-- One best-effort request of a build (R293). -/
def BuildSt.be (cap smax : Nat) (x : BuildSt) (p : Nat × List Nat) : BuildSt :=
  if !x.block ∧ x.beu + lTok p.2 ≤ cap then
    { x with sel := x.sel ++ [(p.1, p.2, x.used)], used := x.used + lTok p.2, beu := x.beu + lTok p.2 }
  else { x with pass := x.pass ++ [p], block := x.block || (smax != 0 && decide (smax ≤ lWait p.2)) }

/-- Select the requests of a build: after the latency-critical ones, and after all (R293). -/
def build (ents : List (Nat × List Nat)) (b res smax : Nat) : BuildSt × BuildSt :=
  let act := ents.filter (fun p => lState p.2 == 1)
  let x1 := ((act.filter (fun p => lLc p.2)).foldl (fun l p => insSeq p l) []).foldl (BuildSt.lc b) {}
  let cap := b - max x1.used res
  (x1, ((act.filter (fun p => !lLc p.2)).foldl (fun l p => insWait p l) []).foldl (BuildSt.be cap smax) x1)

/-- Start of LEDGER_STEP (R293, R297). The bytes of WLIST, IDX and TMAP beyond the batch stay as they are (R294). -/
def startLedgerStep (s : State) (q : Nat) (c : Cmd) : StartRes :=
  let own := s.owner q
  if s.ldgBusy then .wait
  else if bitOf (c.s 5) 16 then startIf s c (need (bitOf (s.ldgHdr own 4) 0) eBadField 17)
  else
    let wl := s.dsc own c 1
    let big (i : Nat) : Bool := c.h i == 0 || decide (4 * c.s 0 ≤ (s.dsc own c i).len)
    match firstFlt [need (decide (c.s 4 ≤ c.s 0) && s.ldgBase own != 0) eBadField 17,
        need (decide (64 + 32 * s.ldgHdr own 2 ≤ wl.len) && big 2 && big 3) eOobDesc 17] with
    | some f => .flt f
    | none =>
      let x := (build (s.ldgUsed own) (c.s 0) (c.s 4) (fld (c.s 5) 15 0)).2
      let sp (i n : Nat) : List (Nat × Nat) := if c.h i = 0 then [] else (s.dsc own c i).span 0 n
      .go s { c with wrote := wl.span 0 (64 + 32 * x.sel.length) ++ sp 2 (4 * x.used) ++ sp 3 (4 * x.used) }

/-- An entry of the table after a build: U_ fields saved, then the new WAIT, DONE, LAST and STATE (R295). -/
def ldgBuilt (w : List Nat) (sel : Bool) (sseq : Nat) : List Nat :=
  let w1 := ((w.set 3 (putFld (w.getD 3 0) 31 16 (lWait w))).set 10 (lDone w + lState w * 2 ^ 12)).set 11 (w.getD 7 0)
  if sel then
    let dn := lDone w + 1
    (((w1.set 3 (putFld (w1.getD 3 0) 15 0 0)).set 2 (putFld (w.getD 2 0) 27 16 dn)).set 7 sseq).set 0
      (putFld (w.getD 0 0) 1 0 (if dn = lSteps w then 2 else 1))
  else w1.set 3 (putFld (w1.getD 3 0) 15 0 (min (lWait w + 1) 0xFFFF))

/-- The run of a build: the outputs are written, the table at commit (R293 to R295). -/
def runLedgerBuild (s : State) (own : Nat) (c : Cmd) : RunRes :=
  let wl := s.dsc own c 1
  let smax := fld (c.s 5) 15 0
  let used := s.ldgUsed own
  let r := build used (c.s 0) (c.s 4) smax
  let x := r.2
  let lcDef := r.1.pass.length
  let sseq := (s.ldgHdr own 0 + 1) % 2 ^ 32
  let selEnts := x.sel.map (fun p => (p.1, ldgBuilt p.2.1 true sseq))
  let ents := selEnts ++ x.pass.map (fun p => (p.1, ldgBuilt p.2 false sseq))
  let nact := (ents.filter (fun p => lState p.2 == 1)).length
  let ndone := (used.filter (fun p => lState p.2 == 2)).length + (ents.filter (fun p => lState p.2 == 2)).length
  let hdr := [x.used, x.sel.length, sseq, r.1.used, x.beu, x.pass.length, nact, ndone, 0, 0, 0, 0, 0, 0, 0, 0]
  let wle := x.sel.flatMap (fun p =>
    [p.1 + b2n (lLc p.2.1) * 2 ^ 12 + (lDone p.2.1 + 1) * 2 ^ 16, lRid p.2.1, p.2.2, lTok p.2.1, p.2.1.getD 5 0,
      lSteps p.2.1, p.2.1.getD 8 0, p.2.1.getD 9 0])
  let s1 := s.strWr wl 0 (wordsBytes (hdr ++ wle))
  let s2 := if c.h 2 = 0 then s1 else s1.strWr (s.dsc own c 2) 0 (x.sel.flatMap (fun p =>
    (List.range (lTok p.2.1)).flatMap (fun t => natLe 4 (p.2.1.getD 5 0 + t))))
  let s3 := if c.h 3 = 0 then s2 else s2.strWr (s.dsc own c 3) 0 (x.sel.flatMap (fun p =>
    (List.range (lTok p.2.1)).flatMap (fun _ => natLe 4 (p.1 + (lDone p.2.1 + 1) * 2 ^ 12))))
  let passed := x.pass.length - lcDef
  let starve := smax != 0 && (x.pass.any (fun p => !lLc p.2 && decide (smax ≤ min (lWait p.2 + 1) 0xFFFF)))
  .done ((s3.opCount 27 15 x.sel.length).chargeTable own)
    (ents.map (fun p => s.ldgPut own p.1 p.2)
      ++ [s.ldgHdrPut own 0 [sseq], s.ldgHdrPut own 2 [nact, ndone, 1],
        s.ldgHdrPut own 6 [min (s.ldgHdr own 6 + passed) 0xFFFFFFFF, min (s.ldgHdr own 7 + lcDef) 0xFFFFFFFF],
        .stick 0xD08 (2 * b2n (lcDef != 0) + 4 * b2n starve)])

/-- An entry after an undo (R297). -/
def ldgUndone (w : List Nat) : List Nat :=
  (((w.set 3 (putFld (w.getD 3 0) 15 0 (fld (w.getD 3 0) 31 16))).set 2
    (putFld (w.getD 2 0) 27 16 (fld (w.getD 10 0) 11 0))).set 7 (w.getD 11 0)).set 0
    (putFld (w.getD 0 0) 1 0 (fld (w.getD 10 0) 13 12))

/-- The run of an undo: the entries that the last build saved are restored at commit (R297, log entry 40). -/
def runLedgerUndo (s : State) (own : Nat) : RunRes :=
  let sseq := s.ldgHdr own 0
  let used := s.ldgUsed own
  let saved (p : Nat × List Nat) : Bool := lState p.2 == 1 || (lState p.2 == 2 && p.2.getD 7 0 == sseq)
  let ents := (used.filter saved).map (fun p => (p.1, ldgUndone p.2))
  let all := ents ++ used.filter (fun p => !saved p)
  .done (s.chargeTable own)
    (ents.map (fun p => s.ldgPut own p.1 p.2)
      ++ [s.ldgHdrPut own 0 [(sseq + 2 ^ 32 - 1) % 2 ^ 32],
        s.ldgHdrPut own 2 [(all.filter (fun p => lState p.2 == 1)).length, (all.filter (fun p => lState p.2 == 2)).length, 0],
        .stick 0xD08 8])

/-- LEDGER_STEP (R293 to R297). -/
def execLedgerStep (q : Nat) (i : U32) (s : State) : Host.Outcome State Fault Refusal :=
  .next (s.runCmd q i 0x41 (fun s own c => if bitOf (c.s 5) 16 then runLedgerUndo s own else runLedgerBuild s own c))

-- LEDGER_RETIRE

/-- Requests that LEDGER_RETIRE can list (R298). -/
def State.ldgOut (s : State) (own : Nat) (c : Cmd) : Nat :=
  match fld (c.s 1) 1 0 with
  | 0 => s.ldgHdr own 3
  | 1 => c.s 0
  | _ => s.ldgHdr own 2 + s.ldgHdr own 3

/-- Start of LEDGER_RETIRE (R298). -/
def startLedgerRetire (s : State) (q : Nat) (c : Cmd) : StartRes :=
  let own := s.owner q
  if s.ldgBusy then .wait
  else
    let o := s.dsc own c 3
    let n := 16 + 16 * s.ldgOut own c
    startIf s { c with wrote := o.span 0 n }
      (need (decide (n ≤ o.len) && (fld (c.s 1) 1 0 != 1 || decide (4 * c.s 0 ≤ (s.dsc own c 2).len))) eOobDesc 17)

/-- The run of LEDGER_RETIRE: OUT is written, the table at commit. -/
def runLedgerRetire (s : State) (own : Nat) (c : Cmd) : RunRes :=
  let used := s.ldgUsed own
  let hit : List (Nat × Option (Nat × List Nat)) := match fld (c.s 1) 1 0 with
    | 0 => (used.filter (fun p => lState p.2 == 2)).map (fun p => (lRid p.2, some p))
    | 1 => (List.range (c.s 0)).map (fun i =>
        let rid := s.str32 (s.dsc own c 2) (4 * i)
        (rid, used.find? (fun p => lRid p.2 == rid)))
    | _ => used.map (fun p => (lRid p.2, some p))
  let ents := hit.flatMap (fun h => match h.2 with
    | some p => [h.1, p.1, lSteps p.2 + lDone p.2 * 2 ^ 16, 0]
    | none => [h.1, 0xFFFF, 0, 0])
  let gone := hit.flatMap (fun h => match h.2 with
    | some p => [p.1]
    | none => [])
  let left := used.filter (fun p => !gone.contains p.1)
  let s1 := s.strWr (s.dsc own c 3) 0 (wordsBytes ([hit.length, 0, 0, 0] ++ ents))
  .done ((s1.chargeTable own).chargeReads own (if fld (c.s 1) 1 0 = 1 then (s.dsc own c 2).headReads (4 * c.s 0) else []))
    (gone.map (fun e => s.ldgPut own e (List.replicate 16 0))
      ++ [s.ldgHdrPut own 2 [(left.filter (fun p => lState p.2 == 1)).length, (left.filter (fun p => lState p.2 == 2)).length, 0]])

/-- LEDGER_RETIRE (R298). -/
def execLedgerRetire (q : Nat) (i : U32) (s : State) : Host.Outcome State Fault Refusal :=
  .next (s.runCmd q i 0x42 (fun s own c => runLedgerRetire s own c))

end Sys2Proof.Machine
end

