-- ==== Sys2Proof/Machine/Ring.lean ====
section
/-! DEFINITION. The Trestle (R179 to R197): the collective commands, the segments of a ring, and CAMBER_ACCUM and
CAMBER_UPDATE (R202 to R206). -/
namespace Sys2Proof.Machine

/-- Bytes of a segment (R185). -/
def segBytes : Nat := 1048576

/-- OP of R198 for an opcode. -/
def ringOp (op : Nat) : Nat := match op with
  | 0x39 => 2
  | 0x3A => 3
  | 0x3B => 4
  | _ => 1

/-- DFMT of R198 for an element format in a reduce, and back. -/
def dfmtOf (fmt : Nat) : Nat := match fmt with
  | 0 => 0
  | 1 => 1
  | 2 => 2
  | 7 => 3
  | _ => 4
def fmtOfD (d : Nat) : Nat := [0, 1, 2, 7, 8].getD d 8

def State.findRing (s : State) (slot : Nat) : Option RingSlot := (s.rings.find? (fun p => p.1 == slot)).map (fun p => p.2)
def State.updRing (s : State) (slot : Nat) (g : RingSlot → RingSlot) : State :=
  { s with rings := s.rings.map (fun p => if p.1 = slot then (p.1, g p.2) else p) }

def RingSlot.n (r : RingSlot) : Nat := r.members.length
/-- Next ring index in a direction: 0 clockwise, 1 anticlockwise (R177). -/
def RingSlot.next (r : RingSlot) (i dir : Nat) : Nat := if dir = 0 then (i + 1) % r.n else (i + r.n - 1) % r.n
/-- Holder of a chunk travelling in a direction (R186). -/
def RingSlot.holder (r : RingSlot) (c dir : Nat) : Nat := if dir = 0 then (c + r.n - 1) % r.n else (c + 1) % r.n
/-- First element and length in elements of chunk c of a reduce (R185). -/
def RingSlot.chunk (r : RingSlot) (c : Nat) : Nat × Nat :=
  let q := (r.size + r.n - 1) / r.n
  (min r.size (c * q), min r.size ((c + 1) * q) - min r.size (c * q))
/-- Segments of a chunk. -/
def RingSlot.segs (r : RingSlot) (c : Nat) : Nat := ((r.chunk c).2 * r.eb + segBytes - 1) / segBytes
/-- Byte offset in the vector, and length, of segment g of chunk c. -/
def RingSlot.seg (r : RingSlot) (c g : Nat) : Nat × Nat :=
  ((r.chunk c).1 * r.eb + g * segBytes, min segBytes ((r.chunk c).2 * r.eb - g * segBytes))
/-- Own elements of a segment. -/
def RingSlot.mine (r : RingSlot) (c g : Nat) : List Byte := (r.input.drop (r.seg c g).1).take (r.seg c g).2

/-- Final segments or blocks a member must hold (R193). -/
def RingSlot.want (r : RingSlot) : Nat :=
  match r.op with
  | 1 => ((List.range r.n).map r.segs).sum
  | 2 => r.n
  | _ => 1

/-- The chips that a slot waits on: those that have not acknowledged a frame, and, while final values are missing, those that
send to it (R207; log entry 60). -/
def RingSlot.waitSet (r : RingSlot) : List Nat :=
  let at_ (i : Nat) : Nat := r.members.getD i 0
  let acks := (r.tx.filter (fun t => !t.unacked.isEmpty)).map (fun t => t.dst)
  let src := if r.want ≤ r.finals then []
    else if 3 ≤ r.op then (if r.fromIdx = r.me then [] else [at_ r.fromIdx])
    else if r.n ≤ 1 then []
    else [at_ (r.next r.me 1), at_ (r.next r.me 0)]
  (acks ++ src).eraseDups

/-- A slot's waits follow a change: a chip that made progress, and one newly waited on, come last (R194, R207). -/
def RingSlot.seen (r : RingSlot) (from_ : Option Nat) : RingSlot :=
  let set := r.waitSet
  let keep := r.waits.filter (fun d => set.contains d && from_ != some d)
  { r with waits := keep ++ set.filter (fun d => !keep.contains d) }

def State.ringSeen (s : State) (slot : Nat) (from_ : Option Nat) : State := s.updRing slot (fun r => r.seen from_)

/-- Format column of a collective's data (R366). -/
def State.ringFmt (s : State) (r : RingSlot) : Nat := if r.op = 1 then fmtOfD r.dfmt else (s.desc r.ctx r.src).fmt

/-- Bytes queued on VC 3 toward a chip (R186). -/
def State.queued3 (s : State) (d : Nat) : Nat :=
  let p := s.pierFor d
  ((s.net.queued.filter (fun x => x.1 == p && x.2.1 == 3)).map (fun x => x.2.2.bytes)).sum

/-- Direction of a segment or block (R186, R190). -/
def State.ringDir (s : State) (r : RingSlot) (k : Nat) : Nat :=
  if s.ordOf r.ctx then k % 2
  else if s.queued3 (r.members.getD (r.next r.me 0) 0) ≤ s.queued3 (r.members.getD (r.next r.me 1) 0) then 0 else 1

-- transmission

/-- The elements of a DATA frame that leaves without an addition: a copying frame, or the first of a summing segment
(R366 op 21). -/
def State.ringSent (s : State) (r : RingSlot) (f : Frame) : State :=
  if bitOf (f.w 4) 7 || fld (f.w 4) 20 8 == 0 then s.opCount 21 (s.ringFmt r) (f.payload.length / max 1 r.eb) else s

/-- Send what the window of eight lets out; nothing once an abort has been reported (R194, R199). -/
def State.ringPump (s : State) (slot : Nat) : State :=
  match s.findRing slot with
  | none => s
  | some r =>
    if r.reported.isSome ∧ r.reported ≠ some 0 then s
    else
      let go (t : RingTx) : RingTx × List (Nat × Frame) :=
        let k := 8 - t.unacked.length
        ({ t with unacked := t.unacked ++ t.waiting.take k, waiting := t.waiting.drop k },
          (t.waiting.take k).map (fun f => (t.dst, f)))
      let out := r.tx.map go
      let s1 := s.updRing slot (fun r => { r with tx := out.map (fun p => p.1) })
      (out.flatMap (fun p => p.2)).foldl (fun s p => (s.emit p.1 3 p.2).ringSent r p.2) s1

/-- Hand a DATA frame to a direction (R198, R199). -/
def State.ringData (s : State) (slot dst dir chunk seg phase hop : Nat) (ofs : Nat) (payload : List Byte) : State :=
  match s.findRing slot with
  | none => s
  | some r =>
    let t := (r.tx.find? (fun t => t.dst == dst && t.dir == dir)).getD { dst := dst, dir := dir }
    let f := mkFrame (s.ringHdr 1 r.ctx r.gid dst r.attempt r.retry r.gseq.toNat
      (r.op + r.dfmt * 2 ^ 3 + dir * 2 ^ 6 + phase * 2 ^ 7 + hop * 2 ^ 8) t.next.toNat (chunk + seg * 2 ^ 12) r.size
      payload.length 0 ofs) payload
    let t1 : RingTx := { t with next := t.next + 1, waiting := t.waiting ++ [f] }
    let s1 := s.updRing slot (fun r =>
      { r with tx := r.tx.filter (fun x => !(x.dst == dst && x.dir == dir)) ++ [t1] })
    s1.ringPump slot

/-- Write a final segment of a reduce into DST. -/
def State.ringFinal (s : State) (slot : Nat) (r : RingSlot) (c g : Nat) (bs : List Byte) : State :=
  (s.putOwn r.q r.idx ((s.desc r.ctx r.dst).put (r.seg c g).1 bs)).updRing slot (fun r => { r with finals := r.finals + 1 })

/-- Sum of two segments in the format of the data (R187). -/
def ringAdd (fmt : Nat) (a b : List Byte) : List Byte :=
  let n := a.length / max 1 (ebOf fmt)
  let x := rowEls fmt n a
  let y := rowEls fmt n b
  (List.range n).flatMap (fun i => natLe (ebOf fmt) (accEl fmt (x.getD i 0) (y.getD i 0)))

/-- A partial sum reaches this member (R186, R189). -/
def State.ringSum (s : State) (slot : Nat) (r : RingSlot) (dir c g hop ofs : Nat) (payload : List Byte) : State :=
  let acc := ringAdd (fmtOfD r.dfmt) payload (r.mine c g)
  let s1 := (s.opCount 20 (fmtOfD r.dfmt) (payload.length / max 1 r.eb)).charge r.ctx [3, 6]
  let nx := r.members.getD (r.next r.me dir) 0
  if r.me = r.holder c dir then (s1.ringFinal slot r c g acc).ringData slot nx dir c g 1 (hop + 1) ofs acc
  else s1.ringData slot nx dir c g 0 (hop + 1) ofs acc

/-- A final segment reaches this member: it is written, and forwarded until the member before the holder has it (R186,
log entry 41). -/
def State.ringCopy (s : State) (slot : Nat) (r : RingSlot) (dir c g hop ofs : Nat) (payload : List Byte) : State :=
  let s1 := s.ringFinal slot r c g payload
  let nx := r.next r.me dir
  if nx = r.holder c dir then s1 else s1.ringData slot (r.members.getD nx 0) dir c g 1 (hop + 1) ofs payload

/-- The block of ring index i is complete with n bytes: zero fill and count (R190, R191). -/
def State.ringBlock (s : State) (slot : Nat) (r : RingSlot) (i n : Nat) : State :=
  let at_ := if r.op = 2 then i else 0
  (s.putOwn r.q r.idx ((s.desc r.ctx r.dst).put (at_ * r.size + n) (List.replicate (r.size - n) 0)
    ++ (s.desc r.ctx r.cnt).put (4 * at_) (natLe 4 (n / max 1 r.eb)))).updRing slot (fun r => { r with finals := r.finals + 1 })

/-- Payload of a block segment reaches this member, or its own block is copied (R190, R191). The block ends with a
segment that is short of a full one, or reaches CAP (log entry 42). -/
def State.ringPlace (s : State) (slot : Nat) (r : RingSlot) (i ofs : Nat) (payload : List Byte) : State :=
  let at_ := if r.op = 2 then i else 0
  let s1 := s.putOwn r.q r.idx ((s.desc r.ctx r.dst).put (at_ * r.size + ofs) payload)
  let n := ofs + payload.length
  if payload.length < segBytes ∨ n = r.size then s1.ringBlock slot r i n else s1

/-- Segments of an own block: (SEG, bytes). -/
def blockSegs (size : Nat) (bs : List Byte) : List (Nat × List Byte) :=
  let k := bs.length / segBytes
  let m := if bs.length = size ∧ bs.length % segBytes = 0 ∧ 0 < k then k else k + 1
  (List.range m).map (fun g => (g, (bs.drop (g * segBytes)).take segBytes))

/-- Begin an attempt: the own chunk or block leaves (R186, R190, R191). -/
def State.ringBegin (s : State) (slot : Nat) (r : RingSlot) : State :=
  let s1 := s.updRing slot (fun r => { r with started := true })
  match r.op with
  | 1 =>
    (List.range (r.segs r.me)).foldl (fun s g =>
      let bs := r.mine r.me g
      if r.n ≤ 1 then s.ringFinal slot r r.me g bs
      else
        let dir := s.ringDir r (r.me + g)
        s.ringData slot (r.members.getD (r.next r.me dir) 0) dir r.me g 0 0 (g * segBytes) bs) s1
  | 2 =>
    let dir := s1.ringDir r r.me
    (blockSegs r.size r.input).foldl (fun s p =>
      let s2 := s.ringPlace slot r r.me (p.1 * segBytes) p.2
      if r.n ≤ 1 then s2
      else s2.ringData slot (r.members.getD (r.next r.me dir) 0) dir r.me p.1 1 0 (p.1 * segBytes) p.2) s1
  | _ =>
    (blockSegs r.size r.input).foldl (fun s p =>
      if r.toIdx = r.me then s.ringPlace slot r r.me (p.1 * segBytes) p.2
      else s.ringData slot (r.members.getD r.toIdx 0) 0 r.me p.1 1 0 (p.1 * segBytes) p.2) s1

-- Camber

/-- The slots a CAMBER_UPDATE names, with the E of their live maps (R204). -/
def State.camberSlots (s : State) (own : Nat) (c : Cmd) : List (Nat × Nat) :=
  (List.range (fld (c.s 0) 16 8)).flatMap (fun i => match s.layerSlot own (fld (c.s 0) 7 0 + i) with
    | some sl => [(sl, s.mapE sl (s.mapEpoch sl % 2))]
    | none => [])

/-- Address of the shadow bias bank of a slot (R202). -/
def State.shadowBias (s : State) (slot : Nat) : Nat := s.cmbSlot slot + 0x40000 * (1 + (1 - s.cmbEpoch slot % 2))

/-- The new bias of an expert (R204). -/
def newBias (mode : Nat) (gamma bmax live : K36) (tot e rc : Nat) : Nat :=
  let dif : Int := (tot : Int) - (e * rc : Nat)
  let d := if mode = 0 then (if 0 < dif then gamma else if dif < 0 then kNeg gamma else 0)
    else if tot = 0 then 0
    else kMul gamma (kDiv (kEnc (fvInt dif)) (kEnc (fvInt tot)))
  let x := kAdd live d
  let y := if kLt x (kNeg bmax) then kNeg bmax else if kLt bmax x then bmax else x
  (kTo32 y).toNat

/-- Write the shadow bias banks of the slots of a CAMBER_UPDATE from reduced counts, counts from index k on (R204). -/
def State.biasPass (s : State) (mode : Nat) (gamma bmax : K36) (rc : List Nat) : Nat → List (Nat × Nat) → State
  | _, [] => s
  | k, (sl, e) :: l =>
    let mine := (rc.drop k).take e
    let tot := mine.sum
    let bank := s.cmbEpoch sl % 2
    let bs := (List.range e).flatMap (fun j =>
      natLe 4 (newBias mode gamma bmax (finiteOrZero (s.biasAt sl bank j)).1 tot e (mine.getD j 0)))
    (s.wr (s.shadowBias sl) bs).biasPass mode gamma bmax rc (k + e) l

/-- The reduced counts stand in BUF: the banks are written, and the counts are cleared at commit (R204). -/
def State.camberEnd (u : State) (own q : Nat) (c : Cmd) (ring : Bool) : State :=
  let s := u.unhide q c.idx
  let sl := s.camberSlots own c
  let n := (sl.map (fun p => p.2)).sum
  let rc := (List.range n).map (fun i => s.str32 (s.dsc own c 6) (4 * i))
  let s1 := s.biasPass (fld (c.s 1) 1 0) (kOf32 (c.s 4)) (kOf32 (c.s 5)) rc 0 sl
  (s1.chargeReads own ((s.dsc own c 6).headReads (4 * n) ++ flatReads 1 (4 * n))).complete q c.idx
    (sl.flatMap (fun p => [.write (s.cmbSlot p.1) (List.replicate (4 * p.2) 0), .biasWritten p.1])
      ++ (if ring then [.ringEnd] else []))

-- decisions

/-- Effects of a collective at its commit (R192, R196). -/
def RingSlot.acts (r : RingSlot) : List Act :=
  [.count 15 r.dropped, .stick 0x810 (b2n (r.dropped != 0) + 2 * b2n r.rerun), .ringEnd]

/-- Log an uncorrectable error in a collective's data as it is detected (R349, R354, R355). A fault that follows is the
command's, with an entry of its own (log entry 60). -/
def State.ringLogUnc (s : State) (r : RingSlot) (f : Flt) : State :=
  let l := s.logErr { cls := 2, merged := s.merging r.ctx, own := r.ctx, q := r.q, sys := r.ctx == 16,
                      code := f.code, unit := 12, qidx := r.idx.toNat, array := f.array, lo := f.lo, hi := f.hi, inst := f.inst }
  l.2.2.postCtx r.ctx 8 l.1 2

/-- A bound collective learns its decision: commit, rerun, or fault (R193, R195, R196). A REPORT still unanswered is then no
longer sent (log entry 60). -/
def State.ringDecide (s : State) (slot code : Nat) (rerun : Bool) : State :=
  match s.findRing slot with
  | none => s
  | some r =>
    let s0 := (s.trace 0x08 r.ctx r.q [r.gid, r.gseq.toNat, 2, code]).updRing slot (fun r => { r with decided := some code })
    if code = 0 then
      match s0.findCmd r.q r.idx with
      | some c => if c.op = 0x3D then
            (s0.updCmd r.q r.idx (fun c => { c with acts := c.acts ++ [.stick 0x810 (2 * b2n r.rerun)] })).camberEnd r.ctx r.q c true
          else s0.complete r.q r.idx r.acts
      | none => s0
    else if rerun then
      let s1 := s0.updRing slot (fun r => ({ r with
        attempt := r.attempt + 1, rerun := true, started := false, finals := 0, rx := [], tx := [], reported := none,
        decided := none, waits := [], notrdy := [], det := [] } : RingSlot).seen none)
      { s1 with ringCtl := s1.ringCtl.filter (fun k => !(k.ctx == r.ctx && k.gid == r.gid && k.gseq == r.gseq
        && fKind k.f == 4)) }
    else
      let g (i : Nat) : Nat := r.det.getD i 0
      let own : Flt := { flt eUncorrectable 12 with lo := g 0, hi := g 1, array := g 2, inst := g 3 }
      if code = eUncorrectable then s0.ringFault slot r own
      else s0.ringFault slot r { flt code 12 with inst := slot }

/-- Report of a bound collective, once, but for a failure after the report that its part was complete; where this chip leads
and now decides, the decision (R193 to R196). -/
def State.ringTell (s : State) (slot code : Nat) : State :=
  match s.findRing slot with
  | none => s
  | some r =>
    if r.decided.isSome ∨ (r.reported.isSome ∧ (code = 0 ∨ r.reported ≠ some 0)) then s
    else
      let s1 := s.updRing slot (fun r => { r with reported := some code })
      let t := s1.ringReport r.ctx r.q r.gid r.gseq r.attempt r.retry r.op code r.members
      match t.1 with
      | some d => t.2.ringDecide slot d.1 d.2
      | none => t.2

/-- An uncorrectable error in data of a bound collective (R196, R349, R351): it is logged as it is detected, and reported to the
leader. After the decision the command itself faults; after another failure has been reported it is only logged (log entry
60). -/
def State.ringUnc (s : State) (slot : Nat) (f : Flt) : State :=
  match s.findRing slot with
  | none => s
  | some r =>
    if r.decided.isSome then s.ringFault slot r f
    else if r.reported.getD 0 ≠ 0 then s.ringLogUnc r f
    else
      let s1 := (s.ringLogUnc r f).updRing slot (fun r => { r with det := [f.lo, f.hi, f.array, f.inst] })
      s1.ringTell slot eUncorrectable

/-- A member's part that is complete is reported (R193). -/
def State.ringCheck (s : State) (slot : Nat) : State :=
  match s.findRing slot with
  | none => s
  | some r =>
    if r.started ∧ r.reported.isNone ∧ r.finals = r.want ∧ r.tx.all (fun t => t.unacked.isEmpty && t.waiting.isEmpty)
    then s.ringTell slot 0 else s

-- start

/-- A collective that fails its start reports to its leader, in the attempt it would have begun, and faults (R180, R195). -/
def State.ringFail (s : State) (own q gid : Nat) (gseq : U32) (att : Option Nat) (retry op code check : Nat) (ms : List Nat) :
    StartRes :=
  .fltS (s.ringReport own q gid gseq (att.getD 0) retry op code ms).2 (flt code 12 check)

/-- Bind a ring slot for a collective whose own checks have passed: versions, slot, receive area (R179 to R181). -/
def State.ringBind (s : State) (q : Nat) (c : Cmd) (att : Option Nat) (r : RingSlot) : StartRes :=
  let unk := r.members.filter (fun m => m != s.chip && s.peerVer m == 0)
  match r.members.find? (fun m => m != s.chip && s.peerVer m == 1) with
  | some m => match s.ringFail r.ctx q r.gid r.gseq att r.retry r.op ePeerVersion 4 r.members with
    | .fltS t f => .fltS t { f with peer := m }
    | x => x
  | none =>
    if !unk.isEmpty then .hold (unk.foldl (fun s m => s.hello m) s)
    else match (List.range 8).find? (fun i => !s.rings.any (fun p => p.1 == i)) with
      | none => .wait
      | some slot => match s.alloc r.ctx (2 ^ 24) false false with
        | none => (s.allocFail r.ctx (2 ^ 24)).ringFail r.ctx q r.gid r.gseq att r.retry r.op ePoolEmpty 0 r.members
        | some (h, _, s1) =>
          let me := (r.members.findIdx? (fun m => m == s.chip)).getD 0
          let r1 : RingSlot := { r with
            q := q, idx := c.idx, buf := u32 h, me := me, attempt := att.getD 0, rerun := att.isSome }
          let r2 := r1.seen none
          let old (l : RingLead) : Bool := l.decided && l.ctx == r.ctx && l.gid == r.gid && l.gseq == r.gseq
          let s2 : State := { s1 with
            rings := s1.rings ++ [(slot, r2)]
            leads := if att.isSome then s1.leads else s1.leads.filter (fun l => !old l) }
          .go ((s2.setQueue q { s2.queue q with commGid := some r.gid }).trace 0x08 r.ctx q [r.gid, r.gseq.toNat, 0, 0]) c

/-- The common beginning of a collective's start: a decision held in the abort table (R195), the group (R178), the queue's
group (R201), and the Piers (R4); then its own checks. -/
def State.ringStart (s : State) (q : Nat) (_c : Cmd) (gid retry op : Nat) (gseq : U32)
    (k : State → List Nat → Option Nat → StartRes) : StartRes :=
  let own := s.owner q
  let g := s.groupOf own gid
  let go (s : State) (att : Option Nat) : StartRes :=
    match g.2 with
    | some e => s.ringFail own q gid gseq att retry op e 0 g.1
    | none =>
      if s.rbit (kq q + 8) 13 ∧ ((s.queue q).commGid.getD gid) ≠ gid then s.ringFail own q gid gseq att retry op eBadField 0 g.1
      else if 1 < g.1.length ∧ s.part.piers.isEmpty then s.ringFail own q gid gseq att retry op eNoUnit 0 g.1
      else if !s.rbit (win own + 0x500) 0 then s.ringFail own q gid gseq att retry op eBadField 1 g.1
      else k s g.1 att
  match s.aborts.find? (fun a => a.ctx == own && a.gid == gid && a.gseq == gseq) with
  | some a =>
    let s1 : State := { s with aborts := s.aborts.filter (fun x => x != a) }
    if a.rerun then
      match go s1 (some (a.attempt + 1)) with
      | .hold t => .hold { t with aborts := s.aborts }
      | x => x
    else .fltS s1 (flt a.code 12)
  | none => go s none

/-- Does a held decision without a rerun fault this collective at once (R195)? -/
def State.abortsNow (s : State) (own gid : Nat) (gseq : U32) : Bool :=
  s.aborts.any (fun a => a.ctx == own && a.gid == gid && a.gseq == gseq && !a.rerun)

/-- Checks 1 to 3 of R179: the code and its order. -/
def State.ringChecks (s : State) (own : Nat) (c : Cmd) (n : Nat) : Option (Nat × Nat) :=
  let sd := s.dsc own c 3
  let dd := s.dsc own c 4
  let op := ringOp c.op
  let eb := ebOf sd.fmt
  let tab := s.dsc own c 6
  let perm := (List.range n).map (fun i => s.str16 tab (2 * i))
  let permBad := op == 4 && decide (2 * n ≤ tab.len) && !(distinct perm && perm.all (fun p => decide (p < n)))
  let red := isFloat sd.fmt || sd.fmt == 7 || sd.fmt == 8
  let need_ := if op = 1 then c.s 0 else if op = 2 then n * c.s 5 else c.s 5
  let lap := sd.meets dd
  if !sd.linear ∨ !dd.linear ∨ sd.fmt ≠ dd.fmt ∨ isMx sd.fmt ∨ (op = 1 ∧ !red) ∨ (fld (c.s 1) 17 16 ≠ 0 ∧ lap) ∨ permBad
  then some (eBadField, 1)
  else if sd.len < c.s 0 * eb ∨ dd.len < need_ * eb ∨ (op ≠ 1 ∧ (s.dsc own c 7).len < 4 * (if op = 2 then n else 1))
    ∨ (op = 4 ∧ tab.len < 2 * n)
  then some (eOobDesc, 2)
  else if lap ∧ !(op = 1 ∧ sd.base = dd.base ∧ sd.ext = dd.ext) then some (eOverlap, 3)
  else none

/-- Start of RING_REDUCE, RING_GATHER, SHIFT and PERMUTE. -/
def startRing (s : State) (q : Nat) (c : Cmd) : StartRes :=
  let own := s.owner q
  let op := ringOp c.op
  let gid := fld (c.s 1) 15 0
  let retry := fld (c.s 1) 17 16
  let gseq := u32 (c.s 2)
  s.ringStart q c gid retry op gseq (fun s ms att =>
    match s.ringChecks own c ms.length with
    | some e => s.ringFail own q gid gseq att retry op e.1 e.2 ms
    | none =>
      let sd := s.dsc own c 3
      let dd := s.dsc own c 4
      let eb := ebOf sd.fmt
      let n := ms.length
      let me := (ms.findIdx? (fun m => m == s.chip)).getD 0
      let count := if op = 1 then c.s 0 else min (c.s 0) (c.s 5)
      let perm (i : Nat) : Nat := s.str16 (s.dsc own c 6) (2 * i)
      let dist := (BitVec.ofNat 16 (c.s 6)).toInt
      let to_ := if op = 3 then ((me + dist) % n).toNat else if op = 4 then perm me else 0
      let from_ := if op = 3 then ((me - dist) % n).toNat
        else if op = 4 then ((List.range n).find? (fun i => perm i == me)).getD 0 else 0
      let out := if op = 1 then c.s 0 * eb else if op = 2 then n * c.s 5 * eb else c.s 5 * eb
      let r : RingSlot := {
        ctx := own, q := q, idx := c.idx, gid := gid, gseq := gseq, op := op
        dfmt := if op = 1 then dfmtOf sd.fmt else 7
        retry := retry, members := ms
        size := if op = 1 then c.s 0 else c.s 5 * eb
        eb := eb, count := count, src := c.h 3, dst := c.h 4, input := s.strRd sd 0 (count * eb)
        toIdx := to_, fromIdx := from_, cnt := c.h 7, buf := 0, dropped := c.s 0 - count }
      s.ringBind q { c with wrote := dd.span 0 out ++ (if op = 1 then [] else (s.dsc own c 7).span 0 (4 * (if op = 2 then n else 1))) }
        att r)

/-- The ring slot of a command. -/
def State.ringOf (s : State) (q : Nat) (i : U32) : Option (Nat × RingSlot) :=
  s.rings.find? (fun p => p.2.q == q && p.2.idx == i)

/-- The run of a collective: an attempt that has not begun begins, and a complete part is reported. -/
def runRing (s : State) (q : Nat) (c : Cmd) : RunRes :=
  match s.ringOf q c.idx with
  | none => .busy s
  | some (slot, r) =>
    let s1 := if r.started then s else (((s.ringBegin slot r).charge r.ctx [6]).chargeReads r.ctx
      (if c.op = 0x3D then flatReads 1 (4 * r.count) else (s.desc r.ctx r.src).headReads (r.count * r.eb)
        ++ (if r.op = 4 then (s.dsc r.ctx c 6).headReads (2 * r.n) else []))).ringSeen slot none
    .busy (s1.ringCheck slot)

/-- RING_REDUCE (R185 to R189). -/
def execRingReduce (q : Nat) (i : U32) (s : State) : Host.Outcome State Fault Refusal :=
  .next (s.runCmd q i 0x38 (fun s _ c => runRing s q c))
/-- RING_GATHER (R190). -/
def execRingGather (q : Nat) (i : U32) (s : State) : Host.Outcome State Fault Refusal :=
  .next (s.runCmd q i 0x39 (fun s _ c => runRing s q c))
/-- SHIFT (R191). -/
def execShift (q : Nat) (i : U32) (s : State) : Host.Outcome State Fault Refusal :=
  .next (s.runCmd q i 0x3A (fun s _ c => runRing s q c))
/-- PERMUTE (R191). -/
def execPermute (q : Nat) (i : U32) (s : State) : Host.Outcome State Fault Refusal :=
  .next (s.runCmd q i 0x3B (fun s _ c => runRing s q c))

-- CAMBER_ACCUM

/-- The slot a CAMBER_ACCUM names through its DEST header (R203). -/
def State.accumSlot (s : State) (own : Nat) (c : Cmd) : Option Nat := s.layerSlot own (s.destHdr (s.dsc own c 1)).layer

/-- Start of CAMBER_ACCUM (R203, R205). -/
def startCamberAccum (s : State) (q : Nat) (c : Cmd) : StartRes :=
  let own := s.owner q
  let d := s.dsc own c 1
  let h := s.destHdr d
  let e := match s.accumSlot own c with
    | some sl => if s.mapStat sl 0 then s.mapE sl (s.mapEpoch sl % 2) else 0
    | none => 0
  match firstFlt [need (s.rbit 0x61008 0) eNoMap 12, need (decide (64 ≤ d.len)) eOobDesc 12,
      need (c.s 0 == h.t && h.e == e && e != 0) eBadField 12,
      need (h.t == 0 || decide (destEcnt + 4 * h.e ≤ d.len)) eOobDesc 12] with
  | some f => .flt f
  | none => match s.accumSlot own c with
    | some sl => if s.camberBusy sl then .wait else .go s c
    | none => .go s c

/-- CAMBER_ACCUM (R203): the additions are applied at commit. -/
def execCamberAccum (q : Nat) (i : U32) (s : State) : Host.Outcome State Fault Refusal :=
  .next (s.runCmd q i 0x3C (fun s own c =>
    let d := s.dsc own c 1
    let h := s.destHdr d
    match s.accumSlot own c with
    | some sl =>
      let cs := if h.t = 0 then [] else (List.range h.e).map (fun j => s.str32 d (destEcnt + 4 * j))
      .done ((s.chargeReads own (d.headReads 64 ++ d.headReads (4 * cs.length) ++ flatReads 1 (4 * cs.length))).chargeWrites own
        [4 * cs.length]) [.camberAdd sl cs]
    | none => .done s []))

/-- Add counts to a slot's count vector, saturating; a saturated addition is counted (R203, R365). -/
def State.camberAddAct (s : State) (own slot : Nat) (cs : List Nat) : State :=
  let a := s.cmbSlot slot
  let sums := (List.range cs.length).map (fun j => s.rd32 (a + 4 * j) + cs.getD j 0)
  let sat := (sums.filter (fun x => decide (2 ^ 32 ≤ x))).length
  let s1 := s.wr a (sums.flatMap (fun x => natLe 4 (min x 0xFFFFFFFF)))
  if sat = 0 then s1 else (s1.ctxCount own 19 sat).stick own 0x810 4

-- CAMBER_UPDATE

/-- Does a CAMBER_UPDATE reduce over a group? -/
def Cmd.camberRing (c : Cmd) : Bool := !bitOf (c.s 1) 2 && fld (c.s 1) 1 0 != 2

/-- The concatenated counts of the slots (R204). -/
def State.camberCounts (s : State) (sl : List (Nat × Nat)) : List Byte :=
  sl.flatMap (fun p => s.rd (s.cmbSlot p.1) (4 * p.2))

/-- Is the shadow bias bank of a slot bound, or an ACCUM or UPDATE of the slot started (R205)? -/
def State.camberWaits (s : State) (slot : Nat) : Bool :=
  let sh := 1 - s.cmbEpoch slot % 2
  let hit (l : List (Nat × U32)) : Bool := l.any (fun p => p.1 == slot && p.2.toNat % 2 == sh)
  s.anyStarted (fun q c => hit c.biasB || (c.op == 0x3C && s.accumSlot (s.owner q) c == some slot))
    || s.jobs.any (fun j => hit j.biasB) || s.camberBusy slot

/-- Start of CAMBER_UPDATE (R205). Where it reduces, BUF is the DST of a RING_REDUCE of U32 elements, and a breach of R179 is
reported (R180, R204; DEDUCED, log entry 60). -/
def startCamberUpdate (s : State) (q : Nat) (c : Cmd) : StartRes :=
  let own := s.owner q
  let sl := s.camberSlots own c
  let n := (sl.map (fun p => p.2)).sum
  let buf := s.dsc own c 6
  let load := fld (c.s 1) 1 0 == 2
  match firstFlt [
      need (decide (fld (c.s 0) 7 0 + fld (c.s 0) 16 8 ≤ s.slotCount own)) eBadField 12,
      need (s.rbit 0x61008 0 && sl.all (fun p => s.mapStat p.1 0)) eNoMap 12,
      need (c.camberRing || decide (4 * n ≤ buf.len)) eOobDesc 12] with
  | some f => .flt f
  | none =>
    if sl.any (fun p => s.camberWaits p.1) ∧ !(c.camberRing && s.abortsNow own (fld (c.s 2) 15 0) (u32 (c.s 3))) then .wait
    else
      let banks := sl.map (fun p => (s.shadowBias p.1, 4 * p.2))
      let c1 : Cmd := { c with wrote := banks ++ (if load then [] else buf.span 0 (4 * n)) }
      if !c.camberRing then .go s c1
      else
        let gid := fld (c.s 2) 15 0
        let gseq := u32 (c.s 3)
        s.ringStart q c1 gid 0 1 gseq (fun s ms att =>
          let r : RingSlot := {
            ctx := own, q := q, idx := c.idx, gid := gid, gseq := gseq, op := 1, dfmt := 3, retry := 0, members := ms
            size := n, eb := 4, count := n, dst := c.h 6, input := s.camberCounts sl, buf := 0 }
          if !(buf.linear && buf.fmt == 7) then s.ringFail own q gid gseq att 0 1 eBadField 1 ms
          else if buf.len < 4 * n then s.ringFail own q gid gseq att 0 1 eOobDesc 2 ms
          else s.ringBind q c1 att r)

/-- CAMBER_UPDATE (R204). -/
def execCamberUpdate (q : Nat) (i : U32) (s : State) : Host.Outcome State Fault Refusal :=
  .next (s.runCmd q i 0x3D (fun s own c =>
    let sl := s.camberSlots own c
    if c.camberRing then runRing s q c
    else if fld (c.s 1) 1 0 = 2 then
      let go := sl.foldl (fun (p : Nat × State) x =>
        (p.1 + 4 * x.2, p.2.wr (s.shadowBias x.1) (s.strRd (s.dsc own c 6) p.1 (4 * x.2)))) (0, s)
      .done (go.2.chargeReads own ((s.dsc own c 6).headReads go.1)) (sl.map (fun x => .biasWritten x.1))
    else .busy (((s.strWr (s.dsc own c 6) 0 (s.camberCounts sl)).chargeReads own
      (flatReads 1 (4 * (sl.map (fun p => p.2)).sum))).camberEnd own q c false)))

end Sys2Proof.Machine
end

