-- ==== Sys2Proof/Machine/Sha.lean ====
section
/-! DEFINITION. SHA-256 (FIPS 180-4), which the digest engine, the boot loader and FUDIG use (R340, R173, R246). -/
namespace Sys2Proof.Machine

/-- The round constants. -/
def shaK : List U32 :=
  [0x428a2f98, 0x71374491, 0xb5c0fbcf, 0xe9b5dba5, 0x3956c25b, 0x59f111f1, 0x923f82a4, 0xab1c5ed5]
    ++ [0xd807aa98, 0x12835b01, 0x243185be, 0x550c7dc3, 0x72be5d74, 0x80deb1fe, 0x9bdc06a7, 0xc19bf174]
    ++ [0xe49b69c1, 0xefbe4786, 0x0fc19dc6, 0x240ca1cc, 0x2de92c6f, 0x4a7484aa, 0x5cb0a9dc, 0x76f988da]
    ++ [0x983e5152, 0xa831c66d, 0xb00327c8, 0xbf597fc7, 0xc6e00bf3, 0xd5a79147, 0x06ca6351, 0x14292967]
    ++ [0x27b70a85, 0x2e1b2138, 0x4d2c6dfc, 0x53380d13, 0x650a7354, 0x766a0abb, 0x81c2c92e, 0x92722c85]
    ++ [0xa2bfe8a1, 0xa81a664b, 0xc24b8b70, 0xc76c51a3, 0xd192e819, 0xd6990624, 0xf40e3585, 0x106aa070]
    ++ [0x19a4c116, 0x1e376c08, 0x2748774c, 0x34b0bcb5, 0x391c0cb3, 0x4ed8aa4a, 0x5b9cca4f, 0x682e6ff3]
    ++ [0x748f82ee, 0x78a5636f, 0x84c87814, 0x8cc70208, 0x90befffa, 0xa4506ceb, 0xbef9a3f7, 0xc67178f2]

/-- The initial hash value. -/
def shaInit : List U32 := [0x6a09e667, 0xbb67ae85, 0x3c6ef372, 0xa54ff53a, 0x510e527f, 0x9b05688c, 0x1f83d9ab, 0x5be0cd19]

def rotr (x : U32) (n : Nat) : U32 := x.rotateRight n

/-- The big-endian u32 of four bytes. -/
def be32 (bs : List Byte) : U32 := u32 (bs.foldl (fun n b => 256 * n + b.toNat) 0)

/-- The next schedule word from the last sixteen, newest first. -/
def shaNext (w : List U32) : U32 :=
  let a := w.getD 1 0
  let b := w.getD 14 0
  (rotr a 17 ^^^ rotr a 19 ^^^ (a >>> 10)) + w.getD 6 0 + (rotr b 7 ^^^ rotr b 18 ^^^ (b >>> 3)) + w.getD 15 0

/-- Schedule words, newest first, from the sixteen of the block. -/
def shaSched : Nat → List U32 → List U32
  | 0, w => w
  | k + 1, w => shaSched k (shaNext w :: w)

/-- One round on the eight working words. -/
def shaRound (h : List U32) (k w : U32) : List U32 :=
  match h with
  | [a, b, c, d, e, f, g, x] =>
    let t1 := x + (rotr e 6 ^^^ rotr e 11 ^^^ rotr e 25) + ((e &&& f) ^^^ (~~~e &&& g)) + k + w
    let t2 := (rotr a 2 ^^^ rotr a 13 ^^^ rotr a 22) + ((a &&& b) ^^^ (a &&& c) ^^^ (b &&& c))
    [t1 + t2, a, b, c, d + t1, e, f, g]
  | _ => h

/-- One block of sixteen words. -/
def shaBlock (h : List U32) (ws : List U32) : List U32 :=
  let sched := (shaSched 48 ws.reverse).reverse
  let r := (shaK.zip sched).foldl (fun a p => shaRound a p.1 p.2) h
  (h.zip r).map (fun p => p.1 + p.2)

/-- Blocks of 64 bytes, n of them. -/
def shaBlocks : Nat → List U32 → List Byte → List U32
  | 0, h, _ => h
  | n + 1, h, bs =>
    shaBlocks n (shaBlock h ((List.range 16).map (fun i => be32 ((bs.drop (4 * i)).take 4)))) (bs.drop 64)

/-- n big-endian bytes of a value. -/
def natBe (n v : Nat) : List Byte := (natLe n v).reverse

/-- The SHA-256 digest of a byte string: 32 bytes. -/
def sha256 (bs : List Byte) : List Byte :=
  let l := bs.length
  let pad := (119 - l % 64) % 64
  let m := bs ++ [0x80] ++ List.replicate pad 0 ++ natBe 8 (8 * l)
  (shaBlocks (m.length / 64) shaInit m).flatMap (fun h => natBe 4 h.toNat)

end Sys2Proof.Machine
end

