-- ==== Sys2Proof/Machine/Audit.lean ====
section
/-! DEFINITION. BARRIER (R171, R172), the result digests (R173, R174), the determinism profile, and the control commands
NOP, WAIT, SIGNAL, FENCE and SKIP_IF (R41 to R44), MARK and TRIGGER (R378, R379). -/
namespace Sys2Proof.Machine

-- BARRIER

def State.findBar (s : State) (c gen bid : Nat) : Option Barrier :=
  s.barriers.find? (fun b => b.ctx == c && b.gen == gen && b.bid == bid)
def State.updBar (s : State) (c gen bid : Nat) (g : Barrier → Barrier) : State :=
  { s with barriers := s.barriers.map (fun b => if b.ctx = c ∧ b.gen = gen ∧ b.bid = bid then g b else b) }

/-- The coordinator: the lowest chip id of the list (R171). -/
def Barrier.coord (b : Barrier) : Nat := b.members.headD 0

/-- Start of BARRIER: its slot is held to its commit; a fifth waits (R171). A remote chip in the list of a part without Piers
is E_NO_UNIT (R4), looked at before the list's form (DESIGN CHOICE, log entry 56: no order is given). -/
def startBarrier (s : State) (q : Nat) (c : Cmd) : StartRes :=
  let own := s.owner q
  if 4 ≤ (s.barriers.filter (fun b => b.ctx == own)).length then .wait
  else
    let d := s.dsc own c 1
    let n := fld (c.s 0) 12 0
    let ms := (List.range n).map (fun i => s.str16 d (2 * i))
    let gen := fld (c.s 2) 15 0
    match firstFlt [need (decide (2 * n ≤ d.len)) eOobDesc 1,
        need (!s.part.piers.isEmpty || ms.all (fun m => m == s.chip)) eNoUnit 1,
        need (ascending ms && ms.contains s.chip && ms.all (fun m => decide (m < 4096)) && !s.retired own gen) eBadField 1] with
    | some f => .flt f
    | none =>
      let lead := fld (c.s 3) 9 0
      let b : Barrier := { ctx := own, q := q, idx := c.idx, gen := gen, bid := fld (c.s 2) 23 16, members := ms,
                           lead := if lead = 0 then 10 else lead }
      .go { s with barriers := s.barriers ++ [b] } c

/-- A barrier phase slab (R168). -/
def State.barSlab (s : State) (b : Barrier) (d phase n : Nat) (mis : Bool) (trel : Nat) : Frame :=
  mkFrame (s.countHdr b.ctx d b.gen b.bid [phase + b2n mis * 4, n, 0, 0, trel % 2 ^ 32, trel / 2 ^ 32])

/-- A member releases (R171, R172). -/
def State.barRelease (s : State) (b : Barrier) (late : Bool) : State :=
  let tr := (b.trel.getD 0).toNat
  let s1 := (s.updBar b.ctx b.gen b.bid (fun x => { x with released := true, late := late })).trace 0x09 b.ctx b.q
    [b.gen + b.bid * 2 ^ 16, 1, tr % 2 ^ 32, tr / 2 ^ 32]
  s1.complete b.q b.idx ((if late then [Act.count 18 1, .stick 0x700 2] else []) ++ [.barrierEnd])

/-- The coordinator sends RELEASE to chips of a list other than itself. -/
def State.sendReleases (s : State) (b : Barrier) (ms : List Nat) (mis : Bool) (trel : Nat) : State :=
  (ms.filter (fun m => m != s.chip)).foldl (fun s m =>
    s.txPush b.ctx m 4 b.q b.idx [s.barSlab b m 3 b.members.length mis trel]) s

/-- An arrival at the coordinator; when all have arrived, the release time is fixed. One with another N is answered with
a mismatch RELEASE, also where its chip is not in the list, and every member of the list gets one (R171). -/
def State.barArrive (s : State) (b : Barrier) (src n : Nat) : State :=
  if n ≠ b.members.length then
    let s1 := if b.mis then s else (s.updBar b.ctx b.gen b.bid (fun x => { x with mis := true })).sendReleases b b.members true 0
    if b.members.contains src then s1 else s1.sendReleases b [src] true 0
  else
    let b1 : Barrier := { b with arrived := if b.arrived.contains src then b.arrived else b.arrived ++ [src] }
    let s1 := s.updBar b.ctx b.gen b.bid (fun x => { x with arrived := b1.arrived })
    if b1.members.all (fun m => b1.arrived.contains m) ∧ b.trel.isNone ∧ !b.mis ∧ !b.released then
      if b.members.length ≤ 1 then s1.barRelease b1 false
      else
        let p := s1.readTime
        let tr := (p.1 + 1000 * b.lead) % 2 ^ 64
        (p.2.updBar b.ctx b.gen b.bid (fun x => { x with trel := some (BitVec.ofNat 64 tr) })).sendReleases b b.members false tr
    else s1

/-- The run of BARRIER: the arrival, once; after a mismatch the coordinator faults when its RELEASEs have been taken. -/
def runBarrier (s : State) (own q : Nat) (c : Cmd) : RunRes :=
  match s.findBar own (fld (c.s 2) 15 0) (fld (c.s 2) 23 16) with
  | none => .busy s
  | some b =>
    if !c.ran then
      let s1 := (s.markRan q c.idx).trace 0x09 own q [b.gen + b.bid * 2 ^ 16, 0]
      if b.coord = s.chip then .busy (s1.barArrive b s.chip b.members.length)
      else .busy (s1.txPush own b.coord 4 q c.idx [s1.barSlab b b.coord 2 b.members.length false 0])
    else if b.mis ∧ !s.txBusy q c.idx then .flt s (flt eExchMismatch 1)
    else .busy s

/-- BARRIER (R171). -/
def execBarrier (q : Nat) (i : U32) (s : State) : Host.Outcome State Fault Refusal :=
  .next (s.runCmd q i 0x05 (fun s own c => runBarrier s own q c))

/-- Fabric time reaches TREL at this member (R171). -/
def execBarrierRelease (c gen bid : Nat) (s : State) : Host.Outcome State Fault Refusal :=
  .next (match s.findBar c gen bid with
    | some b => match b.trel with
      | some t => if s.live ∧ !b.released ∧ !b.mis then
          let s1 : State := { s with ftime := if s.ftime.toNat ≤ t.toNat then t else s.ftime }
          s1.barRelease b false
        else s
      | none => s
    | none => s)

/-- The timeout of a BARRIER passes before all members have arrived (R172). -/
def execBarrierTimeout (q : Nat) (i : U32) (s : State) : Host.Outcome State Fault Refusal :=
  .next (match s.findCmd q i with
    | some c =>
      match s.findBar (s.owner q) (fld (c.s 2) 15 0) (fld (c.s 2) 23 16) with
      | some b => if s.live ∧ s.refclk ∧ c.op = 0x05 ∧ c.phase = .started ∧ b.trel.isNone ∧ !b.released
          then s.fault q i 0x05 (flt eTimeout 1) else s
      | none => s
    | none => s)

-- digests

/-- A leaf or inner level of the digest tree, pairwise from the left (R173). -/
def pairUp : List (List Byte) → List (List Byte)
  | a :: b :: l => sha256 ([1] ++ a ++ b) :: pairUp l
  | l => l

def treeTop : Nat → List (List Byte) → List Byte
  | 0, l => l.headD []
  | k + 1, l => if l.length ≤ 1 then l.headD [] else treeTop k (pairUp l)

/-- The digest of a byte string (R173). -/
def regionDigest (bs : List Byte) : List Byte :=
  let n := bs.length
  let nl := max 1 ((n + 65535) / 65536)
  let leaves := (List.range nl).map (fun i => sha256 ([0] ++ natLe 8 i ++ (bs.drop (65536 * i)).take 65536))
  sha256 ([2] ++ natLe 8 n ++ treeTop nl leaves)

/-- FUDIG of the live bank (R246). -/
def State.fudig (s : State) : Nat :=
  let d := sha256 (s.fuBank s.fuLive).string
  (d.getD 30 0).toNat * 256 + (d.getD 31 0).toNat

/-- KDPROF_LO: FUDIG and what the grade disables (section The determinism profile). -/
def State.kdprofLo (s : State) : Nat :=
  let p := s.part
  p.disPipe % 16 + p.disPier % 16 * 2 ^ 4 + p.disFu % 16 * 2 ^ 8 + b2n p.disTrestle * 2 ^ 12 + b2n p.disLedger * 2 ^ 13
    + b2n p.disDigest * 2 ^ 14 + (if s.rst.posted then s.fudig else 0) * 2 ^ 16
/-- KDPROF_HI: microcode version, grade, stepping, variant. -/
def State.kdprofHi (s : State) : Nat :=
  fld (s.reg 0x50004) 15 0 + s.part.grade % 2 ^ 8 * 2 ^ 16 + s.part.stepping % 2 ^ 6 * 2 ^ 24 + s.part.variant % 4 * 2 ^ 30

/-- The regions a DIGEST command names: the handles in its slots from k on. -/
def Cmd.regions (c : Cmd) (k : Nat) : List Nat := (List.range (c.s 0)).map (fun i => c.h (k + i))

/-- Are regions in layouts that the digest engine reads (R211)? -/
def State.regionsOk (s : State) (own : Nat) (hs : List Nat) : Bool := hs.all (fun h => decide ((s.desc own h).layout ≤ 1))

/-- Start of DIGEST_BEGIN (R174). -/
def startDigestBegin (s : State) (q : Nat) (c : Cmd) : StartRes :=
  let own := s.owner q
  let sid := fld (c.s 1) 1 0
  startIf s c (need (!s.digests.any (fun d => d.ctx == own && d.sid == sid) && s.regionsOk own (c.regions 2)) eBadField 22)

/-- DIGEST_BEGIN: the regions are hashed, and the session opens at commit. -/
def execDigestBegin (q : Nat) (i : U32) (s : State) : Host.Outcome State Fault Refusal :=
  .next (s.runCmd q i 0x50 (fun s own c =>
    let rs := (c.regions 2).map (fun h => s.strRd (s.desc own h) 0 (s.desc own h).len)
    let n := (rs.map (fun r => r.length)).sum
    .done ((s.opCount 25 14 n).chargeReads own ((c.regions 2).flatMap (fun h => (s.desc own h).rowReads (s.desc own h).rows)))
      [.digestOpen (fld (c.s 1) 1 0) (rs.map regionDigest) n]))

/-- Start of DIGEST_END, once every earlier command of its queue has committed (R174). -/
def startDigestEnd (s : State) (q : Nat) (c : Cmd) : StartRes :=
  let own := s.owner q
  let sid := fld (c.s 1) 1 0
  startIf s { c with wrote := (s.dsc own c 2).span 0 64 }
    (firstFlt [need (s.digests.any (fun d => d.ctx == own && d.sid == sid && d.q == q) && s.regionsOk own (c.regions 3))
        eBadField 22,
      need (decide (64 ≤ (s.dsc own c 2).len)) eOobDesc 22])

/-- The digest record of a session (R173, R174). -/
def State.digestRecord (s : State) (own : Nat) (d : Digest) (outs : List (List Byte)) : List Byte :=
  let prof := natLe 4 s.kdprofLo ++ natLe 4 s.kdprofHi
  let res := sha256 ([3] ++ prof ++ sha256 d.items ++ natLe 1 d.regions.length ++ d.regions.flatten
    ++ natLe 1 outs.length ++ (outs.map regionDigest).flatten)
  res ++ prof ++ natLe 8 (d.bytes + (outs.map (fun o => o.length)).sum) ++ natLe 4 d.ncmd ++ natLe 1 d.sid
    ++ natLe 1 d.regions.length ++ natLe 1 outs.length ++ natLe 1 (b2n (s.ordOf own)) ++ natLe 8 0

/-- DIGEST_END: the record is written, and the session closes at commit. -/
def execDigestEnd (q : Nat) (i : U32) (s : State) : Host.Outcome State Fault Refusal :=
  .next (s.runCmd q i 0x51 (fun s own c =>
    let sid := fld (c.s 1) 1 0
    match s.digests.find? (fun d => d.ctx == own && d.sid == sid && d.q == q) with
    | none => .busy s
    | some d =>
      let outs := (c.regions 3).map (fun h => s.strRd (s.desc own h) 0 (s.desc own h).len)
      let s1 := s.strWr (s.dsc own c 2) 0 (s.digestRecord own d outs)
      .done ((s1.opCount 25 14 ((outs.map (fun o => o.length)).sum)).chargeReads own
        ((c.regions 3).flatMap (fun h => (s.desc own h).rowReads (s.desc own h).rows))) [.digestClose sid]))

/-- The item of a committed command in the program hash (R173). -/
def Cmd.item (c : Cmd) : List Byte :=
  let ws := (List.range 16).map (fun i => if i = 0 then fld (c.w 0) 15 0 else c.w i)
  natLe 1 (b2n (c.skip != .run)) ++ wordsBytes ws ++ wordsBytes ((List.range 8).map (fun i => c.s i))

-- control commands

/-- NOP: no work. -/
def execNop (q : Nat) (i : U32) (s : State) : Host.Outcome State Fault Refusal :=
  .next (s.runCmd q i 0x00 (fun s _ _ => .done s []))

/-- WAIT: it starts once its waits are met, and is then complete (R41). -/
def execWait (q : Nat) (i : U32) (s : State) : Host.Outcome State Fault Refusal :=
  .next (s.runCmd q i 0x01 (fun s _ _ => .done s []))

/-- SIGNAL: its signals belong to its commit. -/
def execSignal (q : Nat) (i : U32) (s : State) : Host.Outcome State Fault Refusal :=
  .next (s.runCmd q i 0x02 (fun s _ _ => .done s []))

/-- Start of FENCE: what it waits for was noted when its waits were met (R42, State.fenceSet). -/
def startFence (s : State) (_ : Nat) (c : Cmd) : StartRes := .go s c

/-- Has a command committed, or has its queue been disabled? -/
def State.committed (s : State) (q : Nat) (idx : U32) : Bool :=
  (s.findCmd q idx).isNone && (!s.rbit (kq q + 0xC) 0 || decide (i32diff idx.toNat (s.reg (kq q + 0x10)) < 0))

/-- FENCE (R42). -/
def execFence (q : Nat) (i : U32) (s : State) : Host.Outcome State Fault Refusal :=
  .next (s.runCmd q i 0x03 (fun s _ c => if c.fence.all (fun p => s.committed p.1 p.2) then .done s [] else .busy s))

/-- The condition of SKIP_IF on a counter's value (R43). -/
def skipCond (cond v val : Nat) : Bool :=
  match cond with
  | 0 => v == val
  | 1 => v != val
  | 2 => decide (0 ≤ i32diff v val)
  | _ => decide (i32diff v val < 0)

/-- Start of SKIP_IF: the counter is tested (R43). -/
def startSkipIf (s : State) (q : Nat) (c : Cmd) : StartRes :=
  let hit := skipCond (fld (c.s 1) 1 0) (s.ctr (s.owner q) (c.s 0)) (c.s 2)
  let x := s.queue q
  .go (s.setQueue q { x with wins := x.wins.map (fun w => if w.at_ = c.idx then { w with hit := some hit } else w) }) c

/-- SKIP_IF: complete once all commands of its window are present in the queue (R43). -/
def execSkipIf (q : Nat) (i : U32) (s : State) : Host.Outcome State Fault Refusal :=
  .next (s.runCmd q i 0x04 (fun s _ c =>
    if fld (c.s 1) 15 8 < (BitVec.ofNat 32 (s.reg (kq q + 0x14)) - c.idx).toNat then .done s [] else .busy s))

/-- MARK: its record and request belong to its commit (R378). -/
def execMark (q : Nat) (i : U32) (s : State) : Host.Outcome State Fault Refusal :=
  .next (s.runCmd q i 0x06 (fun s _ c => .done s [.mark (c.s 0) (bitOf (c.s 1) 0)]))

/-- Start of TRIGGER (R379). -/
def startTrigger (s : State) (_q : Nat) (c : Cmd) : StartRes :=
  let n := s.rf 0x1A010 12 0
  startIf s c (need (n == 0 || decide (s.rpair 0x1A014 + 2 * n ≤ 2 ^ 48)) eOobDesc 18)

/-- TRIGGER: it raises its trigger at its commit (R379). -/
def execTrigger (q : Nat) (i : U32) (s : State) : Host.Outcome State Fault Refusal :=
  .next (s.runCmd q i 0x07 (fun s _ c =>
    let lead := fld (c.s 1) 9 0
    .done s [.trigger (fld (c.s 0) 15 0) (if lead = 0 then 10 else lead) (bitOf (c.s 0) 16)]))

/-- A MARK at its commit (R378). -/
def State.markAct (s : State) (own q : Nat) (c : Cmd) (v : Nat) (trig : Bool) : State :=
  let s1 := s.trace 0x0A own q [c.idx.toNat, v, c.layer + c.opId * 2 ^ 16]
  if !trig then s1
  else if own = 16 ∨ s1.rbit 0x1A010 (16 + own) then s1.raiseTrigger 0xFFFE 10 false
  else s1.sysCount 10

end Sys2Proof.Machine
end

