-- ==== Sys2Proof/Machine/Control.lean ====
section
/-! DEFINITION. What every request on the control port passes (R305 to R307, R337): the port's state, privilege, and the
registers that answer before the block posts ready. -/
namespace Sys2Proof.Machine

/-- Is the control port accepting requests: domain 1 is released (R335, R337)? -/
def State.ctlUp (s : State) : Bool := !s.rst.low && decide (2 ≤ s.rst.rel)

/-- Registers that answer between release and ready: KRSTCAUSE, KBOOT_*, the Deck and the event queues (R337). -/
def earlyReg (off : Nat) : Bool :=
  off == 0x100 || (decide (0x200 ≤ off) && decide (off < 0x240)) || (decide (0x90000 ≤ off) && decide (off < 0x9000C))
    || (decide (0x90100 ≤ off) && decide (off < 0x90320))
    || (match windowOf off with
      | some (_, r) => decide (0xB00 ≤ r) && decide (r < 0xB20)
      | none => false)

/-- May an unprivileged request reach an offset: a context window, or an alias of the system window (R307, R385)? -/
def openTo (off : Nat) : Bool :=
  match windowOf off with
  | some (c, r) => decide (c < 16) || (decide (0xF00 ≤ r) && decide (r ≤ 0xF10))
  | none => false

/-- A request is taken: the response of the one before it is over, and so is the building of earlier packets (R258, log
entry 55). Its words are received (array 0x0B, R363). -/
def State.ctlBegin (s : State) : State := ({ s with ctl := {}, evNew := [] } : State).arrayWrite 0xB

/-- A write request of an offset: refused, of no effect, or carried out by f. -/
def State.ctlWrite (s : State) (off : Nat) (priv : Bool) (f : State → State) : State :=
  if !s.ctlUp then s
  else
    let s0 := s.ctlBegin
    if !priv && !openTo off then s0.sysCount 5
    else if !s.rst.posted && !earlyReg off then s0
    else f s0

end Sys2Proof.Machine
end

