-- ==== Sys2Proof/Machine/Route.lean ====
section
/-! DEFINITION. ROUTE (R60 to R62, R88, R99 to R102) from memory and from the Tap (R54 to R57), and the separate form
SCORE_SELECT, SEAL, ADMIT and SORT (R71 to R74, R103, R104). -/
namespace Sys2Proof.Machine

/-- Words of a route parameter block in a job, as a block. -/
def Job.block (j : Job) : Rpb := ⟨j.rpb.map (fun w => w.toNat)⟩
/-- The block a ROUTE read at its start (R60). -/
def Cmd.block (c : Cmd) : Rpb := ⟨c.rpb.map (fun w => w.toNat)⟩

def State.findJob (s : State) (own job : Nat) : Option Job := s.jobs.find? (fun j => j.ctx == own && j.job == job)
def State.updJob (s : State) (own job : Nat) (g : Job → Job) : State :=
  { s with jobs := s.jobs.map (fun j => if j.ctx = own ∧ j.job = job then g j else j) }

/-- The job of a context whose rows a save image holds: it is live until it ends (R71, R284). -/
def State.savedJob (s : State) (own : Nat) : Option Job :=
  (s.saves.flatMap (fun v => if v.ctx = own then v.jobs else [])).head?

/-- Is a route job of a context live (R71, R283)? -/
def State.liveJob (s : State) (own : Nat) : Bool := s.jobs.any (fun j => j.ctx == own) || (s.savedJob own).isSome

/-- R71: with another job live in the context a route command waits, or faults where the job came from its own queue. A
command of a saved job waits for the restore (log entry 15). -/
def State.otherJob (s : State) (own q : Nat) (job : Option Nat) : Option Bool :=
  match s.jobs.find? (fun j => j.ctx == own && some j.job != job), s.savedJob own with
  | some j, _ => some (j.q == q)
  | none, some j => some (some j.job != job && j.q == q)
  | none, none => none

/-- A command that names a job which is not in the pipes: it waits where a save holds the job, else it faults (R71). -/
def State.jobGone (s : State) (own job unit : Nat) : StartRes :=
  if (s.savedJob own).any (fun j => j.job == job) then .wait else .flt (flt eBadField unit)

/-- Stage-2 records of n rows from row0 on; none for another stage. -/
def State.gRecs (s : State) (stage : Nat) (d : Desc) (row0 n : Nat) : List GRec :=
  if stage = 2 then (List.range n).map (fun r => s.readGRec d (row0 + r)) else []

/-- What a command binds for scoring: FU bank, bias (slot, epoch). -/
def State.scoreEnv (s : State) (r : Rpb) (stage : Nat) (fuB : Option Nat) (biasB : List (Nat × U32)) : ScoreEnv :=
  { rpb := r, stage := stage, fu := s.fuBank (fuB.getD 0), bias := biasB.head?.map (fun p => (p.1, p.2.toNat % 2)) }

/-- The bank checks of R245 for a score function. -/
def State.scoreFu (s : State) (r : Rpb) : Option Flt :=
  if r.fn = 3 then none else s.fuCheck (if r.fn = 2 then 0x06 else 0x01) 3

/-- The bias binding of R63, or the fault of a layer the context does not own (log entry 31). -/
def State.biasBind (s : State) (own : Nat) (r : Rpb) (stage : Nat) : Except Flt (List (Nat × U32)) :=
  if !r.biasEn ∨ stage = 1 then .ok []
  else match s.layerSlot own r.layer with
    | some sl => .ok [(sl, u32 (s.cmbEpoch sl))]
    | none => .error (flt eNoMap 3)

-- ROUTE

def Cmd.stage (c : Cmd) : Nat := fld (c.s 1) 21 20
def Cmd.lmode (c : Cmd) : Nat := fld (c.s 4) 21 20

/-- Blocks of a pass times 4,096: the rows of a pass (section Route pipes). -/
def State.passRows (s : State) : Nat := 65536 * s.part.pipes.length

/-- Send the stream-start request of a pass on version 2 (R55). -/
def State.tapStart (s : State) (stream row0 n : Nat) : State :=
  if s.rf 0x10000 3 0 = 2 ∧ n ≠ 0 then
    { s with tap := { s.tap with out := s.tap.out ++ [[u32 (2 + 2 * 2 ^ 4 + stream * 2 ^ 16), u32 row0, u32 n, 0]] } }
  else s

/-- Does ROUTE run in several passes? -/
def State.multiPass (s : State) (t : Nat) : Bool := decide (s.passRows < t)

/-- The checks of ROUTE at start (R62, R81). -/
def State.routeChecks (s : State) (own : Nat) (c : Cmd) (r : Rpb) : Option Flt :=
  let st := c.stage
  let t := c.s 0
  let tapV1 := c.lmode != 2 && s.rf 0x10000 3 0 == 1
  let pre := r.check st tapV1 (s.rbit 0x61008 0)
  let lg := s.dsc own c 4
  let nine (f : Option Flt) : Option Flt := f.map (fun f => { f with check := 9 })
  let adm := nine (s.admitCheck own r (st == 1))
  let out := if st = 1 then none else nine (outCheck r t (s.dsc own c 2) (s.dsc own c 3) (s.multiPass t))
  let log := if c.lmode = 0 then none
    else logitCheck lg (if c.lmode = 1 then r.storeFmt else r.inFmt) t (r.cols st)
  let gs := if st = 0 then none else need (decide (64 * t ≤ (s.dsc own c 5).len)) eOobDesc 3
  firstFlt [pre, adm, out, log, gs, s.scoreFu r]

/-- Output ranges of a ROUTE. -/
def State.routeSpans (s : State) (own : Nat) (c : Cmd) (r : Rpb) : List (Nat × Nat) :=
  let t := c.s 0
  let st := c.stage
  let lg := s.dsc own c 4
  (if st = 1 then (s.dsc own c 5).span 0 (64 * t)
   else if t = 0 then (s.dsc own c 3).span 0 64
   else (s.dsc own c 2).span 0 (16 * t * r.k) ++ (s.dsc own c 3).span 0 (destExtent r.e t r.k (s.multiPass t)))
    ++ (if c.lmode = 1 then (List.range t).flatMap (fun i => lg.span (i * lg.rowB) (r.cols st * ebOf lg.fmt)) else [])

def State.findRun (s : State) (q : Nat) (i : U32) : Option TapRun := s.tapRuns.find? (fun x => x.q == q && x.idx == i)
def State.setRun (s : State) (x : TapRun) : State :=
  { s with tapRuns := s.tapRuns.map (fun y => if y.q = x.q ∧ y.idx = x.idx then x else y) }

/-- The regions that a ROUTE holds. -/
def Cmd.region (c : Cmd) (own q : Nat) : Region := { pipe := 0, ctx := own, job := false, q := q, idx := c.idx }

/-- Start of ROUTE. Where it takes a Tap stream it waits until KTAP_STATUS.UP is 1 (R344). A stream id that another
started and uncommitted ROUTE holds is waited for (R57). -/
def startRoute (s : State) (q : Nat) (c : Cmd) : StartRes :=
  let own := s.owner q
  let tap := c.lmode != 2
  let sid := c.s 6
  let t := c.s 0
  if tap ∧ (!s.rbit 0x10000 4 ∨ s.tapRuns.any (fun x => x.stream == some sid) ∨ s.tap.stops.contains sid) then .wait
  else match s.otherJob own q none with
  | some true => .flt (flt eBadField 3)
  | some false => .wait
  | none =>
    if tap ∧ (s.queue q).kept.any (fun k => k.idx == c.idx && k.tapBad) then .flt (flt eTapStream 2)
    else
      let r := s.readRpb own (c.h 1)
      match s.routeChecks own c r, s.biasBind own r c.stage with
      | some f, _ => .flt f
      | none, .error f => .flt f
      | none, .ok bias =>
        let reg := c.region own q
        let bs := s.passBlocks t 0
        let p0 := s.placeBlocks reg (bs.take 1)
        if !p0.1 then .hold p0.2
        else
          let s1 := (p0.2.placeBlocks reg (bs.drop 1)).2
          let c1 := { c with rpb := r.w.map u32, biasB := bias, fuB := if r.fn = 3 then none else some s.fuLive,
                             mapB := if c.stage = 1 then none else s.bindMap own r.layer, wrote := s.routeSpans own c r }
          let n := min t s.passRows
          let run : TapRun := { q := q, idx := c.idx, ctx := own, stream := if tap then some sid else none
                                rows := List.replicate n [], done := t == 0 }
          let s2 : State := { s1 with tapRuns := s1.tapRuns ++ [run] }
          .go (if tap then s2.tapStart sid 0 n else s2) c1

/-- What the Keystone writes for the sealed rows of a command, and its commit effects (R82, R99 to R102). -/
def State.keystone (s : State) (own : Nat) (r : Rpb) (t epoch cap : Nat) (rrec dest : Desc) (sels : List Sel)
    (ks : List KRec) (multi : Bool) : State × List Act :=
  if t = 0 then
    (s.puts (dest.put 0 (destHdrBytes 0 0 0 0 0 0 0 epoch cap 0 r.e r.layer)), [])
  else
    let o := sortRecs cap ks
    let s1 := s.puts (sortWrites s.chip epoch cap t r.e r.layer rrec dest sels o)
    let s2 := if multi then
        s1.scramble (dest.span (destBuckets r.e t + 16 * min (t * r.k) (4 * r.e)) (16 * t * r.k)) else s1
    ((s2.opCount 5 15 ks.length).acct own 1 ks.length, [.count 4 o.dropped.length])

/-- Experts that selections name, for the lookups of the placement map. -/
def selExperts (sels : List Sel) : List Nat := sels.flatMap (fun x => if x.nan ∨ x.masked then [] else x.ents.map (fun e => e.1))

/-- What scoring n columns of t rows reads: the logits of a tensor, the route parameter block, the bound bias and the group
records (R280). -/
def scoreReads (lg : Option Desc) (gs : Option Desc) (t n bias : Nat) : List (Nat × Nat × Bool) :=
  (lg.elim [] (fun d => [(t, n * ebOf d.fmt, d.half)])) ++ flatReads 1 64 ++ flatReads 1 (4 * bias)
    ++ (gs.elim [] (fun d => d.headReads (64 * t)))

/-- The end of a ROUTE whose rows are all sealed. -/
def State.routeEnd (s : State) (q own : Nat) (c : Cmd) (r : Rpb) (sels : List Sel) (acts : List Act) : State × List Act :=
  let t := c.s 0
  let rd := scoreReads (if c.lmode = 2 then some (s.dsc own c 4) else none) (if c.stage = 2 then some (s.dsc own c 5) else none) t
    (r.cols c.stage) (if c.biasB.isEmpty then 0 else r.e)
  let s1 := ((s.charge own [0]).chargeReads own rd).freeRegionsOf q c.idx
  if c.stage = 1 then
    let d := s.dsc own c 5
    (s1.puts ((List.range t).flatMap (fun i => d.put (64 * i) (sels.getD i {}).gbytes)), acts)
  else
    let m := c.mapB.getD (0, 0)
    let bank := m.2.toNat % 2
    let ks := s1.allRecs m.1 bank r.repl sels
    let k := (s1.mapLookups own m.1 bank (selExperts sels)).keystone own r t m.2.toNat (s1.capOf r t m.1 bank) (s.dsc own c 2)
      (s.dsc own c 3) sels ks (s.multiPass t)
    (k.1, acts ++ k.2)

/-- FU results of scored rows, and of sealed rows under SELK (R366). -/
def State.fuScore (s : State) (own : Nat) (r : Rpb) (fu : FuBank) (rows : List (List Score)) : State :=
  match r.fn with
  | 0 => s.fuCharge own 0x01 ((rows.map (fun x => (x.filter (fun y => y.live && !y.inf)).length)).sum) fu 13
  | 2 => s.fuCharge own 0x06 ((rows.map (fun x => (x.filter (fun y => y.live)).length)).sum) fu 13
  | _ => s
def State.fuSeal (s : State) (own : Nat) (r : Rpb) (fu : FuBank) (sels : List Sel) : State :=
  if r.fn = 1 then s.fuCharge own 0x01 ((sels.map (fun x => x.ents.length)).sum) fu 13 else s

/-- Count rows that seal: FU results, rows, and assignments selected (R366 ops 3, 4, 18). -/
def State.sealCount (s : State) (own : Nat) (r : Rpb) (fu : FuBank) (sels : List Sel) : State :=
  ((s.fuSeal own r fu sels).opCount 3 15 sels.length).opCount 4 15 ((sels.map (fun x => x.ents.length)).sum)

/-- Selections of n rows of the current pass from row lo of it on. -/
def State.selsOf (s : State) (x : TapRun) (c : Cmd) (lo n : Nat) : List Sel :=
  let r := c.block
  let v := s.scoreEnv r c.stage c.fuB c.biasB
  let gs := s.gRecs c.stage (s.dsc x.ctx c 5) (x.pass * s.passRows + lo) n
  (List.range n).map (fun i => r.seal c.stage v.fu (gs.getD i default) (x.rows.getD (lo + i) []))

/-- The rows of a pass are all in and sealed: its regions are free, and the next pass opens, from the Tap with a stream-start
request (R45, R55, R60). -/
def State.sealPass (s : State) (x : TapRun) (c : Cmd) : TapRun × State :=
  let sels := s.selsOf x c 0 x.rows.length
  let row0 := (x.pass + 1) * s.passRows
  let n := min (c.s 0 - row0) s.passRows
  let y : TapRun := { x with seals := x.seals ++ sels, acts := x.acts ++ rowActs x.rows sels, pass := x.pass + 1
                             rows := List.replicate n [], done := decide (c.s 0 ≤ row0) }
  let s1 := s.freeRegionsOf x.q x.idx
  if y.done then (y, s1)
  else
    let s2 := (s1.placeBlocks (c.region x.ctx x.q) (s1.passBlocks (c.s 0) (x.pass + 1))).2
    (y, match x.stream with
      | some sid => s2.tapStart sid row0 n
      | none => s2)

/-- Have all rows of block b of the current pass sealed? -/
def TapRun.blockIn (x : TapRun) (cols b : Nat) : Bool :=
  ((x.rows.drop (4096 * b)).take 4096).all (fun row => decide (cols ≤ row.length))

/-- One block of a pass from memory: its rows are scored and seal, and its region is free (R45). -/
def State.routeBlock (s : State) (x : TapRun) (c : Cmd) (b : Nat) : TapRun × State :=
  let r := c.block
  let v := s.scoreEnv r c.stage c.fuB c.biasB
  let lo := 4096 * b
  let m := min 4096 (x.rows.length - lo)
  let row0 := x.pass * s.passRows + lo
  let gs := s.gRecs c.stage (s.dsc x.ctx c 5) row0 m
  let n := r.cols c.stage
  let got := (List.range m).map (fun i => s.scoreRow v (gs.getD i default) (s.dsc x.ctx c 4) (row0 + i) 0 n)
  let y : TapRun := { x with rows := x.rows.take lo ++ got ++ x.rows.drop (lo + m) }
  let s1 := ((s.opCount 1 13 (n * m)).fuScore x.ctx r v.fu got).sealCount x.ctx r v.fu (s.selsOf y c lo m)
  (y, s1.freeBlock (c.region x.ctx x.q) b)

/-- The blocks of a pass from memory, each once it has a region. -/
def State.routeBlocks (s : State) (x : TapRun) (c : Cmd) : List Nat → TapRun × State
  | [] => (x, s)
  | b :: bs =>
    let reg := c.region x.ctx x.q
    if x.blockIn (c.block.cols c.stage) b then s.routeBlocks x c bs
    else
      let p := if s.placed reg b then (true, s) else s.placeBlocks reg [b]
      let t := if p.1 then p.2.routeBlock x c b else (x, p.2)
      t.2.routeBlocks t.1 c bs

/-- The passes of a ROUTE from memory, as far as regions let them go (R45). -/
def State.routePasses (s : State) (c : Cmd) : Nat → TapRun → TapRun × State
  | 0, x => (x, s)
  | k + 1, x =>
    if x.done then (x, s)
    else
      let p := s.routeBlocks x c (s.passBlocks (c.s 0) x.pass)
      if p.1.rows.any (fun row => decide (row.length < c.block.cols c.stage)) then p
      else
        let t := p.2.sealPass p.1 c
        t.2.routePasses c k t.1

/-- The run of ROUTE: from memory its passes, from the Tap what its tiles have done; then the Keystone places (R45, R60). -/
def runRoute (s : State) (own : Nat) (q : Nat) (c : Cmd) : RunRes :=
  match s.findRun q c.idx with
  | none => .busy s
  | some x0 =>
    let p := if x0.stream.isNone then s.routePasses c (c.s 0 / s.passRows + 1) x0 else (x0, s)
    let s1 := p.2.setRun p.1
    if p.1.done then
      let e := (if c.lmode = 1 then s1.unhide q c.idx else s1).routeEnd q own c c.block p.1.seals p.1.acts
      .done e.1 e.2
    else .busy s1

/-- ROUTE (R60, R34). -/
def execRoute (q : Nat) (i : U32) (s : State) : Host.Outcome State Fault Refusal :=
  .next (s.runCmd q i 0x10 (fun s own c => runRoute s own q c))

-- SCORE_SELECT

/-- Start of SCORE_SELECT: the route parameter block is read and checked at each (R62, R71, R72). What the spec leaves open, and
the model's choice (DESIGN CHOICE, log entry 57): the bias bank is bound at the job's first SCORE_SELECT and kept for the job
(R63); the columns of a SCORE_SELECT count as received from its start on, for the next one's COL0 and for SEAL's
E_ROW_INCOMPLETE (R72), and the later command's run waits for them. -/
def startScore (s : State) (q : Nat) (c : Cmd) : StartRes :=
  let own := s.owner q
  let job := c.s 2
  let t := c.s 0
  let st := c.stage
  match s.otherJob own q (some job) with
  | some true => .flt (flt eBadField 3)
  | some false => .wait
  | none =>
    let old := s.findJob own job
    let same := match old with
      | some j => j.t == t && j.param == c.h 1 && j.stage == st && !j.sealed
      | none => true
    if !same then .flt (flt eBadField 3)
    else
      let r := s.readRpb own (c.h 1)
      let cols := r.cols st
      let got := match old with
        | some j => j.cols
        | none => 0
      let c0 := c.s 3
      let n := c.s 4
      let f := firstFlt [r.check st false (s.rbit 0x61008 0),
        need (c0 == got && decide (c0 + n ≤ cols) && (n % 64 == 0 || c0 + n == cols)) eBadField 3,
        logitCheck (s.dsc own c 5) r.inFmt t cols,
        (if st = 2 then need (decide (64 * t ≤ (s.dsc own c 6).len)) eOobDesc 3 else none),
        (if old.isSome then none else s.scoreFu r)]
      match f, s.biasBind own r st with
      | some f, _ => .flt f
      | none, .error f => .flt f
      | none, .ok bias =>
        let reg : Region := { pipe := 0, ctx := own, job := true, q := q }
        match old with
        | some j =>
          .go (s.updJob own job (fun x => { x with cols := c0 + n })) { c with rpb := r.w.map u32, fuB := j.fuB, biasB := j.biasB }
        | none =>
          let bs := s.passBlocks t 0
          let p0 := s.placeBlocks reg (bs.take 1)
          if !p0.1 then .hold p0.2
          else
            let s1 := (p0.2.placeBlocks reg (bs.drop 1)).2
            let fuB := if r.fn = 3 then none else some s.fuLive
            let j : Job := { ctx := own, job := job, q := q, t := t, param := c.h 1, stage := st, rpb := r.w.map u32,
                             cols := c0 + n, rows := List.replicate t [], fuB := fuB, fuE := u32 (s1.reg 0x80000),
                             biasB := bias }
            let s2 : State := { s1 with jobs := s1.jobs ++ [j] }
            .go (s2.setRbit (kctx own + 4) 3 false) { c with rpb := r.w.map u32, fuB := fuB, biasB := bias }

/-- The run of SCORE_SELECT: blocks still to be placed are placed; each row takes the columns it has not yet received
(R45, R73). Which command of the separate form causes a flag or count is open in R77: clipped logits and bias entries are
this command's, NaN rows, masked rows and infinities are the SEAL's (DESIGN CHOICE, log entry 57). -/
def runScore (s : State) (own : Nat) (_q : Nat) (c : Cmd) : RunRes :=
  match s.findJob own (c.s 2) with
  | none => .busy s
  | some j =>
    let reg : Region := { pipe := 0, ctx := own, job := true, q := j.q }
    let r := c.block
    let todo := (s.passBlocks j.t 0).filter (fun b => !s.placed reg b)
    let p := s.placeBlocks reg todo
    let c0 := c.s 3
    let n := c.s 4
    if !p.1 then .busy p.2
    else if j.rows.any (fun x => decide (x.length < c0)) then .busy p.2
    else
      let s1 := p.2
      let v := s1.scoreEnv r j.stage j.fuB j.biasB
      let gs := s1.gRecs j.stage (s1.dsc own c 6) 0 j.t
      let rows := (List.range j.t).map (fun i =>
        let old := j.rows.getD i []
        if c0 + n ≤ old.length then old
        else old ++ (s1.scoreRow v (gs.getD i default) (s1.dsc own c 5) i c0 n).drop (old.length - c0))
      let mine := rows.map (fun x => (x.drop c0).take n)
      let s2 := (((s1.updJob own j.job (fun x => { x with rows := rows })).opCount 1 13 (n * j.t)).fuScore own r v.fu mine).charge own [0]
      let rd := scoreReads (some (s.dsc own c 5)) (if j.stage = 2 then some (s.dsc own c 6) else none) j.t n
        (if j.biasB.isEmpty then 0 else n)
      .done (s2.chargeReads own rd) (rowActs mine [])

/-- SCORE_SELECT (R72, R73). -/
def execScoreSelect (q : Nat) (i : U32) (s : State) : Host.Outcome State Fault Refusal :=
  .next (s.runCmd q i 0x11 (fun s own c => runScore s own q c))

-- SEAL

/-- Start of SEAL (R71, R72, R74). From here the job counts as sealed (DESIGN CHOICE, log entry 58: R103 does not say whether a
SEAL that has not committed does). -/
def startSeal (s : State) (q : Nat) (c : Cmd) : StartRes :=
  let own := s.owner q
  match s.findJob own (c.s 0) with
  | none => s.jobGone own (c.s 0) 3
  | some j =>
    let r := j.block
    let gNeed := j.stage = 1 ∨ (j.stage = 2 ∧ r.mulgw)
    let srec := bitOf (c.s 1) 20 && j.stage != 1
    let f := firstFlt [need (!j.sealed) eBadField 3, need (decide (gNeed ↔ c.h 2 ≠ 0)) eBadField 3,
      need (decide (r.cols j.stage ≤ j.cols)) eRowIncomplete 3,
      (if srec then need (decide (64 * j.t ≤ (s.dsc own c 1).len)) eOobDesc 3 else none),
      (if gNeed then need (decide (64 * j.t ≤ (s.dsc own c 2).len)) eOobDesc 3 else none),
      need (j.stage != 1 || !(s.dsc own c 2).ro) eBadField 3]
    match f with
    | some f => .flt f
    | none =>
      let w := (if srec then (s.dsc own c 1).span 0 (64 * j.t) else [])
        ++ (if j.stage = 1 then (s.dsc own c 2).span 0 (64 * j.t) else [])
      .go (s.updJob own j.job (fun x => { x with sealed := true })) { c with fuB := j.fuB, wrote := w }

/-- The run of SEAL: waits for the columns of started SCORE_SELECTs, then seals every row (R68, R74). -/
def runSeal (s : State) (own : Nat) (_q : Nat) (c : Cmd) : RunRes :=
  match s.findJob own (c.s 0) with
  | none => .busy s
  | some j =>
    let r := j.block
    if j.rows.any (fun x => decide (x.length < r.cols j.stage)) then .busy s
    else
      let fu := s.fuBank (j.fuB.getD 0)
      let gs := if r.mulgw then s.gRecs j.stage (s.dsc own c 2) 0 j.t else []
      let sels := (List.range j.t).map (fun i => r.seal j.stage fu (gs.getD i default) (j.rows.getD i []))
      let d1 := s.dsc own c 1
      let d2 := s.dsc own c 2
      let ix := List.range j.t
      let w := if j.stage = 1 then ix.flatMap (fun i => d2.put (64 * i) (sels.getD i {}).gbytes)
        else if bitOf (c.s 1) 20 then ix.flatMap (fun i => d1.put (64 * i) (sels.getD i {}).bytes) else []
      let s1 := ((s.puts w).updJob own j.job (fun x => { x with sel := sels })).sealCount own r fu sels
      .done ((s1.charge own [0]).chargeReads own (if j.stage = 2 ∧ r.mulgw then d2.headReads (64 * j.t) else []))
        (rowActs [] sels ++ (if j.stage = 1 then [.jobEnd] else [.jobSealed]))

/-- SEAL (R68 to R74). -/
def execSeal (q : Nat) (i : U32) (s : State) : Host.Outcome State Fault Refusal :=
  .next (s.runCmd q i 0x12 (fun s own c => runSeal s own q c))

-- ADMIT

/-- Start of ADMIT (R81, R96, R103). -/
def startAdmit (s : State) (q : Nat) (c : Cmd) : StartRes :=
  let own := s.owner q
  match s.findJob own (c.s 0) with
  | none => s.jobGone own (c.s 0) 5
  | some j =>
    let r := j.block
    let src := bitOf (c.s 1) 20
    let f := firstFlt [need (j.sealed && j.stage != 1 && !j.admitting) eBadField 5, s.admitCheck own r false,
      (if src then need (decide (64 * j.t ≤ (s.dsc own c 1).len)) eOobDesc 5 else none)]
    match f with
    | some f => .flt f
    | none =>
      let m := s.bindMap own r.layer
      .go (s.updJob own j.job (fun x => { x with admitting := true, mapB := m })) { c with mapB := m }

/-- The run of ADMIT: the selections, their replicas, and C (R79, R89, R103). It waits for a SEAL that is still at work
(DESIGN CHOICE, log entry 58). -/
def runAdmit (s : State) (own : Nat) (_q : Nat) (c : Cmd) : RunRes :=
  match s.findJob own (c.s 0) with
  | none => .busy s
  | some j =>
    let r := j.block
    let src := bitOf (c.s 1) 20
    let d := s.dsc own c 1
    if !src ∧ j.sel.length ≠ j.t then .busy s
    else if src ∧ (List.range j.t).any (fun i => !s.selOk d r.k r.e i) then .flt s (flt eBadField 5)
    else
      let sels := if src then (List.range j.t).map (fun i => s.readSel d i) else j.sel
      let m := c.mapB.getD (0, 0)
      let bank := m.2.toNat % 2
      let ks := s.allRecs m.1 bank r.repl sels
      let s1 := s.updJob own j.job (fun x => { x with
        asel := sels, krecs := ks, cap := s.capOf r j.t m.1 bank })
      .done ((((s1.mapLookups own m.1 bank (selExperts sels)).acct own 1 ks.length).charge own [0]).chargeReads own
        (if src then d.headReads (64 * j.t) else [])) [.jobAdmitted]

/-- ADMIT (R103). -/
def execAdmitJob (q : Nat) (i : U32) (s : State) : Host.Outcome State Fault Refusal :=
  .next (s.runCmd q i 0x13 (fun s own c => runAdmit s own q c))

-- SORT

/-- Start of SORT (R104, R81 step 4). -/
def startSort (s : State) (q : Nat) (c : Cmd) : StartRes :=
  let own := s.owner q
  match s.findJob own (c.s 0) with
  | none => s.jobGone own (c.s 0) 6
  | some j =>
    let r := j.block
    match firstFlt [need j.admitted eBadField 6, outCheck r j.t (s.dsc own c 1) (s.dsc own c 2) false] with
    | some f => .flt f
    | none =>
      let w := if j.t = 0 then (s.dsc own c 2).span 0 64
        else (s.dsc own c 1).span 0 (16 * j.t * r.k) ++ (s.dsc own c 2).span 0 (destExtent r.e j.t r.k false)
      .go s { c with wrote := w }

/-- The run of SORT: merge and place (R99 to R101). -/
def runSort (s : State) (own : Nat) (_q : Nat) (c : Cmd) : RunRes :=
  match s.findJob own (c.s 0) with
  | none => .busy s
  | some j =>
    let k := s.keystone own j.block j.t ((j.mapB.getD (0, 0)).2.toNat) j.cap (s.dsc own c 1) (s.dsc own c 2) j.asel
      j.krecs false
    .done (k.1.charge own [0]) (k.2 ++ [.jobEnd])

/-- SORT (R104). -/
def execSort (q : Nat) (i : U32) (s : State) : Host.Outcome State Fault Refusal :=
  .next (s.runCmd q i 0x14 (fun s own c => runSort s own q c))

-- restore

/-- The saved tags that lie in ways of their context are fetched again (R98, R285). -/
def State.refetch (s : State) (c : Nat) : List MapLine → State
  | [] => s
  | t :: ts =>
    if bitOf (s.mapWays c) t.way then
      let s1 := s.mapRead c
      let s2 : State := { s1 with mapLines := s1.mapLines.filter (fun x => !(x.way == t.way && x.set == t.set)) ++ [t] }
      s2.refetch c ts
    else s.refetch c ts

/-- The saved context takes its regions as they come; once it has all, its job is live again and its tags are back (R45,
R278, R283, R285). -/
def State.restoreTry (s : State) (c : Nat) : State :=
  match s.saves.find? (fun v => v.ctx == c && !v.open_) with
  | none => s
  | some v =>
    let reg : Region := { pipe := 0, ctx := c, job := true, q := (v.regions.head?.map (fun r => r.q)).getD 0 }
    let p := s.placeBlocks reg ((v.regions.map (fun r => r.block)).filter (fun b => !s.placed reg b))
    if !p.1 then p.2
    else
      let s1 : State := { p.2 with
        jobs := p.2.jobs ++ v.jobs
        saves := p.2.saves.filter (fun x => x.ctx != c) }
      let s2 := if v.jobs.isEmpty then s1 else s1.setRbit (kctx c + 4) 3 false
      (((s2.setRbit (kctx c + 4) 4 false).refetch c v.tags).setRbit (kctx c + 0xC) 2 true).setRbit (kctx c + 0xC) 1 false

/-- A restore that waits for regions tries again. -/
def State.restoreWaits (s : State) (c : Nat) : State :=
  if c < 16 ∧ s.rbit (kctx c + 0xC) 1 then s.restoreTry c else s

end Sys2Proof.Machine
end

