-- ==== Sys2Proof/Machine/Fetch.lean ====
section
/-! DEFINITION. From the doorbell to the start of a command: doorbells (R22), decode with its ordered checks (R51),
SKIP_IF windows (R43, R44), waits (R30), and the start with its bindings (R33, R39, R42). -/
namespace Sys2Proof.Machine

-- SKIP_IF windows

/-- Does a window cover queue index i (R43)? -/
def SkipWin.covers (w : SkipWin) (i : U32) : Bool :=
  let k := i32diff i.toNat w.at_.toNat
  decide (1 ≤ k) && decide (k ≤ (w.n : Int))

/-- How the decided windows of a queue treat index i. -/
def Queue.skipOf (x : Queue) (i : U32) : Skip :=
  match x.wins.find? (fun w => w.covers i && w.hit == some true) with
  | some w => if w.sig then .signal else .quiet
  | none => .run

/-- Does a window whose test has not been made cover index i? -/
def Queue.undecided (x : Queue) (i : U32) : Bool :=
  x.skipOf i == .run && x.wins.any (fun w => w.covers i && w.hit.isNone)

/-- Carry the outcome of a test to the waiting commands, and to a SKIP_IF that is itself skipped (R44). -/
def Queue.settle (x : Queue) : Queue :=
  let ws := x.wins.map (fun w => if w.hit.isNone ∧ x.skipOf w.at_ ≠ .run then { w with hit := some false } else w)
  let y : Queue := { x with wins := ws }
  { y with cmds := y.cmds.map (fun c => if c.phase = .waiting then { c with skip := y.skipOf c.idx } else c) }

-- doorbells

/-- Slots of queue q (R21). -/
def State.qSize (s : State) (q : Nat) : Nat := 2 ^ s.rf (kq q + 8) 4 0

/-- A doorbell of queue q from a window (R22); an accepted one re-evaluates the waits of the context (R30). -/
def State.doorbell (s : State) (w q v : Nat) : State :=
  if s.owner q ≠ w then s.ctxCount w 17 1
  else if !s.rbit (kq q + 0xC) 0 then s.setRbit (kq q + 0x18) 3 true
  else
    let tail := s.reg (kq q + 0x14)
    let head := s.reg (kq q + 0x10)
    if 0 < i32diff v tail ∧ (BitVec.ofNat 32 v - BitVec.ofNat 32 head).toNat ≤ s.qSize q
    then ((s.setReg (kq q + 0x14) v).arrayWrite 9).pollOwner w
    else s.setRbit (kq q + 0x18) 3 true

-- decode

/-- Verdict of decode: a fault, the deferral of R215, or the handles bound. -/
inductive DecRes where
  | fault (f : Flt)
  | later
  | ok (binds : List Nat)
  deriving DecidableEq, Repr

/-- Check 7 on the handles of a command: kept bindings stay good (R215), and a skipped command may name what its own
window would have created. -/
def State.handlesGo (s : State) (own : Nat) (x : Queue) (c : Cmd) : List (Nat × Bool) → List Nat → DecRes
  | [], bs => .ok bs
  | (h, req) :: l, bs =>
    if h = 0 ∧ !req then s.handlesGo own x c l bs
    else if x.kept.any (fun k => k.idx == c.idx && k.binds.contains h) then s.handlesGo own x c l (bs ++ [h])
    else if x.skipOf c.idx ≠ .run ∧ x.wins.any (fun w => w.covers c.idx && w.made.contains h) then s.handlesGo own x c l bs
    else match s.handleCheck own x.cmds h with
      | .ok => s.handlesGo own x c l (bs ++ [h])
      | .oob => .fault { flt eOobDesc 1 7 with lo := h }
      | .badCode => .fault { flt eBadField 1 7 with lo := h }
      | .defer => .later

/-- The checks of R51 in their order; a context without memory ports has none of the units (R279). -/
def State.decodeChecks (s : State) (q : Nat) (x : Queue) (c : Cmd) : DecRes :=
  let own := s.owner q
  let sys := own == 16
  let bad := x.wins.any (fun w => w.covers c.idx && skipBad c.op (!w.sig))
  match firstFlt [need (fld (c.w 0) 31 16 == c.idx.toNat % 65536) eBadSeq 1 1,
      need (opOk c.op) eBadField 1 2,
      need (!c.priv || sys) ePriv 1 3,
      need (!absentUnit s.part c && (sys || s.rf (kctx own) 23 16 != 0)) eNoUnit 1 4,
      need (c.check5 s.part.pipes.length sys bad) eBadField 1 5,
      (c.counters.find? (fun i => decide (s.reg (win own + 0x108) ≤ i))).map (fun i => { flt eOobCounter 1 6 with lo := i })] with
  | some f => .fault f
  | none =>
    match s.handlesGo own x c (c.indHandles.map (fun h => (h, true))) [] with
    | .ok _ => s.handlesGo own x c c.handles []
    | r => r

/-- Words of the slot of index i, in the ring that KQ_BASE gave at the enable (section Queues, R389). -/
def State.slotWords (s : State) (q : Nat) (i : U32) : List U32 :=
  let a := s.lpair (kq q) + 64 * (i.toNat % s.qSize q)
  (List.range 16).map (fun k => u32 (s.rd32 (a + 4 * k)))

/-- A decoded command joins its queue; a SKIP_IF opens its window, and a DESC_CREATE is noted in the windows over it. -/
def Queue.push (x : Queue) (c : Cmd) : Queue :=
  let sk := x.skipOf c.idx
  let w1 := if c.op = 0x04 then
      let w : SkipWin := { at_ := c.idx, n := fld (c.s 1) 15 8, sig := bitOf (c.s 1) 2,
                           hit := if sk = .run then none else some false }
      x.wins.filter (fun v => v.at_ != c.idx) ++ [w]
    else x.wins
  let w2 := if c.op = 0x48 then
      w1.map (fun w => if w.covers c.idx then { w with made := w.made ++ [c.h 0] } else w) else w1
  { x with dec := c.idx + 1, wins := w2, cmds := x.cmds ++ [{ c with skip := sk }] }

/-- The next slot of queue q and its verdict: none where no slot is to be decoded (R24, R51). -/
def State.nextSlot (s : State) (q : Nat) : Option (Cmd × DecRes) :=
  let x := s.queue q
  if !s.serves q ∨ x.killing ∨ i32diff (s.reg (kq q + 0x14)) x.dec.toNat ≤ 0 then none
  else
    let c : Cmd := { idx := x.dec, words := s.slotWords q x.dec }
    some (c, s.decodeChecks q x c)

/-- Has queue q a command ready to decode: one that no earlier DESC_CREATE defers (R50, R215)? -/
def State.canDecode (s : State) (q : Nat) : Bool := match s.nextSlot q with
  | some (_, .later) => false
  | some _ => true
  | none => false

/-- Decode class of a queue (R50): 0 system and communication queues (R201), 1 latency-critical, 2 best-effort. -/
def State.decClass (s : State) (q : Nat) : Nat :=
  if s.owner q = 16 ∨ s.rbit (kq q + 8) 13 then 0 else if s.rbit (kctx (s.owner q)) 1 then 1 else 2

/-- The queue of a class that is served next, round-robin by queue number after the one served last. -/
def State.turnOf (s : State) (k last : Nat) : Option Nat :=
  ((List.range 64).map (fun i => (last + 1 + i) % 64)).find? (fun q => s.decClass q == k && s.canDecode q)

/-- The queue that the Abutment decodes next (R50): system queues, then latency-critical contexts, then best-effort ones; a
best-effort queue where fifteen decodes have gone by while one was ready. -/
def State.decodeTurn (s : State) : Option Nat :=
  let be := s.turnOf 2 s.arb.be
  if be.isSome ∧ 15 ≤ s.arb.n then be
  else match s.turnOf 0 s.arb.sys with
    | some q => some q
    | none => match s.turnOf 1 s.arb.lc with
      | some q => some q
      | none => be

/-- The arbiter after queue q has been served. -/
def State.arbAfter (s : State) (q : Nat) : ArbSt :=
  match s.decClass q with
  | 0 => { s.arb with sys := q, n := if (s.turnOf 2 s.arb.be).isSome then s.arb.n + 1 else 0 }
  | 1 => { s.arb with lc := q, n := if (s.turnOf 2 s.arb.be).isSome then s.arb.n + 1 else 0 }
  | _ => { s.arb with be := q, n := 0 }

/-- Decode the next slot of queue q, where it is that queue's turn (R24, R50, R51). -/
def State.decodeNext (s : State) (q : Nat) : State :=
  if s.decodeTurn ≠ some q then s
  else
    let s0 : State := { s with arb := s.arbAfter q }
    let x := s.queue q
    match s.nextSlot q with
    | some (c, .ok bs) =>
      let s1 := ((s0.setQueue q (x.push { c with binds := bs })).descFills (s.owner q) bs).arrayWrite 8
      (((if bs.isEmpty then s1 else s1.arrayWrite 5).chargeReads (s.owner q) (flatReads 1 64)).chargeFills (s.owner q)
        bs.length).energy (s.owner q) 7 1
    | some (c, .fault f) => (s0.setQueue q { x with dec := x.dec + 1, cmds := x.cmds ++ [c] }).fault q x.dec c.op f
    | _ => s

-- start

/-- The start of an opcode: its waits, its checks and its bindings. -/
def State.startOp (s : State) (q : Nat) (c : Cmd) : StartRes :=
  match c.op with
  | 0x03 => startFence s q c
  | 0x04 => startSkipIf s q c
  | 0x05 => startBarrier s q c
  | 0x07 => startTrigger s q c
  | 0x10 => startRoute s q c
  | 0x11 => startScore s q c
  | 0x12 => startSeal s q c
  | 0x13 => startAdmit s q c
  | 0x14 => startSort s q c
  | 0x15 => startCount s q c
  | 0x20 => startDispatch s q c
  | 0x21 => startReturn s q c
  | 0x22 => startDrain s q c
  | 0x28 => startGroup s q c
  | 0x29 => startFeed s q c
  | 0x2A => startCombine s q c
  | 0x30 => startCopy s q c
  | 0x31 => startIndexed s q c
  | 0x32 => startIndexed s q c
  | 0x33 => startIndexed s q c
  | 0x34 => startIndexed s q c
  | 0x38 => startRing s q c
  | 0x39 => startRing s q c
  | 0x3A => startRing s q c
  | 0x3B => startRing s q c
  | 0x3C => startCamberAccum s q c
  | 0x3D => startCamberUpdate s q c
  | 0x40 => startLedgerAdmit s q c
  | 0x41 => startLedgerStep s q c
  | 0x42 => startLedgerRetire s q c
  | 0x48 => startDescCreate s q c
  | 0x49 => startDescRetire s q c
  | 0x4A => startMapLoad s q c
  | 0x4B => startPublish s q c
  | 0x4C => startFuLoad s q c
  | 0x4D => startFuApply s q c
  | 0x4E => startPoolConfig s q c
  | 0x50 => startDigestBegin s q c
  | 0x51 => startDigestEnd s q c
  | _ => .go s c

/-- Checks that an indirect value must pass before the start: its range, and the handles its count brings in. -/
def State.indChecks (s : State) (own : Nat) (c : Cmd) : Option Flt :=
  firstFlt [need (fieldsOk s.part.pipes.length (own == 16) c (fun _ => true)) eBadField 1,
    need (!(c.op == 0x50 || c.op == 0x51) || c.handles.all (fun p => p.1 != 0)) eOobDesc 1]

/-- Must the command wait to start for what stands before it in its queue (FENCE_PRE, R42, R174)? -/
def Queue.fenced (x : Queue) (c : Cmd) : Bool :=
  let first := match x.cmds with
    | y :: _ => y.idx == c.idx
    | [] => true
  ((c.flag 10 || c.op == 0x51) && !first)
    || (x.cmds.takeWhile (fun y => y.idx != c.idx)).any (fun y => y.op == 0x03 && y.skip == .run)

/-- Commands started and uncommitted, in queue q and in the block (section Commit). -/
def Queue.inflight (x : Queue) : Nat := (x.cmds.filter (fun c => c.live)).length

/-- Slots that name a region with a byte layout, and whether the command writes it (R393). -/
def Cmd.byteRegions (c : Cmd) : List (Nat × Bool) :=
  let on (b : Bool) (l : List (Nat × Bool)) : List (Nat × Bool) := if b then l else []
  let st := fld (c.s 1) 21 20
  match c.op with
  | 0x05 => [(1, false)]
  | 0x10 => [(1, false)] ++ on (st != 1) [(2, true), (3, true)] ++ on (st != 0) [(5, st == 1)]
  | 0x11 => [(1, false)] ++ on (st == 2) [(6, false)]
  | 0x12 => on (bitOf (c.s 1) 20) [(1, true)] ++ on (c.h 2 != 0) [(2, false)]
  | 0x13 => on (bitOf (c.s 1) 20) [(1, false)]
  | 0x14 => [(1, true), (2, true)]
  | 0x15 => [(1, true), (2, false), (3, false), (5, true)]
  | 0x20 => [(1, true), (2, false), (4, true)]
  | 0x21 => [(1, false), (2, false)]
  | 0x28 => [(1, false), (2, true)] ++ on (bitOf (c.s 3) 0) [(4, false), (6, true)]
  | 0x29 => [(1, true)] ++ on (c.h 2 != 0) [(2, false)]
  | 0x2A => [(1, false), (2, false), (3, false)]
  | 0x39 => [(7, true)]
  | 0x3A => [(7, true)]
  | 0x3B => [(6, false), (7, true)]
  | 0x3C => [(1, false)]
  | 0x3D => [(6, fld (c.s 1) 1 0 != 2)]
  | 0x40 => [(1, true)]
  | 0x41 => on (!bitOf (c.s 5) 16) ([(1, true)] ++ on (c.h 2 != 0) [(2, true)] ++ on (c.h 3 != 0) [(3, true)])
  | 0x42 => on (fld (c.s 1) 1 0 == 1) [(2, false)] ++ [(3, true)]
  | 0x4A => [(2, false)]
  | 0x4C => [(3, false)]
  | 0x51 => [(2, true)]
  | _ => []

/-- Are the regions of a command in a layout that its unit reads, and writable where it writes them (R211, R393)? A breach
is E_BAD_FIELD (DEDUCED, log entry 43). -/
def State.regionFlt (s : State) (own : Nat) (c : Cmd) : Option Flt :=
  need (c.byteRegions.all (fun p => (s.dsc own c p.1).layout == 0 && !(p.2 && (s.dsc own c p.1).ro))) eBadField 1

/-- Does a command read what stands in its output ranges: in place, or accumulating? -/
def Cmd.readsOwn (s : State) (own : Nat) (c : Cmd) : Bool := c.op == 0x33 || c.inPlace s own

/-- Does a command fill its output in several steps: a collective, or a ROUTE that stores the logits of its tiles? -/
def Cmd.fillsOwn (c : Cmd) : Bool :=
  (decide (0x38 ≤ c.op) && decide (c.op ≤ 0x3B)) || (c.op == 0x3D && c.camberRing) || (c.op == 0x10 && c.lmode == 1)

/-- What stands in some ranges. -/
def State.kept (s : State) (ws : List (Nat × Nat)) : List (Nat × List Byte) := ws.map (fun x => (x.1, s.rd x.1 x.2))

/-- From the start of a command to its commit its output ranges are undefined (R34), but the GOT of a FEED_ARM, which the host
follows (R141). A command that reads them, or fills them in several steps, works on what it keeps of them. -/
def State.hideAtStart (s : State) (own q : Nat) (c : Cmd) : State :=
  if c.phase ≠ .started ∨ c.op = 0x29 then s
  else
    let t := s.scramble c.wrote
    if c.readsOwn s own then t.updCmd q c.idx (fun c => { c with saved := s.kept c.wrote })
    else if c.fillsOwn then t.updCmd q c.idx (fun c => { c with saved := t.kept c.wrote })
    else t

/-- Does the start of an opcode write a codeword of an array (section Protection of internal arrays; log entry 26)? -/
def writesArray (op a : Nat) : Bool :=
  match a with
  | 1 => op == 0x10 || op == 0x11
  | 2 => op == 0x21 || op == 0x2A
  | 3 => decide (0x30 ≤ op) && decide (op ≤ 0x34)
  | 4 => op == 0x10 || op == 0x13
  | 6 => op == 0x4C
  | _ => a == 5 || (decide (8 ≤ a) && decide (a ≤ 0xB))

/-- A command takes its place among the started ones, with what it binds (R33, R34, R36, R215). -/
def State.startGo (s : State) (q : Nat) (c c1 : Cmd) : State :=
  let own := s.owner q
  let c2 : Cmd := { c1 with phase := if c1.phase = .waiting then .started else c1.phase
                            binds := c1.binds ++ c1.indHandles
                            mix := s.overlaps q c.idx c1.wrote }
  let s2 := ((s.meetOthers q c.idx c1.wrote).descFills own c1.indHandles).updCmd q c.idx (fun _ => c2)
  let s3 := if c.op = 0x04 then s2.setQueue q (s2.queue q).settle else s2
  let s4 := s3.hideAtStart own q c2
  let s5 := if writesArray c.op (s4.rf 0x1014 7 0) then s4.arrayWrite (s4.rf 0x1014 7 0) else s4
  s5.trace 0x01 own q (s5.cmdRec q c2)

/-- A DISPATCH, COUNT_XCHG, RETURN or FEED_ARM that starts, or faults at its start, has named its tag (R124). -/
def State.named (s : State) (q : Nat) (c : Cmd) : State :=
  match c.gen? with
  | some g => if c.op = 0x2A then s else s.nameGen (s.owner q) g
  | none => s

/-- A command that cannot start because an indirect slot cannot be read has named its tag, where that slot can be (R39,
R124). -/
def State.namedBad (s : State) (q : Nat) (c : Cmd) : State :=
  let i := match c.op with
    | 0x15 => 4
    | 0x21 => 3
    | 0x29 => 3
    | _ => 5
  match s.slotValue (s.owner q) c i with
  | .ok v => s.named q { c with slots := (List.range 8).map (fun k => if k = i then v else c.words.getD (8 + k) 0) }
  | .error _ => s

/-- Start a command whose waits are met and whose indirect slots have been read. -/
def State.startNow (s : State) (q : Nat) (c : Cmd) : State :=
  match s.startOp q c with
  | .wait => s
  | .hold s1 => s1
  | .flt f => (s.named q c).fault q c.idx c.op f
  | .fltS s1 f => (s1.named q c).fault q c.idx c.op f
  | .go s1 c1 => match s.regionFlt (s.owner q) c with
    | some f => (s.named q c).fault q c.idx c.op f
    | none => (s1.named q c).startGo q c c1

/-- The command of queue q that starts next: its oldest waiting one, where nothing of its queue or of the limits of section
Commit holds it and its waits are met (R30, R42, R43). -/
def State.startable (s : State) (q : Nat) : Option Cmd :=
  let x := s.queue q
  match x.cmds.find? (fun c => c.phase == .waiting && c.skip == .run) with
  | none => none
  | some c =>
    if !s.serves q ∨ x.killing ∨ s.rbit (kq q + 0xC) 2 ∨ x.undecided c.idx ∨ x.fenced c ∨ 8 ≤ x.inflight
      ∨ 256 ≤ s.started.length ∨ !(c.ready || s.waitsMet (s.owner q) c) then none
    else some (s.waitsOver (s.owner q) q c)

/-- A unit whose waiting commands are served by class (R277): 2 ring slots, 3 the Ledger, 4 the Gantry; 0 for none of them.
Blocks that wait for a row-state region have their own order (placeBlock). -/
def Cmd.sharedUnit (c : Cmd) : Nat :=
  if (0x38 ≤ c.op ∧ c.op ≤ 0x3B) ∨ (c.op = 0x3D ∧ c.camberRing) then 2
  else if 0x40 ≤ c.op ∧ c.op ≤ 0x42 then 3
  else if 0x30 ≤ c.op ∧ c.op ≤ 0x34 then 4
  else 0

/-- Does command c of queue q, which could start now, wait for a ring slot (R181)? A CAMBER_UPDATE that waits under R205 does
not. -/
def State.waitsSlot (s : State) (q : Nat) (c : Cmd) : Bool :=
  c.sharedUnit == 2 && c.bad.isNone && (s.indChecks (s.owner q) c).isNone
    && !(c.op == 0x3D && (s.camberSlots (s.owner q) c).any (fun p => s.camberWaits p.1))
    && (match s.startOp q c with
      | .wait => true
      | _ => false)

/-- Collectives that wait for a ring slot (R181, R194, R207). -/
def State.slotWaiters (s : State) : Nat :=
  ((List.range 64).filter (fun q => match s.startable q with
    | some c => s.waitsSlot q c
    | none => false)).length

/-- Is command d of queue p served before command c of queue q by their shared unit: by class, and for ring slots
then in the order in which they became ready (R181, R277, R278, R291)? -/
def State.servedFirst (s : State) (p : Nat) (d : Cmd) (q : Nat) (c : Cmd) : Bool :=
  if s.lcQueue p ≠ s.lcQueue q then s.lcQueue p
  else decide (c.sharedUnit ≤ 2) && decide (d.tick < c.tick)

/-- Does command c of queue q leave its shared unit to a command of another queue that can start now and is served first? -/
def State.yields (s : State) (q : Nat) (c : Cmd) : Bool :=
  c.sharedUnit != 0 && (List.range 64).any (fun p => p != q && (match s.startable p with
    | some d => d.sharedUnit == c.sharedUnit && s.servedFirst p d q c && (match s.startOp p d with
      | .go _ _ => true
      | _ => false)
    | none => false))

/-- Start the oldest waiting command of queue q, if it may start (R30, R39, R42, R43, R277, section Commit). -/
def State.startNext (s : State) (q : Nat) : State :=
  match s.startable q with
  | none => s
  | some c =>
    let s1 : State := if s.findCmd q c.idx = some c then s
      else { s.updCmd q c.idx (fun _ => c) with ticks := s.ticks + 1 }.waitRecs (s.owner q) q c
    match c.bad with
    | some h => (s1.namedBad q c).fault q c.idx c.op { flt eOobDesc 1 with lo := h }
    | none => match s1.indChecks (s.owner q) c with
      | some f => (s1.named q c).fault q c.idx c.op f
      | none => if s1.yields q c then s1 else s1.startNow q c

-- the rows

/-- DOORBELL: a write of the doorbell of queue q in a window (R22, R305, R307). -/
def execDoorbell (w q : Nat) (v : U32) (priv : Bool) (s : State) : Host.Outcome State Fault Refusal :=
  .next (if q ≤ 63 ∧ w ≤ 16 then s.ctlWrite (win w + 4 * q) priv (fun s => s.doorbell w q v.toNat) else s)

/-- COMMAND_DECODE (R51). -/
def execCommandDecode (q : Nat) (s : State) : Host.Outcome State Fault Refusal := .next (s.decodeNext q)

/-- COMMAND_START. -/
def execCommandStart (q : Nat) (s : State) : Host.Outcome State Fault Refusal := .next (s.startNext q)

/-- WAIT_POLL: the poll period of context c passes (R30). A restore that waits for regions tries again (R285, log entry
15). -/
def execWaitPoll (c : Nat) (s : State) : Host.Outcome State Fault Refusal :=
  .next (if s.live ∧ s.refclk ∧ c ≤ 16 then (s.pollOwner c).restoreWaits c else s)

/-- Is this command a WAIT whose timeout runs (R41)? -/
def Cmd.timedWait (c : Cmd) : Bool := c.op == 0x01 && c.phase == .waiting && c.skip == .run && c.s 0 != 0

/-- WAITs of queue q whose timeouts run: they have a TIMEOUT_US, and their waits are not found met (R41). -/
def State.timedWaits (s : State) (q : Nat) : List Cmd :=
  let x := s.queue q
  let first := x.cmds.find? (fun c => c.phase == .waiting && c.skip == .run)
  x.cmds.filter (fun c => c.timedWait && !c.ready && !(first == some c && s.waitsMet (s.owner q) c))

/-- Those of some timed WAITs whose timeout may be the next to run out, with a bound: each older one has a longer timeout. -/
def dueWaits (m : Nat) : List Cmd → List Cmd
  | [] => []
  | c :: cs => if c.s 0 < m then c :: dueWaits (c.s 0) cs else dueWaits m cs

/-- WAIT_TIMEOUT: TIMEOUT_US of a WAIT of queue q passes before its waits are met (R41). The row names no command: among the
WAITs whose timeout may be the next to run out it is a free choice (log entry 54). -/
def execWaitTimeout (q : Nat) (s : State) : Host.Outcome State Fault Refusal :=
  .next (if !s.serves q ∨ !s.refclk then s
    else match dueWaits (2 ^ 32) (s.timedWaits q) with
      | [] => s
      | [c] => s.fault q c.idx 0x01 (flt eTimeout 1)
      | c :: cs =>
        let d := cs.getD (Config.freePick s.free % (cs.length + 1)) c
        { s with free := s.free + 1 }.fault q d.idx 0x01 (flt eTimeout 1))

end Sys2Proof.Machine
end

