-- ==== Sys2Proof/Machine/Commit.lean ====
section
/-! DEFINITION. The commit of a command (R33, R34): its state changes, markers, signals, event and HEAD, for a command
that ran and for one that was skipped (R43). -/
namespace Sys2Proof.Machine

/-- The landing lists of the Bays of an exchange are final (R145): its RETURN keeps their lengths. -/
def State.freezeRets (s : State) (own gen xid : Nat) : State :=
  s.updRet own gen xid (fun r => { r with bays := r.bays.map (fun b =>
    { b with nland := some (b.nland.getD (s.rd32 (s.bcb own b.lslot + 48))) }) })

/-- A live job ends and its regions are freed (R47, R71). -/
def State.endJob (s : State) (own job : Nat) : State :=
  { s with
    jobs := s.jobs.filter (fun j => !(j.ctx == own && j.job == job))
    regions := s.regions.filter (fun r => !(r.job && r.ctx == own))
    regWait := s.regWait.filter (fun r => !(r.job && r.ctx == own)) }

/-- The Bay of a local slot returns to the host (R145). -/
def State.bayFreed (s : State) (own lslot : Nat) : State :=
  let b := s.bcb own lslot
  let s1 := s.wr32 b (putFld (s.rd32 b) 3 0 0)
  { s1 with arms := s1.arms.filter (fun a => !(a.ctx == own && a.lslot == lslot)) }

/-- One effect of a command at its commit (R33 step 2). -/
def State.applyAct (s : State) (own q : Nat) (c : Cmd) : Act → State
  | .write a bs => s.lay q c a bs
  | .under a bs => s.wr a bs
  | .descSync h n => s.descSynced own h n
  | .count k n => if n = 0 then s else s.ctxCount own k n
  | .stick off m => if m = 0 then s else s.stick own off m.toNat
  | .acct k n => s.acct own k n
  | .jobSealed => s.updJob own (c.s 0) (fun j => { j with sealed := true })
  | .jobAdmitted => s.updJob own (c.s 0) (fun j => { j with admitted := true })
  | .jobEnd => s.endJob own (c.s 0)
  | .mapLoaded slot => s.setMapStat slot 1 true
  | .biasWritten slot => { s with biasW := if s.biasW.contains slot then s.biasW else s.biasW ++ [slot] }
  | .fuLoaded => s.setRbit 0x80004 1 true
  | .unbindExch g x => { s with exch := s.exch.filter (fun e => !(e.ctx == own && e.gen == g && e.xid == x)) }
  | .dropBays g x => ((s.freezeRets own g x).dropRefsIf false
      (fun r => r.ctx == own && r.kind == .bay && r.gen == g && r.xid == x)).2
  | .dropRets g x =>
    let s1 := (s.dropRefsIf false (fun r => r.ctx == own && r.kind == .ret && r.gen == g && r.xid == x)).2
    { s1 with rets := s1.rets.filter (fun r => !(r.ctx == own && r.gen == g && r.xid == x))
              fed := s1.fed.filter (fun e => e != (own, g, x)) }
  | .dropPlanes g x => (s.dropRefsIf false (fun r => r.ctx == own && r.kind == .plane && r.gen == g && r.xid == x)).2
  | .bayFree l => s.bayFreed own l
  | .xchgDone g x => s.updExch own g x (fun e => { e with xchg := true })
  | .ringEnd => (s.rings.filter (fun p => p.2.q == q && p.2.idx == c.idx)).foldl (fun s p => s.ringFree p.1 p.2) s
  | .barrierEnd => { s with barriers := s.barriers.filter (fun b => !(b.q == q && b.idx == c.idx)) }
  | .feedShut =>
    let s1 := (s.feeds.filter (fun f => f.q == q && f.idx == c.idx && !f.ended)).foldl
      (fun s f => s.feedMsg [5 + f.id * 2 ^ 16]) s
    { s1 with feeds := s1.feeds.filter (fun f => !(f.q == q && f.idx == c.idx)) }
  | .pool p cfg bl bh ml mh mask free =>
    (s.setRegs (kcas p) [cfg.toNat, bl.toNat, bh.toNat, ml.toNat, mh.toNat, mask.toNat]).setFree p free.toNat
  | .digestOpen sid rs n =>
    let d : Digest := { ctx := own, sid := sid, q := q, regions := rs, bytes := n }
    { s with digests := s.digests ++ [d] }
  | .digestClose sid => { s with digests := s.digests.filter (fun d => !(d.ctx == own && d.sid == sid)) }
  | .publish first n m b fu => s.publishAct own first n m b fu
  | .camberAdd slot cs => s.camberAddAct own slot cs
  | .trigger tid lead only => s.raiseTrigger tid lead only
  | .mark v trig => s.markAct own q c v trig

def State.applyActs (s : State) (own q : Nat) (c : Cmd) : List Act → State
  | [] => s
  | a :: l => (s.applyAct own q c a).applyActs own q c l

/-- Write ADMITTED or DROP_CAP and ROW into route records (R85, R100). -/
def State.applyRecs (s : State) (d : Desc) : List RecUpd → State
  | [] => s
  | u :: us =>
    let o := 16 * u.rix
    let w0 := putFld (putFld (s.str32 d o) 29 29 (b2n !u.adm)) 31 31 (b2n u.adm)
    ((s.strWr32 d o w0).strWr32 d (o + 8) (putFld (s.str32 d (o + 8)) 19 0 (if u.adm then u.row else 0))).applyRecs d us

/-- Handles whose references the effects of a command drop. -/
def State.dropsOf (s : State) (own q : Nat) (c : Cmd) : List U32 :=
  let pick (k : RefKind) (g x : Nat) : List U32 :=
    (s.refs.filter (fun r => r.ctx == own && r.kind == k && r.gen == g && r.xid == x)).map (fun r => r.handle)
  c.acts.flatMap (fun a => match a with
    | .dropBays g x => pick .bay g x
    | .dropRets g x => pick .ret g x
    | .dropPlanes g x => pick .plane g x
    | .ringEnd => (s.rings.filter (fun p => p.2.q == q && p.2.idx == c.idx)).map (fun p => p.2.buf)
    | _ => [])

/-- The first of these handles whose drop, after those before it, is one that must not be (R268, R270). -/
def State.firstBad (s : State) : List U32 → Option U32
  | [] => none
  | h :: hs => match s.casTest 16 h.toNat false with
    | .dfree => some h
    | .malformed => some h
    | .ok => (s.dropRef h.toNat).firstBad hs
    | _ => s.firstBad hs

/-- A handle that a commit must not drop. -/
def State.badDrop (s : State) (own q : Nat) (c : Cmd) : Option U32 := s.firstBad (s.dropsOf own q c)

/-- The completion markers of a DISPATCH or RETURN (R12, R121, R122). -/
def State.commitMarkers (s : State) (own : Nat) (c : Cmd) : State :=
  if c.noMark then s
  else if c.op = 0x20 then
    let b := s.readXb (s.dsc own c 4)
    s.markers own c.gen c.xid b.dm 0 b.members
  else if c.op = 0x21 then
    let b := s.readXb (s.dsc own c 2)
    s.markers own c.gen c.xid b.rm 1 b.members
  else s

/-- The signals of a command: the header's, then those of a SIGNAL (R31, R33 step 4). -/
def State.commitSignals (s : State) (own q : Nat) (c : Cmd) : State :=
  let one (s : State) (a b : Nat) : State := s.signalOp own q c.idx.toNat (fld a 21 20) (fld a 19 0) b
  let s1 := one s (c.w 6) (c.w 7)
  let s2 := if c.op = 0x02 then one (one (one s1 (c.s 0) (c.s 1)) (c.s 2) (c.s 3)) (c.s 4) (c.s 5) else s1
  s2.ctrChanged own

/-- Post the completion event (R33 step 5, R258). -/
def State.commitEvent (s : State) (own q : Nat) (c : Cmd) : State :=
  if c.flag 9 then s.post own [⟨1, own, q, own == 16, c.idx.toNat, c.op + c.opId * 2 ^ 16⟩] else s

/-- Honour or count a CHEAP flag (R29, R47, R283). -/
def State.commitCheap (s : State) (own : Nat) (c : Cmd) : State :=
  if !c.flag 8 then s
  else if s.regions.any (fun r => r.ctx == own) || s.liveJob own then s.ctxCount own 16 1
  else if own < 16 then s.setRbit (kctx own + 4) 3 true else s

/-- The item of a commit joins the sessions of its queue (R173). -/
def State.digestItem (s : State) (own q : Nat) (c : Cmd) : State :=
  { s with digests := s.digests.map (fun d =>
      if d.ctx = own ∧ d.q = q then { d with items := d.items ++ c.item, ncmd := d.ncmd + 1 } else d) }

/-- HEAD passes a command: it leaves the queue, with what its index alone kept (R33 step 6). -/
def State.headPast (s : State) (q : Nat) (c : Cmd) : State :=
  let x := s.queue q
  let h := c.idx + 1
  let y : Queue := { x with
    cmds := x.cmds.filter (fun y => y.idx != c.idx)
    kept := x.kept.filter (fun k => k.idx != c.idx)
    wins := x.wins.filter (fun w => decide (0 ≤ i32diff (w.at_.toNat + w.n) h.toNat)) }
  (s.setQueue q y).setReg (kq q + 0x10) h.toNat

/-- Commit a command whose work is complete. -/
def State.commitRan (s : State) (own q : Nat) (c : Cmd) : State :=
  match s.badDrop own q c with
  | some h => s.fault q c.idx c.op { flt eDoubleFree 0x10 with lo := h.toNat }
  | none =>
    let s1 := ((s.digestItem own q c).applyRecs (s.dsc own c 1) c.recs).applyActs own q c c.acts
    let s1b : State := { s1 with tapRuns := s1.tapRuns.filter (fun x => !(x.q == q && x.idx == c.idx)) }
    let s2 := (s1b.freeRegionsOf q c.idx).commitCheap own c
    let s3 := ((s2.commitMarkers own c).commitSignals own q c).commitEvent own q c
    ((s3.opCount 28 15 1).trace 0x02 own q (s.cmdRec q c)).headPast q c

/-- Commit a skipped command (R43): nothing in QUIET mode; its signals, its event, and the markers of a zero-row send in
SIGNAL mode, unless its tag is retired (R125). -/
def State.commitSkipped (s : State) (own q : Nat) (c : Cmd) : State :=
  let s0 := s.digestItem own q c
  let s1 := if c.skip = .signal then
      let dead := match c.gen? with
        | some g => s0.retired own g
        | none => false
      ((s0.commitMarkers own { c with noMark := dead }).commitSignals own q c).commitEvent own q c
    else s0
  ((s1.opCount 28 15 1).trace 0x02 own q (s.cmdRec q c)).headPast q c

/-- Commit the command at HEAD of queue q, if it can commit. -/
def State.commitNext (s : State) (q : Nat) : State :=
  match (s.queue q).cmds with
  | [] => s
  | c :: _ =>
    let own := s.owner q
    if !s.serves q then s
    else if c.phase = .waiting ∧ c.skip ≠ .run then s.commitSkipped own q c
    else if c.phase = .complete ∧ !(c.op = 0x49 ∧ s.rangeBound own c) then s.commitRan own q c
    else s

/-- COMMAND_COMMIT (R33). -/
def execCommandCommit (q : Nat) (s : State) : Host.Outcome State Fault Refusal := .next (s.commitNext q)

end Sys2Proof.Machine
end

