-- ==== Sys2Proof/Machine/Kill.lean ====
section
/-! DEFINITION. Killing a queue (R35, R52, R56, R73, R127, R131, R146), and the queue registers: enable, hold, kill (R21
to R26). -/
namespace Sys2Proof.Machine

/-- Kill class D (R35, R52): the listed opcodes, COPY and SCATTER in place, a Tap-fed ROUTE on a version-1 link (R56),
and DISPATCH and RETURN toward a DP1 peer (R131). -/
def State.classD (s : State) (q : Nat) (c : Cmd) : Bool :=
  let own := s.owner q
  let dp1 (ms : List Nat) : Bool := ms.any (fun m => m != s.chip && s.peerVer m == 1)
  [0x05, 0x15, 0x33, 0x38, 0x39, 0x3A, 0x3B, 0x3D].contains c.op || c.inPlace s own
    || (c.op == 0x10 && c.lmode != 2 && s.rf 0x10000 3 0 == 1)
    || (c.op == 0x20 && dp1 (s.readXb (s.dsc own c 4)).members)
    || (c.op == 0x21 && dp1 (s.readXb (s.dsc own c 2)).members)

/-- Commands that a kill leaves to run on: up to the latest started one of class D. -/
def State.survivors (s : State) (q : Nat) : List Cmd → List Cmd
  | [] => []
  | c :: cs =>
    let r := s.survivors q cs
    if !r.isEmpty ∨ (c.live ∧ s.classD q c) then c :: r else []

/-- Slabs of a command that have not left are withdrawn; answers them (R127). -/
def State.withdraw (s : State) (q : Nat) (idx : U32) : List Frame × State :=
  let mine (o : OutSlab) : Bool := o.q == q && o.idx == idx
  ((s.tx.flatMap (fun t => t.waiting.filter mine)).map (fun o => o.f),
    { s with tx := s.tx.map (fun t => { t with waiting := t.waiting.filter (fun o => !mine o) }) })

/-- Drop the last n elements that p selects. -/
def dropLast (p : Chunk → Bool) (n : Nat) (l : List Chunk) : List Chunk :=
  let k := (l.filter p).length
  let go := l.foldl (fun (r : Nat × List Chunk) c => if p c then (r.1 + 1, if r.1 + n < k then r.2 ++ [c] else r.2)
    else (r.1, r.2 ++ [c])) (0, [])
  go.2

/-- A killed DISPATCH: what it withdraws counts as never handed on (R127, R128). -/
def State.killDispatch (s : State) (q : Nat) (c : Cmd) : State :=
  let own := s.owner q
  let w := s.withdraw q c.idx
  let data (d : Nat) : Nat := (w.1.filter (fun f => fKind f == 1 && fDst f == d)).length
  let resv (d : Nat) : Nat := (w.1.filter (fun f => fKind f == 3 && fDst f == d)).length
  let ds := w.1.foldl (fun l f => insKey (fDst f) l) []
  let s1 := (w.2.updExch own c.gen c.xid (fun e => { e with
    pushed := ds.foldl (fun p d => FMap.set 0 p d (FMap.get 0 p d - data d)) e.pushed
    asked := ds.foldl (fun l d => dropLast (fun k => k.dst == d) (resv d) l) e.asked })).txPump
  match s1.findExch own c.gen c.xid with
  | some e => if e.asked.isEmpty then s1 else s1.setQueue q { s1.queue q with killX := some (c.gen, c.xid, c.idx) }
  | none => s1

/-- A killed RETURN: the slabs it withdraws are sent again by its rerun (R127, R128). -/
def State.killReturn (s : State) (q : Nat) (c : Cmd) : State :=
  let w := s.withdraw q c.idx
  (w.2.updRet (s.owner q) c.gen c.xid (fun r => { r with
    sent := r.sent.filter (fun p => !w.1.any (fun f => fLslot f == p.1 && fRow f == p.2)) })).txPump

/-- Kill one started command: its outputs are undefined, and nothing of it has happened (R34, R73, R127, R146). -/
def State.killCmd (s : State) (q : Nat) (c : Cmd) : State :=
  let own := s.owner q
  let s0 := (((s.trace 0x03 own q (s.cmdRec q c)).opCount 29 15 1).chargeKilled own).scramble c.wrote
  let s1 := (s0.tapStop q c.idx).freeRegionsOf q c.idx
  let s2 := (s1.feeds.filter (fun f => f.q == q && f.idx == c.idx && !f.ended)).foldl (fun s f => s.feedAbort f .kill) s1
  match c.op with
  | 0x11 => s2.updJob own (c.s 2) (fun j => { j with cols := min j.cols (c.s 3) })
  | 0x12 => s2.updJob own (c.s 0) (fun j => { j with sealed := false, sel := [] })
  | 0x13 => s2.updJob own (c.s 0) (fun j => { j with admitting := false, asel := [], krecs := [], mapB := none })
  | 0x20 => s2.killDispatch q c
  | 0x21 => s2.killReturn q c
  | _ => s2

/-- What a kill keeps of its commands for their rerun (R215). -/
def keepOf (old : List Kept) (c : Cmd) : Kept :=
  let k : Kept := (old.find? (fun k => k.idx == c.idx)).getD { idx := c.idx }
  { k with binds := c.binds, stream := if c.op = 0x10 ∧ c.live ∧ c.lmode ≠ 2 then some (c.s 6) else k.stream }

/-- Kill the uncommitted commands of queue q (R35). The spec does not say what a KILL written to a disabled or a faulted queue
does: the model gives it no effect (DESIGN CHOICE, log entry 56). -/
def State.kill (s : State) (q : Nat) : State :=
  let x := s.queue q
  if x.killing ∨ !s.rbit (kq q + 0xC) 0 ∨ s.rf (kq q + 0x18) 1 0 = 3 then s
  else
    let sv := s.survivors q x.cmds
    let dead := x.cmds.drop sv.length
    let ks := dead.map (keepOf x.kept)
    let y : Queue := { x with cmds := sv, killing := true, killX := none
                              kept := x.kept.filter (fun k => !ks.any (fun n => n.idx == k.idx)) ++ ks }
    let s1 := (s.setQueue q y).setRbit (kq q + 0xC) 1 true
    (dead.filter (fun c => c.live)).foldl (fun s c => s.killCmd q c) s1

/-- Does a RESERVE of a killed DISPATCH of the queue stand unanswered (R127)? -/
def State.killAsks (s : State) (q : Nat) : Bool :=
  match (s.queue q).killX with
  | some (g, x, _) => (s.findExch (s.owner q) g x).elim false (fun e => !e.asked.isEmpty)
  | none => false

/-- Does a killed FEED_ARM or DISPATCH of the queue still hold the kill open (R127, R146)? An abort of a killed feed
counts also where its tag has been retired. -/
def State.killHeld (s : State) (q : Nat) : Bool :=
  s.feeds.any (fun f => f.q == q && f.abort.isSome && !f.ended && (s.queue q).kept.any (fun k => k.idx == f.idx)) || s.killAsks q

/-- The kill is complete: fetch rewinds to HEAD (R35). -/
def State.killDone (s : State) (q : Nat) : State :=
  let x := s.queue q
  if s.live ∧ x.killing ∧ x.cmds.isEmpty ∧ !s.killHeld q then
    let h := u32 (s.reg (kq q + 0x10))
    let y : Queue := { x with
      dec := h, killing := false, killX := none
      wins := x.wins.filter (fun w => decide (i32diff w.at_.toNat h.toNat < 0)) }
    (s.setQueue q y).setRbit (kq q + 0xC) 1 false
  else s

/-- KILL_COMPLETE. -/
def execKillComplete (q : Nat) (s : State) : Host.Outcome State Fault Refusal := .next (s.killDone q)

/-- EXCHANGE_BROKEN: 20 µs after the kill request a RESERVE of a killed DISPATCH stands unanswered (R127). -/
def execExchangeBroken (q : Nat) (i : U32) (s : State) : Host.Outcome State Fault Refusal :=
  .next (let x := s.queue q
    match x.killX with
    | some (g, xid, idx) =>
      if s.live ∧ s.refclk ∧ x.killing ∧ idx = i ∧ s.killAsks q then
        (s.setQueue q { x with killX := none, kept := x.kept.map (fun k => if k.idx = i then { k with broken := true } else k) }).updExch
          (s.owner q) g xid (fun e => { e with asked := [] })
      else s
    | none => s)

/-- Enable a queue, or refuse it (R21, R275). -/
def State.enableQueue (s : State) (q : Nat) (hold : Bool) : State :=
  let n := s.rf (kq q + 8) 4 0
  let own := s.owner q
  if 6 ≤ n ∧ n ≤ 20 ∧ (own = 16 ∨ s.rbit (kctx own) 0) then
    let s1 := (((s.latch (kq q)).setRbit (kq q + 0xC) 0 true).setReg (kq q + 0x10) 0).setReg (kq q + 0x14) 0
    let st := putFld (putFld (putFld (s1.reg (kq q + 0x18)) 15 8 0) 2 2 0) 1 0 (if hold then 2 else 1)
    ((s1.setReg (kq q + 0x18) st).setReg (kq q + 0x1C) 0).setQueue q {}
  else s.setRbit (kq q + 0x18) 2 true

/-- Has a queue commands in flight? -/
def State.qBusy (s : State) (q : Nat) : Bool := (s.queue q).cmds.any (fun c => c.live) || (s.queue q).killing

/-- Disable a queue; ignored while commands are in flight. What it keeps of killed feeds is forgotten, since no rerun comes. -/
def State.disableQueue (s : State) (q : Nat) : State :=
  if s.qBusy q then s
  else (((s.dropKept q).setRbit (kq q + 0xC) 0 false).setRf (kq q + 0x18) 1 0 0).setQueue q { gone := (s.queue q).gone }

/-- A write of KQ_CTL of queue q: HOLD, then EN, then KILL. -/
def State.writeKqCtl (s : State) (q w : Nat) : State :=
  let hold := bitOf w 2
  let s1 := s.setRbit (kq q + 0xC) 2 hold
  let en := s1.rbit (kq q + 0xC) 0
  let s2 := if en then (if s1.rf (kq q + 0x18) 1 0 = 3 then s1 else s1.setRf (kq q + 0x18) 1 0 (if hold then 2 else 1)) else s1
  let s3 := if bitOf w 0 ∧ !en then s2.enableQueue q hold
    else if !bitOf w 0 ∧ en then s2.disableQueue q
    else s2
  if bitOf w 1 then s3.kill q else s3

end Sys2Proof.Machine
end

