-- ==== Sys2Proof/Machine/Reset.lean ====
section
/-! DEFINITION. Taking a reset: which level it is (R331, R360), the isolation wrapper (R338), and what a level clears and
spares (R330, R345, R390). -/
namespace Sys2Proof.Machine

/-- Registers with their windows' offsets: the block window, the system window and sixteen context windows. -/
def allRegs : List (Nat × RegDef) :=
  blockRegs.map (fun d => (0, d))
    ++ (windowRegs.filter (fun d => sysMapped d.base)).map (fun d => (win 16, d))
    ++ (List.range 16).flatMap (fun c => windowRegs.map (fun d => (win c, d)))

/-- The words that are not 0 after a reset of a level over words that were 0, at their offsets. -/
def defaultWords (l : Level) : List (Nat × U32) :=
  allRegs.flatMap (fun x =>
    let w := x.2.afterReset l 0
    if w = 0 then [] else (List.range x.2.count).map (fun i => (x.1 + x.2.base + x.2.stride * i, u32 w)))

/-- Is an offset a Caisson configuration word that a core reset with KFEED_STATUS.FAIL keeps (R273)? -/
def poolWord (off : Nat) : Bool := decide (0xA0000 ≤ off) && decide (off < 0xA0200) && decide (off % 0x40 ≤ 0x14)

/-- The register words after a reset of a level. -/
def State.resetRegs (s : State) (l : Level) : List (Nat × U32) :=
  let keep := decide (l = .core) && s.rbit 0x10004 1
  s.regs.foldl (fun m p => FMap.set 0 m p.1
    (if keep && poolWord p.1 then p.2 else u32 (resetWord s.part l p.1 p.2.toNat)))
    ((defaultWords l).foldl (fun m p => FMap.set 0 m p.1 p.2) [])

/-- KRSTCAUSE and KPACE take the straps; conditions met by this reset are recorded (R333, R345, R390). -/
def State.resetStraps (s : State) (l : Level) : State :=
  let st := s.rst.straps
  let s1 := ((s.setRf 0x100 15 15 st.rstseq.toNat).setRf 0x100 14 13 st.timing.toNat).setRbit 0x100 10 (st.timing == 0)
  let s2 := if l = .core then s1 else s1.setRf 0x100 12 11 st.boot.toNat
  let s3 := if s.rst.fpend then s2.setRbit 0x100 6 true else s2
  let s4 := (if s.rst.isoTmo then s3.setRbit 0x100 5 true else s3).setRf 0x10008 30 29 st.timing.toNat
  if l = .core then s4 else s4.setRbit 0x10008 31 (st.timing == 2)

/-- A new chip state after a reset of a level: device memory, the boundary's record and the MODEL's own fields stay; what
the level spares stays; the rest is cleared (R330, R364). Outputs of commands that had not committed, and landings that
were not acknowledged, are undefined (R34, R338). -/
def State.clearReset (s : State) (l : Level) : State :=
  let outs := s.started.flatMap (fun x => x.2.wrote) ++ s.landings.flatMap (fun x => x.spans)
  let s0 := s.scramble outs
  let po := decide (l = .power)
  let core := decide (l = .core)
  let s1 : State := {
    pending := s0.pending, part := s0.part, mem := s0.mem, regs := s0.resetRegs l, free := s0.free, refclk := s0.refclk
    ftime := s0.ftime
    cnt48 := if po then [] else s0.cnt48
    energyRem := if po then [] else s0.energyRem
    lat := if po then [] else s0.lat.filter (fun p => p.1 == 0x1A048 || (core && p.1 == 0x208))
    feedOut := s0.feedOut
    tap := { out := s0.tap.out }
    net := { sent := s0.net.sent
             queued := if po then [] else s0.net.queued.filter isTrace
             credit := if core then s0.net.credit else []
             room := if core then s0.net.room else [] }
    err := if po then {} else s0.err
    cw := if po then {} else { s0.cw with dumping := false }
    boot := if core then { s0.boot with dbg := [] } else {}
    pace := if core then s0.pace else { en := s0.rst.straps.timing == 2 }
    fatalPin := core && s0.fatalPin
    rst := { s0.rst with level := some l, rel := 0, arrays := false, posted := false, iso := false, tags := false } }
  let s2 := s1.resetStraps l
  let s3 := s0.rst.evLost.foldl (fun s e => s.setRbit (kevq e + 0x1C) 2 true) s2
  if po then (List.range 8).foldl (fun s i => s.setReg (0xB0800 + 4 * i) (s.part.coef.getD i 0).toNat) s3 else s3

/-- Does the wrapper still wait: for the acknowledgement of an aborted feed, of a landing's writes, or for the response
to another tag of a memory port (R338)? -/
def State.isoWaits (s : State) : Bool := s.feeds.any (fun f => !f.ended) || !s.landings.isEmpty || s.rst.tags

/-- May a memory port have a transfer outstanding, landings aside: of a command, of a slot's fetch, of a save or a dump,
or of the microcode (R338)? The model does each transfer at the step that needs it: whether one is outstanding when a
reset is taken is a free choice (log entry 61). -/
def State.tagsMay (s : State) : Bool :=
  (s.rst.posted && (s.cw.dumping || s.saves.any (fun v => v.open_) || (List.range 64).any (fun q => s.rbit (kq q + 0xC) 0
    && (!(s.queue q).cmds.isEmpty || s.reg (kq q + 0x14) != (s.queue q).dec.toNat))))
    || (s.rf 0x200 3 0 == 3 && s.boot.src != 3)

/-- The wrapper's waits have ended: the reset touches the domains. -/
def State.isoDone (s : State) : State :=
  match s.rst.level with
  | some l => if s.rst.iso ∧ !s.isoWaits then s.clearReset l else s
  | none => s

/-- A response to a tag reaches the wrapper: it was the last one awaited, or not, which is a free choice (R338, log
entry 61). -/
def State.isoTag (s : State) : State :=
  if s.rst.tags then
    ({ s with free := s.free + 1, rst := { s.rst with tags := Config.freePick s.free % 2 == 1 } } : State).isoDone
  else s

/-- Does a reset stand in progress: its line low, its wrapper waiting, or its release not at its end? With STRAP_BAD the
release ends at domains 0 and 1 (R334). -/
def State.resetRuns (s : State) : Bool :=
  s.rst.low || s.rst.iso || (decide (s.rst.rel < 12) && !(s.rbit 0x100 10 && decide (2 ≤ s.rst.rel)))

/-- The level that an assertion begins: none where it is absorbed into the reset in progress (R331, R360). After STRAP_BAD a
core reset acts as a system reset, since nothing less leads out (R334, log entry 61). -/
def State.effLevel (s : State) (l : Level) : Option Level :=
  let prog := s.resetRuns
  match l with
  | .power => some .power
  | .system => if prog ∧ s.rst.level = some .power then none else some .system
  | .core =>
    if s.rst.level = some .power ∨ s.rst.level = some .system then (if prog then none else some .system)
    else if s.rbit 0x1004 2 ∨ s.rbit 0x100 10 then some .system
    else some .core

/-- The packets that may still be being built are discarded, or not: a free choice for each that is unread (R258, log entry
55). Answers the queues of those discarded. -/
def State.loseNew (s : State) : List (Nat × List (Nat × List Byte)) → List Nat × State
  | [] => ([], s)
  | (e, old) :: l =>
    if !s.rbit (kevq e + 8) 0 ∨ s.evUnread e = 0 then s.loseNew l
    else
      let s1 : State := { s with free := s.free + 1 }
      if Config.freePick s.free % 2 = 0 then s1.loseNew l
      else
        let r := (old.foldl (fun s p => s.wr p.1 p.2) s1).loseNew l
        (e :: r.1, r.2)

/-- A filtered reset assertion of a level is taken (R331 to R333, R338): feeds are aborted, slabs not yet sent dropped;
staged trace records stay through a system or core reset (R376). -/
def State.takeReset (s : State) (l : Level) (st : Straps) : State :=
  match s.effLevel l with
  | none => s
  | some e =>
    let lost := s.loseNew s.evNew
    let s1 := (lost.2.feeds.filter (fun f => !f.ended)).foldl (fun s f => s.feedAbort f .reset) lost.2
    let fresh := !s.rst.iso && s.tagsMay
    let s2 : State := { s1 with
      free := if fresh then s1.free + 1 else s1.free
      net := { s1.net with queued := if e = .power then [] else s1.net.queued.filter isTrace, held := [] }
      ctl := {}
      evNew := []
      rst := { s1.rst with level := some e, low := true, rel := 0, arrays := false, posted := false, iso := true,
                           straps := st, fpend := s1.fatalPin, isoTmo := false
                           tags := (s.rst.iso && s.rst.tags) || (fresh && Config.freePick s1.free % 2 == 1)
                           evLost := s1.rst.evLost.filter (fun e => s1.rst.iso && !lost.1.contains e) ++ lost.1 } }
    s2.isoDone

/-- POWER_ON_RESET: KPOR_N is low (R330). -/
def execPowerOnReset (st : Straps) (s : State) : Host.Outcome State Fault Refusal := .next (s.takeReset .power st)

/-- SYSTEM_RESET: KRST_N is low with KRST_SCOPE 0 (R330). -/
def execSystemReset (st : Straps) (s : State) : Host.Outcome State Fault Refusal := .next (s.takeReset .system st)

/-- CORE_RESET: KRST_N is low with KRST_SCOPE 1 (R330). -/
def execCoreReset (st : Straps) (s : State) : Host.Outcome State Fault Refusal := .next (s.takeReset .core st)

/-- ISOLATION_TIMEOUT: 100 µs pass in the wrapper (R338). A missing ABORT_ACK sets KFEED_STATUS.FAIL and quarantines the
feed's buffers (R316); tags are forgotten. -/
def execIsolationTimeout (s : State) : Host.Outcome State Fault Refusal :=
  .next (match s.rst.level with
    | none => s
    | some l =>
      if !s.refclk ∨ !s.rst.iso then s
      else
        let late := s.feeds.filter (fun f => !f.ended)
        let s1 := if late.isEmpty then s else (s.setRbit 0x10004 1 true).lostFeed late
        let s2 : State := { s1 with rst := { s1.rst with isoTmo := true } }
        s2.clearReset l)

end Sys2Proof.Machine
end

