-- ==== Sys2Proof/Machine/Ports.lean ====
section
/-! DEFINITION. What arrives on the Tap and on the Feed responses (R54 to R57, R308 to R316). -/
namespace Sys2Proof
open Machine

def TapMsg.w (m : TapMsg) (i : Nat) : Nat := (m.hdr.getD i 0).toNat
def TapMsg.type (m : TapMsg) : Nat := fld (m.w 0) 3 0
def TapMsg.ver (m : TapMsg) : Nat := fld (m.w 0) 7 4
def TapMsg.fmt (m : TapMsg) : Nat := fld (m.w 0) 8 8
def TapMsg.stream (m : TapMsg) : Nat := fld (m.w 0) 31 16
def TapMsg.row0 (m : TapMsg) : Nat := fld (m.w 1) 23 0
def TapMsg.nrows (m : TapMsg) : Nat := fld (m.w 2) 10 0
def TapMsg.col0 (m : TapMsg) : Nat := fld (m.w 3) 16 0
def TapMsg.ncol (m : TapMsg) : Nat := fld (m.w 4) 16 0
def TapMsg.pwords (m : TapMsg) : Nat := m.w 5
/-- Element bytes of a tile. -/
def TapMsg.eb (m : TapMsg) : Nat := if m.fmt = 1 then 2 else 4
/-- Bytes of a tile's row, padding included. -/
def TapMsg.pitch (m : TapMsg) : Nat := 64 * ((m.ncol * m.eb + 63) / 64)

/-- Bits that the header layout reserves are 0 (R308). -/
def TapMsg.rsvOk (m : TapMsg) : Bool :=
  fld (m.w 0) 15 9 == 0 && fld (m.w 1) 31 24 == 0 && fld (m.w 2) 31 11 == 0 && fld (m.w 3) 31 17 == 0
    && fld (m.w 4) 31 17 == 0 && (List.range 10).all (fun i => m.w (6 + i) == 0)

/-- A message without tile fields: HELLO and STOPPED. -/
def TapMsg.bare (m : TapMsg) : Bool :=
  m.rsvOk && m.fmt == 0 && (List.range 5).all (fun i => m.w (1 + i) == 0) && m.payload.isEmpty

/-- The header of a TILE is accepted at the negotiated version (R308, R310). -/
def TapMsg.tileOk (m : TapMsg) (ver : Nat) : Bool :=
  m.type == 2 && m.rsvOk && m.ver == ver && (ver == 2 || m.fmt == 0) && decide (1 ≤ m.nrows) && decide (m.nrows ≤ 1024)
    && m.col0 % 64 == 0 && decide (1 ≤ m.ncol) && decide (m.ncol ≤ 65536) && decide (m.col0 + m.ncol ≤ 65536)
    && 64 * m.pwords == m.nrows * m.pitch && decide (m.pwords ≤ 65536) && m.payload.length == 64 * m.pwords

/-- The header fields of a message are accepted at the negotiated version, 0 before it (R308 to R310). -/
def TapMsg.fieldsOk (m : TapMsg) (ver : Nat) : Bool :=
  match m.type with
  | 0 => m.bare && m.stream == 0 && m.ver == ver
  | 1 => m.bare && m.stream == 0
  | 2 => m.tileOk ver
  | 3 => m.bare && m.ver == ver && ver == 2
  | _ => false

/-- A word of bad parity, a SOM bit that disagrees with the header's length, or a rejected header field (R312). -/
def TapMsg.bad (m : TapMsg) (ver : Nat) : Bool := m.parity || m.som || !m.fieldsOk ver

/-- Logits of row i of a tile. -/
def TapMsg.row (m : TapMsg) (i : Nat) : List Byte := (m.payload.drop (i * m.pitch)).take (m.ncol * m.eb)
/-- FMT code of R210 of a tile's elements. -/
def TapMsg.elem (m : TapMsg) : Nat := if m.fmt = 1 then 0 else 2

def FeedResp.feed (r : FeedResp) : Nat := fld r.w0.toNat 31 16
def FeedResp.type (r : FeedResp) : Nat := fld r.w0.toNat 3 0
def FeedResp.entry (r : FeedResp) : Nat := fld r.w1.toNat 12 0
def FeedResp.count (r : FeedResp) : Nat := r.w2.toNat

end Sys2Proof

namespace Sys2Proof.Machine

-- Tap

def State.tapVer (s : State) : Nat := s.rf 0x10000 3 0
def State.tapUp (s : State) : Bool := s.rbit 0x10000 4
/-- Mark a breach: PARITY for a bad word, PROTO for every other (R312). -/
def State.tapBreach (s : State) (m : TapMsg) : State := s.setRbit 0x10000 (if m.parity then 6 else 5) true
/-- A discarded message, counted (R309, R312). -/
def State.tapDrop (s : State) (m : TapMsg) : State := (s.tapBreach m).sysCount 6

/-- HELLO before a version is negotiated (R309). -/
def State.tapHello (s : State) (m : TapMsg) : State :=
  if m.bad 0 || m.ver == 0 then s.tapBreach m
  else
    let v := min m.ver 2
    let s1 := (s.setRf 0x10000 3 0 v).setRbit 0x10000 4 true
    if v = 2 then { s1 with tap := { s1.tap with out := s1.tap.out ++ [[u32 (1 + 2 * 2 ^ 4), 0, 0, 0]] } } else s1

/-- Blocks of the current pass that a tile's rows lie in. -/
def State.tapBlocks (s : State) (m : TapMsg) (x : TapRun) : List Nat :=
  let lo := m.row0 - x.pass * s.passRows
  (List.range ((lo + m.nrows - 1) / 4096 - lo / 4096 + 1)).map (fun i => lo / 4096 + i)

/-- Rows of a tile that now have every column seal; blocks whose rows have all sealed free their regions, and the pass ends
with its last (R45, R55, R60). -/
def State.tapSeal (s : State) (m : TapMsg) (x : TapRun) (c : Cmd) : State :=
  let r := c.block
  let n := r.cols c.stage
  if m.col0 + m.ncol < n then s.setRun x
  else
    let v := s.scoreEnv r c.stage c.fuB c.biasB
    let s1 := s.sealCount x.ctx r v.fu (s.selsOf x c (m.row0 - x.pass * s.passRows) m.nrows)
    let s2 := ((s.tapBlocks m x).filter (fun b => x.blockIn n b)).foldl (fun s b => s.freeBlock (c.region x.ctx x.q) b) s1
    if x.rows.any (fun row => decide (row.length < n)) then s2.setRun x
    else
      let p := s2.sealPass x c
      p.2.setRun p.1

/-- The scores of a tile join their rows (R54, R59). -/
def State.tapScores (s : State) (m : TapMsg) (x : TapRun) (c : Cmd) : State :=
  let r := c.block
  let v := s.scoreEnv r c.stage c.fuB c.biasB
  let lo := m.row0 - x.pass * s.passRows
  let gs := s.gRecs c.stage (s.dsc x.ctx c 5) m.row0 m.nrows
  let got := (List.range m.nrows).map (fun i =>
    let ks := rowVals m.elem m.ncol (m.row i)
    (List.range m.ncol).map (fun j => s.score v (gs.getD i default) (m.col0 + j) (ks.getD j 0)))
  let rows := (List.range x.rows.length).map (fun i =>
    if lo ≤ i ∧ i < lo + m.nrows then x.rows.getD i [] ++ got.getD (i - lo) [] else x.rows.getD i [])
  let sf := logitFmt r.storeFmt
  let d := s.dsc x.ctx c 4
  let s1 := if c.lmode = 1 then
      ((List.range m.nrows).foldl (fun s i =>
        s.putOwn x.q x.idx (d.put ((m.row0 + i) * d.rowB + m.col0 * ebOf sf) (convRow m.elem sf m.ncol (m.row i)).1)) s).opCount 2 sf
        (m.nrows * m.ncol)
    else s
  let s2 := ((s1.opCount 0 m.elem (m.nrows * m.ncol)).opCount 1 13 (m.nrows * m.ncol)).acct x.ctx 12 (64 * (1 + m.pwords))
  (((s2.fuScore x.ctx r v.fu got).charge x.ctx [0]).arrayWrite 1).tapSeal m { x with rows := rows } c

/-- The ROUTE that consumes a stream: its run and its command. -/
def State.consumer (s : State) (sid : Nat) : Option (TapRun × Cmd) :=
  (s.tapRuns.find? (fun x => x.stream == some sid)).bind (fun x => (s.findCmd x.q x.idx).map (fun c => (x, c)))

/-- The consuming ROUTE faults with E_TAP_STREAM (R54, R312). -/
def State.tapFault (s : State) (x : TapRun) : State := s.fault x.q x.idx 0x10 (flt eTapStream 2)

/-- A TILE that keeps to the transport reaches the ROUTE that consumes its stream: held on version 1 while its rows wait
for their pass, or the ROUTE has all its rows and the tile may be the next ROUTE's (log entry 57), or its blocks wait
for a region; a breach of R54 or R55; or taken. -/
def State.tapTake (s : State) (m : TapMsg) (x : TapRun) (c : Cmd) : State :=
  let r := c.block
  let lo := x.pass * s.passRows
  let inPass := decide (lo ≤ m.row0) && decide (m.row0 + m.nrows ≤ lo + x.rows.length) && !x.done
  let later := x.done || (decide (lo ≤ m.row0) && decide (m.row0 + m.nrows ≤ c.s 0))
  if !inPass ∧ later ∧ s.tapVer = 1 then s
  else
    let cols := r.cols c.stage
    let ok := inPass && m.elem == logitFmt r.inFmt && decide (m.col0 + m.ncol ≤ cols)
      && (m.ncol % 64 == 0 || m.col0 + m.ncol == cols)
      && (List.range m.nrows).all (fun i => (x.rows.getD (m.row0 - lo + i) []).length == m.col0)
    if !ok then (s.tapBreach m).tapFault x
    else
      let reg := c.region x.ctx x.q
      let p := s.placeBlocks reg ((s.tapBlocks m x).filter (fun b => !s.placed reg b))
      if p.1 then p.2.tapScores m x c else p.2

/-- A TILE that keeps to the transport (R54, R55, R311, R312). -/
def State.tapTile (s : State) (m : TapMsg) : State :=
  if s.tap.stops.contains m.stream then s
  else match s.consumer m.stream with
    | some p => s.tapTake m p.1 p.2
    | none => if s.tapVer = 1 then s else s.tapDrop m

/-- A STOPPED that keeps to the transport: the stopped stream has ended (R311). A stream that ends while its ROUTE has rows to
seal faults that ROUTE (R54); any other is a breach. -/
def State.tapStopped (s : State) (m : TapMsg) : State :=
  if s.tap.stops.contains m.stream then
    { s with tap := { s.tap with stops := s.tap.stops.filter (fun x => x != m.stream) } }
  else match s.consumer m.stream with
    | some p => if p.1.done then s.tapDrop m else s.tapFault p.1
    | none => s.tapDrop m

/-- A message that R312 calls broken: a tile that breaks R54, for the ROUTE that consumes its stream. One of a stopped stream is
discarded with its mark (R311). -/
def State.tapBroken (s : State) (m : TapMsg) : State :=
  if s.tap.stops.contains m.stream then s.tapBreach m
  else match s.consumer m.stream with
    | some p => (s.tapBreach m).tapFault p.1
    | none => s.tapDrop m

/-- A message at the Tap, by its MTYPE (R308 to R312). -/
def State.tapMsg (s : State) (m : TapMsg) : State :=
  if !s.tapUp then
    (if m.type = 1 then s.tapHello m else if m.type = 0 ∧ !m.bad 0 then s else s.tapDrop m)
  else if m.bad s.tapVer then s.tapBroken m
  else match m.type with
    | 0 => s
    | 1 => s.tapDrop m
    | 2 => s.tapTile m
    | _ => s.tapStopped m

/-- TAP_HELLO (R309). -/
def execTapHello (m : TapMsg) (s : State) : Host.Outcome State Fault Refusal :=
  .next (if s.live then (s.arrayWrite 0xB).tapMsg m else s)

/-- TAP_TILE (R54, R55, R311, R312). -/
def execTapTile (m : TapMsg) (s : State) : Host.Outcome State Fault Refusal :=
  .next (if s.live then (s.arrayWrite 0xB).tapMsg m else s)

/-- TAP_STOPPED (R54, R311, R312). -/
def execTapStopped (m : TapMsg) (s : State) : Host.Outcome State Fault Refusal :=
  .next (if s.live then (s.arrayWrite 0xB).tapMsg m else s)

/-- TAP_STOP_TIMEOUT: 100 µs pass without STOPPED (R311). -/
def execTapStopTimeout (stream : Nat) (s : State) : Host.Outcome State Fault Refusal :=
  .next (if s.live ∧ s.refclk ∧ s.tap.stops.contains stream then
      let s1 : State := { s with
        tap := { s.tap with stops := s.tap.stops.filter (fun x => x != stream) }
        queues := s.queues.map (fun p => (p.1, { p.2 with kept := p.2.kept.map (fun k =>
          if k.stream = some stream then { k with tapBad := true } else k) })) }
      s1.setRbit 0x10000 7 true
    else s)

-- Feed responses

/-- A breach on the response channel (R315): it faults the FEED_ARM it names, if that is started. -/
def State.feedBreach (s : State) (r : FeedResp) : State :=
  let s1 := (s.setRbit 0x10004 2 true).sysCount 7
  match s1.findFeed r.feed with
  | none => s1
  | some f => match s1.findCmd f.q f.idx with
    | some c => if c.op = 0x29 ∧ c.phase = .started then s1.fault f.q f.idx 0x29 (flt eFeedProto 0x15) else s1
    | none => s1

/-- Does a DONE obey R315, and R148 on version 1? -/
def State.doneOk (s : State) (x : FeedEnt) (n : Nat) : Bool :=
  decide (x.done ≤ n) && decide (n ≤ x.ready) && (s.tapVer != 1 || n == x.m)

/-- DONE (R144, R145, R315): the entry's completed rows, in the table too. -/
def State.feedDone (s : State) (r : FeedResp) : State :=
  match s.findFeed r.feed with
  | none => s.feedBreach r
  | some f =>
    if r.parity || r.type != 1 || decide (f.ents.length ≤ r.entry) then s.feedBreach r
    else
      let x := f.ents.getD r.entry default
      if !s.doneOk x r.count then s.feedBreach r
      else
        let s1 := s.updFeed f.id (fun g => { g with ents := g.ents.set r.entry { x with done := r.count } })
        let s2 := s1.strWr32 (s1.desc f.ctx f.got) (64 + 64 * r.entry + 16) r.count
        s2.feedCheck s2.feeds

/-- FEED_DONE. -/
def execFeedDone (r : FeedResp) (s : State) : Host.Outcome State Fault Refusal :=
  .next (if s.live then (s.arrayWrite 0xB).feedDone r else s)

/-- An aborted feed has ended (R146, R147): after a kill it is kept for the rerun; after a retirement its Bays and
references are released, and its FEED_ARM commits without effect. -/
def State.feedEnd (s : State) (f : Feed) : State :=
  let s1 := s.updFeed f.id (fun g => { g with ended := true })
  if f.abort = some .kill then s1
  else
    let s2 : State := { s1 with feeds := s1.feeds.filter (fun g => !(g.id == f.id && g.ended && g.q == f.q && g.idx == f.idx)) }
    let s3 := match s2.findCmd f.q f.idx with
      | some c => if c.op = 0x29 ∧ c.phase = .started then
          s2.updCmd f.q f.idx (fun c => { c with phase := .complete, ran := true, acts := [] }) else s2
      | none => s2
    if f.gate then s3
    else
      let s4 := s3.releaseBays (fun a => a.ctx == f.ctx && a.gen == f.gen && a.xid == f.xid)
      let r := s4.dropRefsIf false (fun r => r.ctx == f.ctx && r.kind != .ring && r.gen == f.gen && r.xid == f.xid)
      if r.1 ∧ f.ctx < 16 ∧ r.2.rf (kctx f.ctx + 4) 1 0 = 1 then r.2.teardown f.ctx eDoubleFree else r.2

/-- FEED_ABORT_ACK (R316). -/
def execFeedAbortAck (r : FeedResp) (s : State) : Host.Outcome State Fault Refusal :=
  .next (if s.rst.iso then (match s.findFeed r.feed with
      | some f => if r.parity ∨ r.type ≠ 2 ∨ f.abort.isNone then s
          else (s.updFeed f.id (fun g => { g with ended := true })).isoDone
      | none => s)
    else if !s.live then s
    else
      let s0 := s.arrayWrite 0xB
      match s.findFeed r.feed with
      | some f => if r.parity || r.type != 2 || f.abort.isNone then s0.feedBreach r else s0.feedEnd f
      | none => s0.feedBreach r)

/-- Fault every started FEED_ARM (R316). -/
def State.faultFeeds (s : State) : List (Nat × Cmd) → State
  | [] => s
  | (q, c) :: l =>
    let s1 := match s.findCmd q c.idx with
      | some d => if d.op = 0x29 ∧ d.phase = Phase.started then s.fault q c.idx 0x29 (flt eFeedTimeout 0x15) else s
      | none => s
    s1.faultFeeds l

/-- FEED_ABORT_TIMEOUT: 100 µs pass without ABORT_ACK (R316). The errors of the step are logged by UNIT and context: the
FEED_ARMs' first (R356); then the aborted feed ends. -/
def execFeedAbortTimeout (feed : Nat) (s : State) : Host.Outcome State Fault Refusal :=
  .next (match s.findFeed feed with
    | some f =>
      if s.live ∧ s.refclk ∧ f.abort.isSome then
        let s1 := s.setRbit 0x10004 1 true
        let s2 := (s1.faultFeeds ((List.range 17).flatMap (fun c => s1.started.filter (fun p => s1.owner p.1 == c)))).lostFeed [f]
        match s2.findFeed feed with
        | some g => s2.feedEnd g
        | none => s2
      else s
    | none => s)

end Sys2Proof.Machine
end

