-- ==== Sys2Proof/Machine/Rx.lean ====
section
/-! DEFINITION. Slabs received on a Pier: the checks of R114 in their order, and what a slab that passes does (R111 to
R117, R123, R130, R165, R171). -/
namespace Sys2Proof.Machine

/-- May Pier p hand a slab to the block (R321)? -/
def State.pierUp (s : State) (p : Nat) : Bool := s.live && s.part.pier p && s.rbit (0x40004 + 0x40 * p) 0

/-- Is a KIND defined at the slab's version (R108, R131)? -/
def kindOk (f : Frame) : Bool :=
  (fVer f == 2 && decide (1 ≤ fKind f) && decide (fKind f ≤ 10))
    || (fVer f == 1 && [1, 2, 3, 4, 6, 7, 8].contains (fKind f))

/-- Kinds that are answered with a NACK when a check refuses them. -/
def answered (f : Frame) : Bool := [1, 2, 3, 5].contains (fKind f)

/-- Insert by a key, after equals. -/
def insBy {α : Type} (k : α → Nat) (x : α) : List α → List α
  | [] => [x]
  | y :: l => if k x < k y then x :: y :: l else y :: insBy k x l

/-- Commands in the order in which errors of one step are logged: by unit, then by context (R356). -/
def State.byUnit (s : State) (l : List (Nat × U32)) : List (Nat × U32) :=
  l.foldl (fun l x => insBy (fun x => 32 * (((s.findCmd x.1 x.2).map (fun c => unitOf c.op)).getD 0) + s.owner x.1) x l) []

/-- Commands that wait for the version of a chip: those with slabs waiting, and a collective or a COUNT_XCHG held at its start
(R130, R164). -/
def State.versionWaiters (s : State) (d : Nat) : List (Nat × U32) :=
  let tx := s.tx.flatMap (fun t => if t.dst = d then t.waiting.map (fun o => (o.q, o.idx)) else [])
  let held := (List.range 64).flatMap (fun q => match (s.queue q).cmds.find? (fun c => c.phase == .waiting) with
    | some c =>
      let own := s.owner q
      let gid := if c.op = 0x3D then fld (c.s 2) 15 0 else fld (c.s 1) 15 0
      let ring := (decide (0x38 ≤ c.op) && decide (c.op ≤ 0x3B)) || (c.op == 0x3D && c.camberRing)
      if c.ready && ((ring && (s.groupOf own gid).1.contains d)
          || (c.op == 0x15 && (s.readXb (s.dsc own c 3)).members.contains d)) then [(q, c.idx)] else []
    | none => [])
  (tx ++ held).foldl (fun l x => if l.contains x then l else l ++ [x]) []

/-- Fault commands of a list that are still there; a collective reports first (R180). -/
def State.versionFaults (s : State) (d : Nat) : List (Nat × U32) → State
  | [] => s
  | (q, i) :: l =>
    let s1 := match s.findCmd q i with
      | none => s
      | some c =>
        let own := s.owner q
        let f : Flt := { flt ePeerVersion (unitOf c.op) 4 with peer := d }
        if c.phase = Phase.waiting ∧ c.op ≠ 0x15 then
          let cu := c.op == 0x3D
          let gid := if cu then fld (c.s 2) 15 0 else fld (c.s 1) 15 0
          let g := u32 (if cu then c.s 3 else c.s 2)
          let att := ((s.aborts.find? (fun (a : AbortEnt) => a.ctx == own && a.gid == gid && a.gseq == g)).map (fun (a : AbortEnt) => a.attempt + 1)).getD 0
          ((s.ringReport own q gid g att (if cu then 0 else fld (c.s 1) 17 16) (if cu then 1 else ringOp c.op) ePeerVersion
            (s.groupOf own gid).1).2).fault q i c.op f
        else s.fault q i c.op f
    s1.versionFaults d l

/-- A chip turns out to be DP1: a DISPATCH whose format DP1 cannot carry faults before its first slab to it, a RESERVE too
(R131). -/
def State.knownDp1 (s : State) (d : Nat) : State :=
  let ids := ((s.tx.filter (fun t => t.dst == d)).flatMap (fun t => t.waiting.map (fun o => (o.q, o.idx)))).foldl
    (fun l x => if l.contains x then l else l ++ [x]) []
  let bad := ids.filter (fun x => (s.findCmd x.1 x.2).elim false
    (fun c => c.op == 0x20 && !(fld (c.s 5) 26 24 == 0 || fld (c.s 5) 26 24 == 2)))
  (s.versionFaults d (s.byUnit bad)).peerKnown d 1

/-- A DP1 slab from a chip still unknown tells its version (R130). -/
def State.dp1Seen (s : State) (f : Frame) : State :=
  if !f.hdrBad ∧ fVer f = 1 ∧ s.peerVer (fSrc f) = 0 then s.knownDp1 (fSrc f) else s

/-- A frame's words are received (array 0x0B, R363), and its bytes charged (R280). -/
def State.chargeIn (s : State) (own : Nat) (f : Frame) : State :=
  ((s.acct own 11 f.bytes).energy own 6 (flitsFor 0 f.bytes)).arrayWrite 0xB

/-- NACK where the kind is answered. -/
def State.refuse (s : State) (f : Frame) (reason : Nat) : State :=
  if answered f then s.nack f reason else s

/-- Checks 1 to 4 of R114: the state after a refusal, or none where they pass. A control kind is never answered; a HELLO
that fails check 2 is (DESIGN CHOICE, log entry 62: execHello). -/
def State.gate14 (s : State) (f : Frame) : Option State :=
  let s0 := s.chargeIn 16 f
  if f.hdrBad then some (s0.sysCount 0)
  else if !kindOk f then
    let r := s0.sysCount 1
    some (if [4, 6, 7, 8, 10].contains (fKind f) then r
      else r.answer (fSrc f) (r.answerFrame f 8 2 (fSeq f) 0 (vcOf (fKind f) + 4 * 2 ^ 8) (r.expects f)))
  else if !s.rbit (win (fCtx f) + 0x500) 0 ∨ !s.rbit (kctx (fCtx f)) 0 then some ((s0.sysCount 2).refuse f 2)
  else if fKey f ≠ s.reg (win (fCtx f) + 0x504) then
    some (((s0.ctxCount (fCtx f) 8 1).stick (fCtx f) 0x524 2).refuse f 3)
  else none

/-- Check 5 (R116, R117): the state after a duplicate or a gap, or none in order. -/
def State.gate5 (s : State) (f : Frame) : Option State :=
  let c := fCtx f
  match s.seqCheck f with
  | .inOrder => none
  | .gap _ => some ((s.ctxCount c 10 1).nack f 6)
  | .dup =>
    let s1 := s.ctxCount c 9 1
    let a := s.rpair (win c + 0x510) + 32 * fSrc f + 24
    if fKind f = 3 ∧ s.rd32 (a + 4) = fSeq f then
      some (s1.reply f 4 (fSeq f) (fld (s.rd32 a) 28 0) (fld (f.w 8) 8 0) 0)
    else some (s1.ackDup f)

/-- Check 6: a retired tag (R125). A DP1 slab carries none (R131), and GRANT, ACK and NACK act on a stream, whatever tag
they copy (log entry 38). -/
def State.gate6 (s : State) (f : Frame) : Option State :=
  let c := fCtx f
  if fVer f = 1 ∨ !s.retired c (fGen f) ∨ fKind f = 4 ∨ fKind f = 7 ∨ fKind f = 8 then none
  else
    let s1 := (s.ctxCount c 7 1).stick c 0x524 4
    if fKind f = 6 then some s1
    else
      let b := s1.bcb c (fLslot f)
      let s2 := if (fKind f = 1 ∨ fKind f = 3) ∧ b ≠ 0 then s1.wr32 (b + 28) ((s1.rd32 (b + 28) + 1) % 2 ^ 32) else s1
      some ((s2.rxAdvance f).nack f 5)

/-- Verdict of checks 7 to 10 on a target. -/
inductive TgtRes where
  | ok | notReady | range | format | corrupt
  deriving DecidableEq, Repr

/-- First of checks 7 to 10 that fails. -/
def tgtOf (ready inRange fmtOk payOk : Bool) : TgtRes :=
  if !ready then .notReady else if !inRange then .range else if !fmtOk then .format else if !payOk then .corrupt else .ok

/-- Refusals of checks 7 to 10; none where they pass. -/
def State.gate710 (s : State) (f : Frame) : TgtRes → Option State
  | .ok => none
  | .notReady => some ((s.ctxCount (fCtx f) 10 1).refuse f 1)
  | .range =>
    let s1 := s.ctxCount (fCtx f) 11 1
    some (if answered f then (s1.rxAdvance f).nack f 8 else s1)
  | .format => some ((s.ctxCount (fCtx f) 11 1).refuse f 9)
  | .corrupt => some ((s.ctxCount (fCtx f) 10 1).refuse f 7)

/-- A slab of a kind arrives: its checks, then its effect. A slab of another kind is no event of this row. -/
def State.rx (s : State) (p kind : Nat) (f : Frame) (tgt : State → TgtRes) (eff : State → State) : State :=
  if !s.pierUp p ∨ (kindOk f ∧ fKind f ≠ kind) then s
  else
    let s0 := s.dp1Seen f
    match s0.gate14 f with
    | some s1 => s1
    | none =>
      let s1 := s0.chargeIn (fCtx f) f
      match (if answered f then s1.gate5 f else none) with
      | some s2 => s2
      | none => match s1.gate6 f with
        | some s2 => s2
        | none => match s1.gate710 f (tgt s1) with
          | some s2 => s2
          | none => eff s1

/-- A landing of a tag begins: its answer leaves once its writes are visible (R112, R115). A DP1 slab is of its target's
tag (R131). -/
def State.landing (s : State) (f : Frame) (gen : Nat) (spans : List (Nat × Nat)) : State :=
  let a := s.answerFrame f 7 (fVer f) (if fVer f = 1 then 0 else fSeq f) 0 (vcOf (fKind f)) 0
  let l : Landing := { n := s.landNo, ctx := fCtx f, gen := if fVer f = 1 then gen else fGen f, spans := spans, seq := u32 (fSeq f)
                       ack := some (fSrc f, a) }
  { s with landings := s.landings ++ [l], landNo := s.landNo + 1 }

/-- ORD of the slab agrees with the context's mode (R166). -/
def State.ordAgrees (s : State) (f : Frame) : Bool := fOrd f == s.ordOf (fCtx f)

/-- Payload length and marks of a slab with rows. -/
def payFits (f : Frame) (pitch : Nat) : Bool := f.payload.length == fRows f * pitch
def payGood (f : Frame) : Bool := f.payload.isEmpty || !f.payBad
/-- FMT and MXBLK of a slab with rows are not rejected. -/
def fmtCodes (f : Frame) : Bool := decide (fFmt f ≤ 5) && fld (f.w 5) 21 20 == 0

-- DISPATCH

/-- Checks 7 to 10 of a DISPATCH slab. -/
def State.dspTarget (s : State) (f : Frame) : TgtRes :=
  let b := s.bcb (fCtx f) (fLslot f)
  tgtOf (s.armed b (fGen f) (fVer f == 1)) (s.bayRange (fCtx f) b (fRow f) (fRows f))
    (fmtCodes f && fElems f == s.bayElems b && fFmt f == s.bayFmt b && payFits f (s.bayPitch b) && s.ordAgrees f
      && (fVer f == 2 || fFmt f == 0 || fFmt f == 2)) (payGood f)

/-- A control slab with a payload fails check 9. -/
def bareTarget (f : Frame) : TgtRes := tgtOf true true f.payload.isEmpty true

/-- A DISPATCH slab lands (R112); the ready counts follow once its writes are visible (R141). -/
def State.dspLand (s : State) (f : Frame) : State :=
  let c := fCtx f
  let b := s.bcb c (fLslot f)
  let a := s.bayRows b + s.bayPitch b * fRow f
  (((s.rxAdvance f).landing f (fld (s.rd32 b) 31 16) [(a, f.payload.length)]).landRows c (fLslot f) (fSrc f) (fRow f) (fRows f)
    f.payload).chargeRows c 9 (fRows f) (s.bayPitch b) false

/-- DISPATCH_SLAB_RX. -/
def execDispatchSlabRx (p : Nat) (f : Frame) (s : State) : Host.Outcome State Fault Refusal :=
  .next (s.rx p 1 f (fun s => s.dspTarget f) (fun s => s.dspLand f))

-- RETURN

/-- The exchange a RETURN slab answers: by (GEN, XID), or for a DP1 slab the one that holds its segment (R123, R131). -/
def State.retExch (s : State) (f : Frame) : Option Exch :=
  if fVer f = 1 then
    s.exch.find? (fun e => e.ctx == fCtx f && (s.retTargets e (fSrc f) (fLslot f) (fRow f) (fRows f)).isSome)
  else s.findExch (fCtx f) (fGen f) (fXid f)

/-- Checks 7 to 10 of a RETURN slab. -/
def State.retTarget (s : State) (f : Frame) : TgtRes :=
  match s.retExch f with
  | none => .notReady
  | some e => match s.retTargets e (fSrc f) (fLslot f) (fRow f) (fRows f) with
    | none => .range
    | some ts =>
      let rf := (s.readXb (s.desc e.ctx e.xb)).rfmt
      let brow := rowBytes rf (fElems f)
      tgtOf true true (fmtCodes f && fFmt f == (if rf = 2 then 2 else 0) && ts.all (fun t => t.1.rowB == brow)
        && payFits f (pitchOf brow) && s.ordAgrees f) (payGood f)

/-- A RETURN slab's rows go to their planes (R123). -/
def State.retLand (s : State) (f : Frame) : State :=
  match s.retExch f with
  | none => s
  | some e => match s.retTargets e (fSrc f) (fLslot f) (fRow f) (fRows f) with
    | none => s
    | some ts =>
      let rf := (s.readXb (s.desc e.ctx e.xb)).rfmt
      let brow := rowBytes rf (fElems f)
      let s1 := (s.rxAdvance f).landing f e.gen (ts.map (fun t => (t.1.byteAt (t.2 * t.1.rowB), brow)))
      ((s1.placeRows brow (pitchOf brow) f.payload 0 ts).opCount 9 rf (fRows f)).chargePlaced (fCtx f) brow ts

/-- RETURN_SLAB_RX. -/
def execReturnSlabRx (p : Nat) (f : Frame) (s : State) : Host.Outcome State Fault Refusal :=
  .next (s.rx p 2 f (fun s => s.retTarget f) (fun s => s.retLand f))

-- RESERVE and GRANT

/-- Checks 7 to 9 of a RESERVE. -/
def State.resTarget (s : State) (f : Frame) : TgtRes :=
  let n := fld (f.w 8) 8 0
  tgtOf (s.armed (s.bcb (fCtx f) (fLslot f)) (fGen f) (fVer f == 1)) true
    (decide (1 ≤ n) && decide (n ≤ 256) && decide (128 ≤ f.w 9) && decide (f.w 9 ≤ 1048576) && f.payload.isEmpty) true

/-- A RESERVE is answered with its GRANT, which is recorded (R113, R116). -/
def State.resGrant (s : State) (f : Frame) : State :=
  let c := fCtx f
  let n := fld (f.w 8) 8 0
  let t := s.toll (s.bcb c (fLslot f)) n (f.w 9)
  let w4 := t.1 % 2 ^ 20 + t.2.1 * 2 ^ 20
  let s1 := t.2.2.rxAdvance f
  let s2 := if fVer f = 1 then s1
    else s1.wr64 (s1.rpair (win c + 0x510) + 32 * fSrc f + 24) (w4 + fSeq f * 2 ^ 32)
  s2.reply f 4 (if fVer f = 1 then 0 else fSeq f) w4 n 0

/-- RESERVE_RX. -/
def execReserveRx (p : Nat) (f : Frame) (s : State) : Host.Outcome State Fault Refusal :=
  .next (s.rx p 3 f (fun s => s.resTarget f) (fun s => s.resGrant f))

/-- Is an outstanding slab the one an answer names: by SEQ, or at DP1 by its word 3 (R131)? -/
def names (f : Frame) (o : OutSlab) : Bool := if fVer f = 1 then o.f.w 3 == f.w 3 else fSeq o.f == fSeq f

/-- The stream progresses (R117): these slabs stay unacknowledged, and the back-off returns to its start. -/
def TxStream.progress (t : TxStream) (rest : List OutSlab) : TxStream :=
  let first := rest.head?.map (fun o => fSeq o.f)
  { t with unacked := rest, backoff := 0, backSeq := stillMade first t.backSeq, resend := stillDue first t.resend }

/-- A GRANT (R113, R117): its RESERVE and what went before is acknowledged, and the grant is recorded and used. -/
def State.takeGrant (s : State) (f : Frame) : State :=
  let c := fCtx f
  let d := fSrc f
  match s.findTx c d 4 with
  | none => s.sysCount 3
  | some t => match t.unacked.find? (fun o => fKind o.f == 3 && names f o) with
    | none => s
    | some o =>
      let s1 := s.updTx c d 4 (fun t => t.progress (t.unacked.filter (fun x => decide (0 < i32diff (fSeq x.f) (fSeq o.f)))))
      let s2 := match s1.findExch c (fGen o.f) (fXid o.f) with
        | none => s1
        | some e => match e.asked.find? (fun (k : Chunk) => k.dst == d) with
          | some k => s1.granted e k (fRow f) (fRows f)
          | none => s1
      s2.txPump

/-- GRANT_RX. -/
def execGrantRx (p : Nat) (f : Frame) (s : State) : Host.Outcome State Fault Refusal :=
  .next (s.rx p 4 f (fun _ => bareTarget f) (fun s => s.takeGrant f))

-- COUNT and BARRIER

def fPhase (f : Frame) : Nat := fld (f.w 8) 1 0

/-- Check 8 of a COUNT slab (R168). -/
def countRange (f : Frame) : Bool :=
  let n := fld (f.w 8) 28 16
  decide (n ≤ 4096) && decide (16 * n ≤ f.payload.length) && ascending ((countEnts n f.payload).map (fun e => e.lslot))

/-- Checks 7 to 10 of a COUNT slab of phase 0 or 1 (R166, R168). A payload longer than the padded entries is refused
FORMAT: R168 speaks of a short one alone (DESIGN CHOICE, log entry 62). -/
def State.cntTarget (s : State) (f : Frame) : TgtRes :=
  let n := fld (f.w 8) 28 16
  tgtOf ((s.findExch (fCtx f) (fGen f) (fXid f)).elim false (fun e => e.cxq.isSome)) (countRange f)
    (f.payload.length == 32 * ((16 * n + 31) / 32) && s.ordAgrees f) (payGood f)

/-- A COUNT slab reaches its exchange (R165). -/
def State.cntTake (s : State) (f : Frame) : State :=
  let m : CountMsg := { src := fSrc f, mis := bitOf (f.w 8) 2, epoch := u32 (f.w 9), cap := u32 (f.w 10),
                        layer := fld (f.w 11) 7 0, ents := countEnts (fld (f.w 8) 28 16) f.payload }
  let s1 := s.rxAdvance f
  (s1.ackNow f).cxArrive (fCtx f) (fGen f) (fXid f) (fPhase f) m

/-- COUNT_SLAB_RX. -/
def execCountSlabRx (p : Nat) (f : Frame) (s : State) : Host.Outcome State Fault Refusal :=
  .next (if kindOk f ∧ 1 < fPhase f then s else s.rx p 5 f (fun s => s.cntTarget f) (fun s => s.cntTake f))

/-- Checks 7 to 9 of a barrier slab; an ARRIVE needs the coordinator. BARRIER runs in either mode, so ORD is not
compared. Entries or a payload are refused FORMAT (DESIGN CHOICE, log entry 62). -/
def State.barTarget (s : State) (f : Frame) : TgtRes :=
  tgtOf ((s.findBar (fCtx f) (fGen f) (fXid f)).elim false (fun b => fPhase f == 3 || b.coord == s.chip)) (countRange f)
    (fld (f.w 8) 28 16 == 0 && f.payload.isEmpty) true

/-- BARRIER_ARRIVE_RX (R171). -/
def execBarrierArriveRx (p : Nat) (f : Frame) (s : State) : Host.Outcome State Fault Refusal :=
  .next (if kindOk f ∧ fPhase f ≠ 2 then s
    else s.rx p 5 f (fun s => s.barTarget f) (fun s =>
      let s1 := (s.rxAdvance f)
      let s2 := s1.ackNow f
      match s2.findBar (fCtx f) (fGen f) (fXid f) with
      | some b => s2.barArrive b (fSrc f) (f.w 9)
      | none => s2))

/-- A RELEASE at a member (R171, R172): a mismatch faults it; a time already past releases at once. -/
def State.barRelTake (s : State) (f : Frame) : State :=
  let s1 := (s.rxAdvance f)
  let s2 := s1.ackNow f
  match s2.findBar (fCtx f) (fGen f) (fXid f) with
  | none => s2
  | some b =>
    if b.released then s2
    else if bitOf (f.w 8) 2 then s2.fault b.q b.idx 0x05 (flt eExchMismatch 1)
    else if b.trel.isSome then s2
    else
      let t := f.w 12 + 2 ^ 32 * f.w 13
      let r := s2.readTime
      let s3 := r.2.updBar b.ctx b.gen b.bid (fun x => { x with trel := some (BitVec.ofNat 64 t) })
      if t ≤ r.1 then s3.barRelease { b with trel := some (BitVec.ofNat 64 t) } true else s3

/-- BARRIER_RELEASE_RX. -/
def execBarrierReleaseRx (p : Nat) (f : Frame) (s : State) : Host.Outcome State Fault Refusal :=
  .next (if kindOk f ∧ fPhase f ≠ 3 then s else s.rx p 5 f (fun s => s.barTarget f) (fun s => s.barRelTake f))

-- MARKER

/-- Checks 8 and 9 of a MARKER. -/
def State.mrkTarget (s : State) (f : Frame) : TgtRes :=
  tgtOf true (decide (fld (f.w 8) 19 0 < s.reg (win (fCtx f) + 0x108))) (decide (fld (f.w 8) 21 20 < 2) && f.payload.isEmpty) true

/-- MARKER_RX (R12, R114). -/
def execMarkerRx (p : Nat) (f : Frame) (s : State) : Host.Outcome State Fault Refusal :=
  .next (s.rx p 6 f (fun s => s.mrkTarget f) (fun s =>
    (s.trace 0x07 (fCtx f) 0 [fSrc f, fld (f.w 8) 19 0, fld (f.w 8) 21 20, fGen f + fXid f * 2 ^ 16]).markerIn (fCtx f)
      (fld (f.w 8) 19 0)))

-- ACK

/-- An ACK of a stream up to a SEQ (R115); it never answers a RESERVE (R117). -/
def State.takeAck (s : State) (f : Frame) : State :=
  let c := fCtx f
  let d := fSrc f
  let vc := fld (f.w 8) 2 0
  match s.findTx c d vc with
  | none => s.sysCount 3
  | some t =>
    let hit (o : OutSlab) : Bool := fKind o.f != 3 && (if fVer f = 1 then o.f.w 3 == f.w 3 else decide (0 ≤ i32diff (fSeq f) (fSeq o.f)))
    let gone := if fVer f = 1 then (t.unacked.filter hit).take 1 else t.unacked.filter hit
    if gone.isEmpty then s
    else (s.updTx c d vc (fun t => t.progress (t.unacked.filter (fun o => !gone.contains o)))).txPump

/-- ACK_RX. -/
def execAckRx (p : Nat) (f : Frame) (s : State) : Host.Outcome State Fault Refusal :=
  .next (s.rx p 7 f (fun _ => bareTarget f) (fun s => s.takeAck f))

-- NACK and resends

/-- Send the unacknowledged slabs of a stream from a SEQ again, RESEND set (R117); a context whose EN is 0 sends nothing (R134).
Slabs of a killed command are among them until its rerun (R127: DESIGN CHOICE, log entry 62). -/
def State.resendFrom (s : State) (c d vc : Nat) (from_ : U32) (p : OutSlab → Bool) : State :=
  match s.findTx c d vc with
  | none => s
  | some t =>
    if !s.rbit (win c + 0x500) 0 then s
    else
    let v := s.peerVer d
    let out := t.unacked.filter (fun o => p o && decide (0 ≤ i32diff (fSeq o.f) from_.toNat))
    let s1 := s.updTx c d vc (fun t => { t with resend := none, backSeq := some from_ })
    out.foldl (fun s o => s.emit d vc (wireForm v (fResend o.f))) s1

/-- What a NACK asks of a stream (R117). -/
inductive NackAct where
  | covered | wait (us : Nat) | now
  deriving DecidableEq, Repr

/-- Is a refusal covered by a resend scheduled or made, and if not, how long does the stream back off? -/
def nackAct (backoff : Nat) (made sched : Option U32) (named r : Nat) (slow : Bool) : NackAct :=
  let fresh : NackAct := if slow then .wait 1 else .now
  match sched, made with
  | some q, _ => if 0 ≤ i32diff r q.toNat then .covered else fresh
  | none, some q =>
    if i32diff r q.toNat < 0 then fresh
    else if 0 < i32diff named q.toNat then .covered
    else if slow then .wait (min 64 (max 1 (2 * backoff))) else .now
  | none, none => fresh

/-- The command that sent a slab faults, where it is running. -/
def State.slabFault (s : State) (o : OutSlab) (code reason peer : Nat) : State :=
  match s.findCmd o.q o.idx with
  | some c => if c.live then s.fault o.q o.idx c.op { flt code (unitOf c.op) reason with peer := peer } else s
  | none => s

/-- A slab is finished: it leaves the stream. -/
def State.slabDone (s : State) (c d vc : Nat) (o : OutSlab) : State :=
  s.updTx c d vc (fun t => { t with unacked := t.unacked.filter (fun x => x != o) })

/-- A slab was answered STALE (R117). -/
def State.slabStale (s : State) (c d vc : Nat) (o : OutSlab) : State :=
  let s1 := s.slabDone c d vc o
  let s2 := match fKind o.f with
    | 1 => s1.dspStale c o.f
    | 3 => match s1.findExch c (fGen o.f) (fXid o.f) with
      | none => s1
      | some e => match e.asked.find? (fun (k : Chunk) => k.dst == d) with
        | some k => s1.granted e k 0 0
        | none => s1
    | _ => s1
  s2.txPump

/-- A NACK that answers a slab of a stream, by REASON (R117). -/
def State.takeNack (s : State) (f : Frame) : State :=
  let c := fCtx f
  let d := fSrc f
  let vc := fld (f.w 8) 2 0
  let reason := fld (f.w 8) 15 8
  if reason = 0 ∨ 9 < reason then s.sysCount 4
  else match s.findTx c d vc with
    | none => s
    | some t => match t.unacked.find? (names f) with
      | none => s
      | some o => match reason with
        | 3 => (s.stick c 0x524 1).slabFault o eStranger 3 d
        | 4 => s.slabFault o ePeerVersion 4 d
        | 5 => s.slabStale c d vc o
        | 8 => (s.slabDone c d vc o).slabFault o eSlabRange 8 d
        | 9 => s.slabFault o eSlabFormat 9 d
        | _ =>
          let slow := reason ≤ 2
          if fVer f = 1 then
            if slow then s.updTx c d vc (fun t => { t with
              dp1 := if t.dp1.contains (u32 (fSeq o.f)) then t.dp1 else t.dp1 ++ [u32 (fSeq o.f)]
              backoff := min 64 (max 1 (2 * t.backoff)) })
            else s.resendFrom c d vc (u32 (fSeq o.f)) (fun x => x == o)
          else
            let r := if reason = 6 then f.w 9 else fSeq f
            match nackAct t.backoff t.backSeq t.resend (fSeq f) r slow with
            | .covered => s
            | .wait us => s.updTx c d vc (fun t => { t with backoff := us, resend := some (u32 r), backSeq := none })
            | .now => s.resendFrom c d vc (u32 r) (fun _ => true)

/-- NACK_RX. A NACK VERSION from a chip to which a HELLO is in flight answers that HELLO (R130). -/
def execNackRx (p : Nat) (f : Frame) (s : State) : Host.Outcome State Fault Refusal :=
  .next (if s.pierUp p ∧ !f.hdrBad ∧ kindOk f ∧ fKind f = 8 ∧ fld (f.w 8) 15 8 = 4 ∧ s.hellos.any (fun h => h.chip == fSrc f) then
      let s1 := s.chargeIn 16 f
      if fVer f = 1 then s1.knownDp1 (fSrc f)
      else
        let s2 : State := { s1 with hellos := s1.hellos.filter (fun h => h.chip != fSrc f) }
        s2.versionFaults (fSrc f) (s2.byUnit (s2.versionWaiters (fSrc f)))
    else s.rx p 8 f (fun _ => bareTarget f) (fun s => s.takeNack f))

-- HELLO

/-- HELLO (R130): it concerns the chip and skips checks 3 to 10. One whose VER fails check 2 is answered NACK VERSION:
R114 does not say whether a HELLO is among the control kinds that are never answered (DESIGN CHOICE, log entry 62). -/
def execHello (p : Nat) (f : Frame) (s : State) : Host.Outcome State Fault Refusal :=
  .next (if !s.pierUp p ∨ (kindOk f ∧ fKind f ≠ 9) then s
    else
      let s0 := s.chargeIn 16 f
      let ans (k w8 : Nat) : Frame := mkFrame [2 + k * 2 ^ 4 + s.chip * 2 ^ 12, 0, fSrc f * 2 ^ 16, 0, 0, 0, fSeq f, 0, w8]
      if f.hdrBad then s0.sysCount 0
      else if !kindOk f then (s0.sysCount 1).answer (fSrc f) (ans 8 (4 * 2 ^ 8))
      else if 2 < fld (f.w 8) 7 4 then s0.answer (fSrc f) (ans 8 (4 * 2 ^ 8))
      else s0.answer (fSrc f) (ans 10 (min (fld (f.w 8) 3 0) 2)))

/-- HELLO_ACK (R130). -/
def execHelloAck (p : Nat) (f : Frame) (s : State) : Host.Outcome State Fault Refusal :=
  .next (if !s.pierUp p ∨ (kindOk f ∧ fKind f ≠ 10) then s
    else
      let s0 := s.chargeIn 16 f
      let v := fld (f.w 8) 3 0
      if f.hdrBad then s0.sysCount 0
      else if !kindOk f then s0.sysCount 1
      else if !s0.hellos.any (fun h => h.chip == fSrc f) then s0
      else if v = 1 then s0.knownDp1 (fSrc f)
      else if v = 2 then s0.peerKnown (fSrc f) 2
      else s0)

-- timers

/-- SLAB_RESEND: 100 µs without an answer (R117). -/
def execSlabResend (c dst vc : Nat) (s : State) : Host.Outcome State Fault Refusal :=
  .next (match s.findTx c dst vc with
    | some t => match t.unacked with
      | o :: _ => if s.live ∧ s.refclk then s.resendFrom c dst vc (u32 (fSeq o.f)) (fun _ => true) else s
      | [] => s
    | none => s)

/-- BACKOFF_EXPIRY (R117). -/
def execBackoffExpiry (c dst vc : Nat) (s : State) : Host.Outcome State Fault Refusal :=
  .next (match s.findTx c dst vc with
    | some t =>
      if !s.live ∨ !s.refclk ∨ !s.rbit (win c + 0x500) 0 then s
      else match t.resend, t.dp1 with
        | some r, _ => s.resendFrom c dst vc r (fun _ => true)
        | none, [] => s
        | none, r :: rs =>
          let all := r :: rs
          let out := t.unacked.filter (fun o => all.contains (u32 (fSeq o.f)))
          out.foldl (fun s o => s.emit dst vc (wireForm (s.peerVer dst) (fResend o.f)))
            (s.updTx c dst vc (fun t => { t with dp1 := [] }))
    | none => s)

/-- STREAM_TIMEOUT: no progress for the exchange timeout (R117, R130). -/
def execStreamTimeout (c dst vc : Nat) (s : State) : Host.Outcome State Fault Refusal :=
  .next (match s.findTx c dst vc with
    | some t => match t.unacked ++ t.waiting with
      | o :: _ => if s.live ∧ s.refclk then s.slabFault o eTimeout 0 dst else s
      | [] => s
    | none => s)

/-- HELLO_RESEND: 100 µs without an answer, while something waits for the chip's version (R130). -/
def execHelloResend (chip : Nat) (s : State) : Host.Outcome State Fault Refusal :=
  .next (if s.live ∧ s.refclk ∧ s.hellos.any (fun h => h.chip == chip) then
      if !(s.versionWaiters chip).isEmpty ∨ s.net.held.any (fun h => h.1 == chip) then s.sayHello chip true
      else { s with hellos := s.hellos.filter (fun h => h.chip != chip) }
    else s)

/-- DRAIN_TIMEOUT (R126). -/
def execDrainTimeout (q : Nat) (i : U32) (s : State) : Host.Outcome State Fault Refusal :=
  .next (match s.findCmd q i with
    | some c => if s.live ∧ s.refclk ∧ c.op = 0x22 ∧ c.phase = .started ∧ !s.drained (s.owner q) (fld (c.s 0) 15 0) (bitOf (c.s 0) 16)
        then s.fault q i 0x22 (flt eTimeout 8) else s
    | none => s)

/-- Is a COUNT_XCHG held at its start by the version of a member (R164)? -/
def State.countHeld (s : State) (q : Nat) (c : Cmd) : Bool :=
  c.phase == .waiting && c.ready && (s.readXb (s.dsc (s.owner q) c 3)).members.any (fun m => s.hellos.any (fun h => h.chip == m))

/-- COUNT_XCHG_TIMEOUT (R130, R167). -/
def execCountXchgTimeout (q : Nat) (i : U32) (s : State) : Host.Outcome State Fault Refusal :=
  .next (match s.findCmd q i with
    | some c =>
      let late : Bool := match s.findExch (s.owner q) c.gen c.xid with
        | some e => (s.readXb (s.dsc (s.owner q) c 3)).members.any (fun m => !e.ph1.any (fun p => p.src == m))
        | none => false
      if s.live ∧ s.refclk ∧ c.op = 0x15 ∧ ((c.phase = .started ∧ late) ∨ s.countHeld q c) then s.fault q i 0x15 (flt eTimeout 8) else s
    | none => s)

end Sys2Proof.Machine
end

