-- ==== Sys2Proof/Machine/RingRx.lean ====
section
/-! DEFINITION. Ring frames received on VC 3 and the timers of collectives (R186, R190, R191, R193 to R200). -/
namespace Sys2Proof.Machine

/-- SEQ of a ring frame (R198). -/
def rSn (f : Frame) : Nat := f.w 5
def rGid (f : Frame) : Nat := fld (f.w 2) 15 0
def rAtt (f : Frame) : Nat := fld (f.w 2) 29 28
def rRetry (f : Frame) : Nat := fld (f.w 2) 31 30
def rSeq (f : Frame) : U32 := u32 (f.w 3)
def rOp (f : Frame) : Nat := fld (f.w 4) 2 0
def rDir (f : Frame) : Nat := fld (f.w 4) 6 6
def rCode (f : Frame) : Nat := fld (f.w 9) 7 0

/-- Are FKIND and OP defined (R198, R200 check 2)? -/
def ringKindOk (f : Frame) : Bool :=
  fVer f == 2 && decide (1 ≤ fKind f) && decide (fKind f ≤ 5) && decide (1 ≤ rOp f) && decide (rOp f ≤ 4)

/-- Does a CODE name done, commit or a fault of R362 (R200 check 9)? -/
def ringCodeOk (f : Frame) : Bool := decide (rCode f ≤ 0x1D)

/-- An answer to a ring frame: words 0 to 4 name the collective, attempt, operation and direction answered; the fields that
an answer does not use are 0 (R198). -/
def State.ringAnswer (s : State) (f : Frame) (kind seq code next : Nat) : State :=
  let c := fCtx f
  s.emit (fSrc f) 3 (mkFrame [2 + kind * 2 ^ 4 + c * 2 ^ 8 + s.chip * 2 ^ 12 + b2n (s.ordOf c) * 2 ^ 24, fKey f,
    putFld (f.w 2 % 2 ^ 30) 27 16 (fSrc f), f.w 3, rOp f + rDir f * 2 ^ 6, seq, s.rf (win c + 0x500) 31 16, 0, 0, code, next])

/-- RNACK a DATA frame; the control kinds are not refused by an answer (R114, R198). -/
def State.ringRefuse (s : State) (f : Frame) (reason next : Nat) : State :=
  if fKind f = 1 then s.ringAnswer f 3 (rSn f) reason next else s

/-- Checks 1 to 4 of R200: the state after a refusal, or none. -/
def State.ringGate (s : State) (f : Frame) : Option State :=
  let s0 := s.chargeIn 16 f
  let c := fCtx f
  if f.hdrBad then some (s0.sysCount 0)
  else if !ringKindOk f then
    let s1 := s0.sysCount 1
    some (if 2 ≤ fKind f ∧ fKind f ≤ 5 then s1 else s1.ringAnswer f 3 (rSn f) 4 0)
  else if !s.rbit (win c + 0x500) 0 ∨ !s.rbit (kctx c) 0 then some ((s0.sysCount 2).ringRefuse f 2 0)
  else if fKey f ≠ s.reg (win c + 0x504) then some (((s0.ctxCount c 8 1).stick c 0x524 2).ringRefuse f 3 0)
  else none

/-- A ring frame of a kind arrives: the shared checks, then the rest. Another kind is no event of this row. -/
def State.ringRx (s : State) (p kind : Nat) (f : Frame) (eff : State → State) : State :=
  if !s.pierUp p ∨ (ringKindOk f ∧ fKind f ≠ kind) then s
  else match s.ringGate f with
    | some s1 => s1
    | none => eff (s.chargeIn (fCtx f) f)

/-- The slot of a context bound to (GID, GSEQ) (R182). -/
def State.ringAt (s : State) (c gid : Nat) (gseq : U32) : Option (Nat × RingSlot) :=
  s.rings.find? (fun p => p.2.ctx == c && p.2.gid == gid && p.2.gseq == gseq)

/-- Does a control frame or an answer agree with the local collective (R200 check 9)? RETRY is one of a REPORT's fields. -/
def State.ringCtlAgrees (s : State) (r : RingSlot) (f : Frame) : Bool :=
  rOp f == r.op && fOrd f == s.ordOf r.ctx && (fKind f != 4 || rRetry f == r.retry)

/-- Check 9 failed: the collective is reported as mismatched (R200). -/
def State.ringMismatch (s : State) (slot : Nat) (f : Frame) : State :=
  (s.ctxCount (fCtx f) 11 1).ringTell slot eExchMismatch

-- DATA

/-- Outcome of check 5 on a DATA frame of the slot's attempt (R116, R199). -/
def RingSlot.seqCheck (r : RingSlot) (f : Frame) : SeqRes :=
  match r.rx.find? (fun e => e.1 == fSrc f && e.2.1 == rDir f) with
  | none => if rSn f = 0 then .inOrder else .gap 0
  | some e =>
    let nx := e.2.2.2.toNat
    if e.2.2.1 = fld (f.w 6) 15 0 then
      if rSn f = nx then .inOrder else if i32diff (rSn f) nx < 0 then .dup else .gap nx
    else if rSn f = 0 then .inOrder else .gap 0

/-- The last SEQ accepted on the frame's stream. -/
def RingSlot.accepted (r : RingSlot) (f : Frame) : Nat :=
  match r.rx.find? (fun e => e.1 == fSrc f && e.2.1 == rDir f) with
  | none => 0
  | some e => (e.2.2.2.toNat + 2 ^ 32 - 1) % 2 ^ 32

/-- Does a DATA frame come from the expected sender, with the bytes of the segment it names (R200 check 8)? -/
def RingSlot.fits (r : RingSlot) (f : Frame) : Bool :=
  let c := fld (f.w 7) 11 0
  let g := fld (f.w 7) 31 12
  let n := fld (f.w 9) 20 0
  let d := rDir f
  let phase := fld (f.w 4) 7 7
  let prev := r.members.getD (r.next r.me (1 - d)) 0
  let at_ := f.w 11 == g * segBytes && f.payload.length == n && decide (n ≤ segBytes)
  let blk := phase == 1 && decide (g * segBytes + n ≤ r.size)
  at_ && decide (1 < r.n) && decide (c < r.n) && (match r.op with
    | 1 => fSrc f == prev && decide (g < r.segs c) && n == (r.seg c g).2
        && (if phase = 0 then r.me != c else r.me != r.holder c d)
    | 2 => fSrc f == prev && r.me != c && blk
    | _ => fSrc f == r.members.getD r.fromIdx 0 && c == r.fromIdx && r.fromIdx != r.me && blk)

/-- Does a DATA frame agree with the local collective (R200 check 9)? -/
def State.ringAgrees (s : State) (r : RingSlot) (f : Frame) : Bool :=
  rOp f == r.op && fld (f.w 4) 5 3 == r.dfmt && f.w 8 == r.size && rRetry f == r.retry && fOrd f == s.ordOf r.ctx

/-- An accepted DATA frame: its SEQ advances, it is acknowledged, and it is summed and forwarded, or written and copied
onward (R186, R190, R191, R199). -/
def State.ringTake (s : State) (slot : Nat) (r : RingSlot) (f : Frame) : State :=
  let c := fld (f.w 7) 11 0
  let g := fld (f.w 7) 31 12
  let hop := fld (f.w 4) 20 8
  let d := rDir f
  let e : Nat × Nat × Nat × U32 := (fSrc f, d, fld (f.w 6) 15 0, u32 (rSn f + 1))
  let s1 := s.updRing slot (fun r => { r with rx := r.rx.filter (fun x => !(x.1 == fSrc f && x.2.1 == d)) ++ [e] })
  let s2 := (s1.ringAnswer f 2 (rSn f) 0 0).chargeWrites r.ctx [f.payload.length]
  let s3 := match r.op with
    | 1 => if fld (f.w 4) 7 7 = 0 then s2.ringSum slot r d c g hop (f.w 11) f.payload
        else s2.ringCopy slot r d c g hop (f.w 11) f.payload
    | 2 =>
      let s4 := s2.ringPlace slot r c (f.w 11) f.payload
      let nx := r.next r.me d
      if nx = c then s4 else s4.ringData slot (r.members.getD nx 0) d c g 1 (hop + 1) (f.w 11) f.payload
    | _ => s2.ringPlace slot r c (f.w 11) f.payload
  (s3.ringSeen slot (some (fSrc f))).ringCheck slot

/-- Checks 5 to 10 of a DATA frame, then its effect. A frame of an attempt that this member has not begun finds no slot
(log entry 44). -/
def State.ringDataTake (s : State) (f : Frame) : State :=
  let c := fCtx f
  match s.ringAt c (rGid f) (rSeq f) with
  | none => (s.ctxCount c 10 1).ringAnswer f 3 (rSn f) 1 0
  | some (slot, r) =>
    if r.attempt < rAtt f then (s.ctxCount c 10 1).ringAnswer f 3 (rSn f) 1 0
    else match r.seqCheck f with
      | .dup => (s.ctxCount c 9 1).ringAnswer f 2 (r.accepted f) 0 0
      | .gap n => (s.ctxCount c 10 1).ringAnswer f 3 (rSn f) 6 n
      | .inOrder =>
        if rAtt f < r.attempt then s.ctxCount c 7 1
        else if !r.fits f ∨ !s.ringAgrees r f then s.ringMismatch slot f
        else if !f.payload.isEmpty ∧ f.payBad then (s.ctxCount c 10 1).ringAnswer f 3 (rSn f) 7 0
        else s.ringTake slot r f

/-- RING_DATA_RX. -/
def execRingDataRx (p : Nat) (f : Frame) (s : State) : Host.Outcome State Fault Refusal :=
  .next (s.ringRx p 1 f (fun s => s.ringDataTake f))

-- RACK and RNACK

/-- The slot, and the stream of it toward the sender of an answer, that the answer concerns. -/
def State.ringStream (s : State) (f : Frame) : Option (Nat × RingTx) :=
  match s.ringAt (fCtx f) (rGid f) (rSeq f) with
  | none => none
  | some (slot, r) =>
    if r.attempt ≠ rAtt f then none
    else (r.tx.find? (fun t => t.dst == fSrc f && t.dir == rDir f)).map (fun t => (slot, t))

/-- Change the stream of a slot toward a chip in a direction. -/
def State.updRingTx (s : State) (slot dst dir : Nat) (g : RingTx → RingTx) : State :=
  s.updRing slot (fun r => { r with tx := r.tx.map (fun t => if t.dst = dst ∧ t.dir = dir then g t else t) })

/-- Is a kept REPORT or DECIDE the one that a RACK answers? -/
def ctlHit (f : Frame) (k : RingCtl) : Bool :=
  k.ctx == fCtx f && k.gid == rGid f && k.gseq == rSeq f && k.dst == fSrc f && rAtt k.f == rAtt f

/-- Checks 6 and 9 of an answer to a bound collective (R200): the state after a failure, or none. -/
def State.ringAnsGate (s : State) (f : Frame) : Option State :=
  match s.ringAt (fCtx f) (rGid f) (rSeq f) with
  | none => none
  | some (slot, r) =>
    if rAtt f < r.attempt then some (s.ctxCount (fCtx f) 7 1)
    else if rAtt f = r.attempt ∧ !s.ringCtlAgrees r f then some (s.ringMismatch slot f)
    else none

/-- A RACK that passes: the DATA frames up to its SEQ; where there is none, the REPORT or DECIDE that is kept (R199, log
entry 45). -/
def State.rackGo (s : State) (f : Frame) : State :=
  let old (g : Frame) : Bool := decide (0 ≤ i32diff (rSn f) (rSn g))
  let ctl : State := match s.ringCtl.find? (ctlHit f) with
    | some k => { s with ringCtl := s.ringCtl.erase k }
    | none => s
  match s.ringStream f with
  | some (slot, t) =>
    if t.unacked.any old then
      let s1 := s.updRingTx slot t.dst t.dir (fun t =>
        let rest := t.unacked.filter (fun g => !old g)
        let first := rest.head?.map rSn
        { t with unacked := rest, backoff := 0, backSeq := stillMade first t.backSeq, resend := stillDue first t.resend })
      let s2 := s1.updRing slot (fun r => { r with notrdy := r.notrdy.filter (fun d => d != t.dst) })
      ((s2.ringPump slot).ringSeen slot (some t.dst)).ringCheck slot
    else ctl
  | none => ctl

/-- A RACK at this chip. -/
def State.rackTake (s : State) (f : Frame) : State := (s.ringAnsGate f).getD (s.rackGo f)

/-- RACK_RX. -/
def execRackRx (p : Nat) (f : Frame) (s : State) : Host.Outcome State Fault Refusal :=
  .next (s.ringRx p 2 f (fun s => s.rackTake f))

/-- Send a stream's unacknowledged frames from a SEQ again, unless the slot has stopped sending (R194, R199). -/
def State.ringResendFrom (s : State) (slot : Nat) (t : RingTx) (from_ : Nat) : State :=
  match s.findRing slot with
  | none => s
  | some r =>
    if r.reported.isSome ∧ r.reported ≠ some 0 then s
    else
      let s1 := s.updRingTx slot t.dst t.dir (fun t => { t with resend := none, backSeq := some (u32 from_) })
      (t.unacked.filter (fun g => decide (0 ≤ i32diff (rSn g) from_))).foldl (fun s g => s.emit t.dst 3 (fResend g)) s1

/-- An RNACK of a DATA frame that passes, by REASON (R117, R199, R200). -/
def State.rnackGo (s : State) (f : Frame) : State :=
  match s.ringStream f with
  | none => s
  | some (slot, t) =>
    if !t.unacked.any (fun g => rSn g == rSn f) then s
    else match rCode f with
      | 3 => (s.stick (fCtx f) 0x524 1).ringTell slot eStranger
      | 4 => s.ringTell slot ePeerVersion
      | k =>
        if k = 1 ∨ k = 2 ∨ k = 6 ∨ k = 7 then
          let slow := decide (k ≤ 2)
          let r := if k = 6 then f.w 10 else rSn f
          let s0 := s.updRing slot (fun r =>
            { r with notrdy := r.notrdy.filter (fun d => d != t.dst) ++ (if k = 1 then [t.dst] else []) })
          match nackAct t.backoff t.backSeq t.resend (rSn f) r slow with
          | .covered => s0
          | .wait us => s0.updRingTx slot t.dst t.dir (fun t => { t with backoff := us, resend := some (u32 r), backSeq := none })
          | .now => s0.ringResendFrom slot t r
        else s.sysCount 4

/-- An RNACK at this chip. -/
def State.rnackTake (s : State) (f : Frame) : State := (s.ringAnsGate f).getD (s.rnackGo f)

/-- RNACK_RX. -/
def execRnackRx (p : Nat) (f : Frame) (s : State) : Host.Outcome State Fault Refusal :=
  .next (s.ringRx p 3 f (fun s => s.rnackTake f))

-- REPORT and DECIDE

/-- Is this chip the leader of a group: its first member (R177)? -/
def State.leads? (s : State) (c gid : Nat) : Bool := (s.groupMembers c gid).head? == some s.chip

/-- Group and sequence number of a collective. -/
def Cmd.collName (c : Cmd) : Nat × U32 :=
  if c.op = 0x3D then (fld (c.s 2) 15 0, u32 (c.s 3)) else (fld (c.s 1) 15 0, u32 (c.s 2))

/-- A collective that waits to start and matches a held decision without a rerun faults at once (R195). -/
def State.abortWaiting (s : State) : State :=
  (List.range 64).foldl (fun s q => match s.startable q with
    | some c => if c.sharedUnit = 2 ∧ (s.findCmd q c.idx).elim false (fun d => d.ready)
          ∧ s.abortsNow (s.owner q) c.collName.1 c.collName.2 then s.startNow q c else s
    | none => s) s

/-- A REPORT at this chip (R193, R195, R200). -/
def State.reportTake (s : State) (f : Frame) : State :=
  let c := fCtx f
  let gid := rGid f
  let slot := s.ringAt c gid (rSeq f)
  let s1 := s.ringAnswer f 2 0 0 0
  let lower := slot.elim false (fun p => decide (rAtt f < p.2.attempt))
  let agrees := slot.elim true (fun p => s.ringCtlAgrees p.2 f || decide (p.2.attempt < rAtt f))
  if lower then s.ctxCount c 7 1
  else if !s.leads? c gid ∨ !agrees then match slot with
    | some (i, _) => s1.ringMismatch i f
    | none => s1.ctxCount c 11 1
  else if !ringCodeOk f then s1.ctxCount c 11 1
  else
    let t := s1.leaderTake c gid (rSeq f) (rAtt f) (rRetry f) (rOp f) (rCode f) (fSrc f)
    match t.1 with
    | none => t.2
    | some d => match slot with
      | some (i, r) => if r.attempt = rAtt f then t.2.ringDecide i d.1 d.2 else t.2
      | none => if d.1 = 0 then t.2
          else (t.2.abortPut
            { ctx := c, gid := gid, gseq := rSeq f, attempt := rAtt f, code := d.1, rerun := d.2 }).abortWaiting

/-- REPORT_RX. -/
def execReportRx (p : Nat) (f : Frame) (s : State) : Host.Outcome State Fault Refusal :=
  .next (s.ringRx p 4 f (fun s => s.reportTake f))

/-- Remember that the DECIDE of an attempt has been taken (R199). -/
def State.decideSeen (s : State) (c gid : Nat) (gseq : U32) (att : Nat) : State :=
  { s with leads := s.leads ++ [{ ctx := c, gid := gid, gseq := gseq, attempt := att, decided := true }] }

/-- A DECIDE at a member (R195, R196, R200): only the first copy of an attempt's acts. One for an attempt that the slot
has not reached is left unanswered (log entry 44). -/
def State.decideTake (s : State) (f : Frame) : State :=
  let c := fCtx f
  let gid := rGid f
  let rerun := bitOf (f.w 9) 8
  let s1 := s.ringAnswer f 2 0 0 0
  match s.ringAt c gid (rSeq f) with
  | some (i, r) =>
    if rAtt f < r.attempt then s.ctxCount c 7 1
    else if r.attempt < rAtt f then s
    else if !s.ringCtlAgrees r f then s1.ringMismatch i f
    else if !ringCodeOk f then s1.ctxCount c 11 1
    else if r.decided.isSome then s1
    else (s1.decideSeen c gid (rSeq f) (rAtt f)).ringDecide i (rCode f) rerun
  | none =>
    if !ringCodeOk f then s1.ctxCount c 11 1
    else if rCode f = 0 ∨ (s.findLead c gid (rSeq f) (rAtt f)).elim false (fun l => l.decided) then s1
    else ((s1.decideSeen c gid (rSeq f) (rAtt f)).abortPut
      { ctx := c, gid := gid, gseq := rSeq f, attempt := rAtt f, code := rCode f, rerun := rerun }).abortWaiting

/-- DECIDE_RX. -/
def execDecideRx (p : Nat) (f : Frame) (s : State) : Host.Outcome State Fault Refusal :=
  .next (s.ringRx p 5 f (fun s => s.decideTake f))

-- timers

/-- RING_RESEND: 100 µs without a RACK, or a back-off that ends (R199). -/
def execRingResend (c gid : Nat) (gseq : U32) (dst : Nat) (s : State) : Host.Outcome State Fault Refusal :=
  .next (if !s.live ∨ !s.refclk then s
    else
      let ks := s.ringCtl.filter (fun k => k.ctx == c && k.gid == gid && k.gseq == gseq && k.dst == dst)
      let s1 := ks.foldl (fun s k => s.emit dst 3 (fResend k.f)) s
      match s1.ringAt c gid gseq with
      | none => s1
      | some (slot, r) => (r.tx.filter (fun t => t.dst == dst)).foldl (fun s t => match t.resend, t.unacked with
          | some q, _ => s.ringResendFrom slot t q.toNat
          | none, o :: _ => s.ringResendFrom slot t (rSn o)
          | none, [] => s) s1)

/-- COLLECTIVE_TIMEOUT (R194). -/
def execCollectiveTimeout (slot : Nat) (s : State) : Host.Outcome State Fault Refusal :=
  .next (match s.findRing slot with
    | some r =>
      if s.live ∧ s.refclk ∧ r.reported.isNone then
        s.ringTell slot (if s.slotWaiters = 0 then eTimeout else eOrderSuspect)
      else s
    | none => s)

/-- DECIDE_TIMEOUT (R194). -/
def execDecideTimeout (slot : Nat) (s : State) : Host.Outcome State Fault Refusal :=
  .next (match s.findRing slot with
    | some r =>
      if s.live ∧ s.refclk ∧ r.reported.isSome ∧ r.decided.isNone then
        (s.updRing slot (fun r => { r with reported := some eTimeout })).ringFault slot r { flt eTimeout 12 with inst := slot }
      else s
    | none => s)

end Sys2Proof.Machine
end

