-- ==== Sys2Proof/Machine/Respond.lean ====
section
/-! DEFINITION. Responses on the memory ports (R51, R112, R265, R269, R317, R318, R351, R353), and the Piers' link
state and credits (R106, R319, R321). -/
namespace Sys2Proof.Machine

/-- Fault code of a status that is not OK. -/
def MemStatus.code : Sys2Proof.MemStatus → Nat
  | .uncorr => eUncorrectable
  | _ => eMemDecode

/-- The fault of a transfer that a command issued, with its address in DETAIL, and its port (R351, R353, R354). -/
def memFlt (st : Sys2Proof.MemStatus) (unit a port : Nat) : Flt :=
  { flt (MemStatus.code st) unit with lo := a % 2 ^ 32, hi := a / 2 ^ 32, inst := port }

/-- A transfer of a command that a teardown or a fault has abandoned failed: a contained error of its context, which joins the
teardown (R288, R357). -/
def State.goneMemErr (s : State) (q : Nat) (idx : U32) (a : Nat) (st : Sys2Proof.MemStatus) : State :=
  let own := s.owner q
  match (s.queue q).gone.find? (fun x => x.1 == idx) with
  | some x => if own = 16 ∨ 2 ≤ s.rf (kctx own + 4) 1 0 then
      s.ctxError own { code := MemStatus.code st, unit := unitOf x.2, q := q, qidx := idx.toNat, lo := a % 2 ^ 32, hi := a / 2 ^ 32,
                       inst := s.memPort own a }
    else s
  | none => s

/-- Is a command in its queue, or remembered as abandoned? -/
def State.knows (s : State) (q : Nat) (idx : U32) : Bool :=
  (s.findCmd q idx).isSome || (s.queue q).gone.any (fun x => x.1 == idx)

/-- A transfer of a command failed: the command faults, also before its start, on a waited counter or an indirect word
(R39, R351, R353); uncorrectable data of a bound collective is reported instead (R196). -/
def State.cmdMemErr (s : State) (q : Nat) (idx : U32) (a : Nat) (st : Sys2Proof.MemStatus) : State :=
  match s.findCmd q idx with
  | none => s.goneMemErr q idx a st
  | some c => match s.ringOf q idx with
    | some (slot, r) =>
      let f := memFlt st (unitOf c.op) a (s.memPort (s.owner q) a)
      if st = .uncorr then s.ringUnc slot f else s.ringFault slot r f
    | none => s.fault q idx c.op (memFlt st (unitOf c.op) a (s.memPort (s.owner q) a))

/-- The fetch of a command slot failed: that command faults before its decode (R51, R351, R353). -/
def State.slotMemErr (s : State) (q : Nat) (st : Sys2Proof.MemStatus) : State :=
  let x := s.queue q
  if !s.serves q ∨ x.killing ∨ i32diff (s.reg (kq q + 0x14)) x.dec.toNat ≤ 0 then s
  else
    let c : Cmd := { idx := x.dec }
    let a := s.lpair (kq q) + 64 * (x.dec.toNat % s.qSize q)
    (s.setQueue q { x with dec := x.dec + 1, cmds := x.cmds ++ [c] }).fault q x.dec 0 (memFlt st 1 a (s.memPort (s.owner q) a))

/-- The bytes of a write's transfer are undefined after UNCORR: its line of 256 bytes (R317). -/
def State.spoil (s : State) (a : Nat) (st : Sys2Proof.MemStatus) : State :=
  if st = .uncorr then s.scramble [(a / 256 * 256, 256)] else s

/-- Address of the last record written to event queue e. -/
def State.lastRec (s : State) (e : Nat) : Nat :=
  s.rpair 0x90000 + s.reg (kevq e) + 16 * ((s.reg (kevq e + 0xC) + 2 ^ 32 - 1) % 2 ^ s.rf (kevq e + 4) 4 0)

/-- A transfer of a control structure of context c failed (R353). -/
def State.controlMemErr (s : State) (c a : Nat) (st : Sys2Proof.MemStatus) : State :=
  s.ctxError c { code := MemStatus.code st, unit := 0x13, lo := a % 2 ^ 32, hi := a / 2 ^ 32, inst := s.memPort c a }

/-- A transfer of Caisson metadata or of an event ring failed: fatal (R265, R353). -/
def State.fatalMemErr (s : State) (unit a : Nat) : State :=
  s.fatal { unit := unit, lo := a % 2 ^ 32, hi := a / 2 ^ 32, inst := s.memPort 16 a } false

/-- The load of the microcode fails with an ERR (R341). -/
def State.bootFail (s : State) (e : Nat) : State :=
  let s1 := s.setRf 0x200 3 0 7
  if s1.rf 0x200 15 8 = 0 then s1.setRf 0x200 15 8 e else s1

/-- A fetch of the microcode fails (R341). -/
def State.bootMemErr (s : State) (st : Sys2Proof.MemStatus) : State :=
  if s.rf 0x200 3 0 = 3 then s.bootFail (if st = .uncorr then 5 else 4) else s

-- landings

/-- Complete an accepted reclaim of a context with no landing left; DONE says so of the last one to complete (R273). -/
def State.reclaimNow (s : State) (c : Nat) : State :=
  let go (s : State) (p : Nat) : State := (List.range (s.poolCount p)).foldl (fun s i =>
    let w := s.bufWord p i
    if fld w 19 16 = c ∧ !bitOf w 20 ∧ !bitOf w 22 ∧ (fld w 7 0 ≠ 0 ∨ bitOf w 21) then
      (s.setBufWord p i (putFld (putFld w 7 0 0) 21 21 0)).releaseBuf p i
    else s) s
  let s1 := (List.range 8).foldl go { s with reclaims := s.reclaims.filter (fun x => x != c) }
  s1.setRbit 0xA0400 30 true

/-- What waits for the end of the landings of a context: its teardown (R286), its reclaim (R273). -/
def State.landingsOver (s : State) (c : Nat) : State :=
  if s.landings.any (fun l => l.ctx == c) then s
  else
    let s1 := if c < 16 ∧ s.rf (kctx c + 4) 1 0 = 2 then s.tdnFinish c else s
    if s1.reclaims.contains c then s1.reclaimNow c else s1

/-- Is landing m, of the same stream as landing l, older? Its answer's SEQ comes before. -/
def Landing.before (m l : Landing) : Bool :=
  decide (m.n < l.n) && m.ctx == l.ctx && (match m.ack, l.ack with
    | some a, some b => a.1 == b.1 && fVer b.2 == 2 && fld (a.2.w 8) 2 0 == fld (b.2.w 8) 2 0
    | _, _ => false)

/-- A landing has ended: its answer leaves, or joins that of an older landing of its stream that goes on (R115); ready
counts follow (R141), and held buffers return (R269). -/
def State.landed (s : State) (l : Landing) : State :=
  let rest := s.landings.filter (fun m => m.n != l.n)
  let older := rest.filter (fun m => m.before l)
  let s1 : State := match older.getLast?, l.ack with
    | some m, _ => { s with landings := rest.map (fun x => if x.n = m.n then { x with ack := l.ack } else x) }
    | none, some (d, f) =>
      let s2 : State := { s with landings := rest }
      s2.answer d f
    | none, none => { s with landings := rest }
  ((l.spans.foldl (fun s a => s.releaseHeld a.1) s1).readyAll l.ctx).landingsOver l.ctx

/-- A landing's write failed: its context is in error, and its bytes are undefined after UNCORR (R317, R353; log entry
46). No answer leaves. -/
def State.landingErr (s : State) (l : Landing) (st : Sys2Proof.MemStatus) : State :=
  let s1 : State := { s with landings := s.landings.filter (fun m => m.n != l.n) }
  let s2 := if st = .uncorr then s1.scramble l.spans else s1
  let a := (l.spans.map (fun x => x.1)).getD 0 0
  let s3 := l.spans.foldl (fun s a => s.releaseHeld a.1) s2
  (s3.ctxError l.ctx { code := MemStatus.code st, unit := 9, lo := a % 2 ^ 32, hi := a / 2 ^ 32, inst := s.memPort l.ctx a }).landingsOver l.ctx

-- the rows

/-- MEMORY_READ_RESPONSE. Data is taken at the step that reads it; of an OK response the block only receives the words
(array 0x0B, R363), but the isolation wrapper waits for it (R338). -/
def execMemoryReadResponse (t : MemTarget) (st : Sys2Proof.MemStatus) (s : State) : Host.Outcome State Fault Refusal :=
  .next (if s.rst.iso then (match t with
      | .landing _ => s
      | .forgotten => s
      | _ => s.isoTag)
    else
      let s0 := s.arrayWrite 0xB
      if st = .ok then s0
      else match t with
        | .microcode => s0.bootMemErr st
        | .command q i a => if s.live then s0.cmdMemErr q i a st else s0
        | .slotFetch q => s0.slotMemErr q st
        | .control c a => if s.live ∧ c ≤ 16 then s0.controlMemErr c a st else s0
        | .caisson a => if s.live then s0.fatalMemErr 0x10 a else s0
        | .landing _ => s0
        | .eventRing _ => s0
        | .forgotten => s0)

/-- MEMORY_WRITE_ACK. -/
def execMemoryWriteAck (t : MemTarget) (st : Sys2Proof.MemStatus) (s : State) : Host.Outcome State Fault Refusal :=
  .next (if s.rst.iso then (match t with
      | .landing n =>
        let mine := s.landings.filter (fun l => l.n == n)
        let s1 : State := { s with landings := s.landings.filter (fun l => l.n != n) }
        (if st = .uncorr then s1.scramble (mine.flatMap (fun l => l.spans)) else s1).isoDone
      | .forgotten => s
      | _ => s.isoTag)
    else if !s.live then s
    else
      let s0 := s.arrayWrite 0xB
      match t with
      | .landing n => match s.landings.find? (fun l => l.n == n) with
        | some l => if st = .ok then s0.landed l else s0.landingErr l st
        | none => s0
      | .command q i a => if st = .ok ∨ !s.knows q i then s0 else (s0.spoil a st).cmdMemErr q i a st
      | .control c a => if st = .ok ∨ 16 < c then s0 else (s0.spoil a st).controlMemErr c a st
      | .eventRing e => if st = .ok ∨ 16 < e then s0 else (s0.spoil (s.lastRec e) st).fatalMemErr 0x0F (s.lastRec e)
      | .caisson a => if st = .ok then s0 else (s0.spoil a st).fatalMemErr 0x10 a
      | .slotFetch _ => s0
      | .microcode => s0
      | .forgotten => s0)

-- Piers

/-- Frames that wait go to the Piers that the live links now give (R106). -/
def State.rerouted (s : State) : State :=
  let dst (vc : Nat) (f : Frame) : Nat := if vc = 3 ∨ vc = 5 then fld (f.w 2) 27 16 else fDst f
  let s1 : State := { s with
    net := { s.net with queued := s.net.queued.map (fun x => (s.pierFor (dst x.2.1 x.2.2), x.2.1, x.2.2)) } }
  s1.pump

/-- PIER_LINK_CHANGE (R106, R321). What was in flight is resent under R117. -/
def execPierLinkChange (p : Nat) (up : Bool) (s : State) : Host.Outcome State Fault Refusal :=
  .next (if !s.part.pier p ∨ (s.rst.rel ≤ 4 ∧ s.rst.level ≠ some .core) ∨ s.rbit (0x40004 + 0x40 * p) 0 = up then s
    else ((s.setRbit (0x40004 + 0x40 * p) 0 up).postSys 5 p (b2n up)).rerouted)

/-- PIER_CREDIT: the router grants n flits of a VC (R319). -/
def execPierCredit (p vc n : Nat) (s : State) : Host.Outcome State Fault Refusal :=
  .next (if !s.live ∨ !s.part.pier p ∨ 7 < vc then s
    else
      let s1 : State := { s with
        net := { s.net with credit := FMap.set 0 s.net.credit (8 * p + vc) (FMap.get 0 s.net.credit (8 * p + vc) + n) } }
      s1.pump)

end Sys2Proof.Machine
end

