-- ==== Sys2Proof/Machine/Boot.lean ====
section
/-! DEFINITION. Release and bring-up (R334 to R337, R342), the microcode boot (R339 to R341), and the clocks (R326, R327). -/
namespace Sys2Proof.Machine

/-- RESET_DEASSERT: the filtered reset line rises. -/
def execResetDeassert (s : State) : Host.Outcome State Fault Refusal :=
  .next (if s.rst.low then { s with rst := { s.rst with low := false } } else s)

/-- All domains are released: the boot begins by its strap; after a core reset the store is kept (R333, R340, R341). -/
def State.bootBegin (s : State) : State :=
  if s.rst.level = some .core then s.setRf 0x200 3 0 5
  else
    let b := s.rst.straps.boot.toNat
    let s1 : State := { s with boot := { s.boot with src := b } }
    s1.setRf 0x200 3 0 (if b = 3 then 3 else if b = 0 then 1 else 2)

/-- DOMAIN_RELEASE: one gap of the sequencer passes (R335, R336); with KSTRAP_TIMING 0b00 only domains 0 and 1 are
released (R334). -/
def execDomainRelease (s : State) : Host.Outcome State Fault Refusal :=
  .next (if s.rst.low ∨ s.rst.iso ∨ s.rst.level.isNone ∨ 12 ≤ s.rst.rel ∨ (!s.rbit 0x100 15 ∧ !s.refclk)
      ∨ (s.rbit 0x100 10 ∧ 2 ≤ s.rst.rel) then s
    else
      let n := s.rst.rel + 1
      let s1 : State := { s with rst := { s.rst with rel := n } }
      if s.rbit 0x100 10 ∧ n = 2 then s1.bootFail 7
      else if n = 12 then s1.bootBegin
      else s1)

/-- ARRAY_INIT_DONE: the internal arrays hold valid codewords (R342 step 5). -/
def execArrayInitDone (s : State) : Host.Outcome State Fault Refusal :=
  .next (if s.rst.rel = 12 ∧ !s.rst.low ∧ s.refclk ∧ s.rst.level.isSome then
      { s with rst := { s.rst with arrays := true } } else s)

-- KBOOT_CTL and KBOOT_DATA

/-- ERR 0x08: the first fault stands (R341). -/
def State.bootErr8 (s : State) : State := if s.rf 0x200 15 8 = 0 then s.setRf 0x200 15 8 8 else s

/-- A write of KBOOT_CTL (R340, R341, R345). REJECT stands before ACCEPT; a GO sets ERR 0x08 in LOADED, also beside one
of them. A GO that starts a load takes KBOOT_ADDR as it stands (R389). -/
def State.writeBootCtl (s : State) (w : Nat) : State :=
  let s1 := s.setRf 0x204 4 3 (fld w 4 3)
  let st := s1.rf 0x200 3 0
  if st = 4 then
    let s2 := if bitOf w 2 then s1.bootFail 6 else if bitOf w 1 then s1.setRf 0x200 3 0 5 else s1
    if bitOf w 0 then s2.bootErr8 else s2
  else if !bitOf w 0 then s1
  else if st = 2 then (if s1.boot.src = 2 then (s1.latch 0x208).setRf 0x200 3 0 3 else s1)
  else if st = 1 then
    let src := fld w 4 3
    if src = 0 then s1
    else
      let s2 : State := { s1 with boot := { s1.boot with src := src } }
      (s2.latch 0x208).setRf 0x200 3 0 (if src = 1 then 2 else 3)
  else s1.bootErr8

/-- Length that the first words of an image give. -/
def imgLen (im : List Byte) : Nat := leNat (im.take 4)

/-- A write of KBOOT_DATA (R340, R341): the next word on the debug path; after the load has ended, from whatever source,
ERR 0x08 and nothing else. -/
def State.writeBootData (s : State) (w : Nat) : State :=
  let st := s.rf 0x200 3 0
  if st = 2 ∧ s.boot.src = 1 then
    if 4 ≤ s.boot.dbg.length ∧ imgLen s.boot.dbg ≤ s.boot.dbg.length then s.bootErr8
    else { s with boot := { s.boot with dbg := s.boot.dbg ++ natLe 4 w } }
  else if 4 ≤ st then s.bootErr8
  else s

/-- BOOT_GO. -/
def execBootGo (w : U32) (priv : Bool) (s : State) : Host.Outcome State Fault Refusal :=
  .next (s.ctlWrite 0x204 priv (fun s => s.writeBootCtl w.toNat))
/-- BOOT_DATA. -/
def execBootData (w : U32) (priv : Bool) (s : State) : Host.Outcome State Fault Refusal :=
  .next (s.ctlWrite 0x210 priv (fun s => s.writeBootData w.toNat))
/-- BOOT_ACCEPT. -/
def execBootAccept (w : U32) (priv : Bool) (s : State) : Host.Outcome State Fault Refusal :=
  .next (s.ctlWrite 0x204 priv (fun s => s.writeBootCtl w.toNat))
/-- BOOT_REJECT. -/
def execBootReject (w : U32) (priv : Bool) (s : State) : Host.Outcome State Fault Refusal :=
  .next (s.ctlWrite 0x204 priv (fun s => s.writeBootCtl w.toNat))

-- the load

/-- First failing load check of an image: ERR, or 0 (R339, R341). -/
def State.imgCheck (s : State) (im : List Byte) : Nat :=
  let w i := leNat ((im.drop (4 * i)).take 4)
  let n := imgLen im
  if n < 4096 ∨ 8388608 < n ∨ n % 256 ≠ 0 ∨ n < w 3 + 154624 then 1
  else if s.part.stepping < fld (w 2) 5 0 ∨ fld (w 2) 13 8 < s.part.stepping then 2
  else if fld (w 1) 31 16 ≠ 0 ∨ fld (w 2) 7 6 ≠ 0 ∨ fld (w 2) 31 14 ≠ 0 ∨ !(List.range 12).all (fun i => w (4 + i) == 0)
  then 3 else 0

/-- The bytes being loaded: the boot-ROM window's (an operand), the device-memory image, or the debug words. -/
def State.imgOf (s : State) (rom : List Byte) : List Byte :=
  match s.boot.src with
  | 1 => s.boot.dbg
  | 2 => s.rd (s.lpair 0x208) (min 8388608 (max 64 (s.rd32 (s.lpair 0x208))))
  | _ => rom

/-- Has the loader all the bytes that it takes? -/
def State.imgHere (s : State) (im : List Byte) : Bool :=
  (s.rf 0x200 3 0 == 3 || (s.rf 0x200 3 0 == 2 && s.boot.src == 1)) && decide (4 ≤ im.length)
    && (decide (imgLen im ≤ im.length) || (decide (64 ≤ im.length) && s.imgCheck im == 1))

/-- MICROCODE_LOADED: the image has been fetched and hashed (R339 to R341). -/
def execMicrocodeLoaded (rom : List Byte) (s : State) : Host.Outcome State Fault Refusal :=
  .next (
    let im := s.imgOf rom
    if s.rst.low ∨ !s.refclk ∨ !s.rst.arrays ∨ !s.imgHere im then s
    else match s.imgCheck im with
      | 0 =>
        let b := im.take (imgLen im)
        let d := sha256 b
        let s1 := ({ s with boot := { s.boot with store := b, dbg := [] } } : State).arrayWrite 7
        (s1.setRegs 0x220 ((List.range 8).map (fun i => leNat ((d.drop (4 * i)).take 4)))).setRf 0x200 3 0 4
      | e => s.bootFail e)

-- ready

/-- Rebuild a pool's free stack after a core reset that met KFEED_STATUS.FAIL (R273): the free buffer of lowest index is
on top. -/
def State.rebuildPool (s : State) (p : Nat) : State :=
  let n := s.poolCount p
  let free := (List.range n).filter (fun i => !bitOf (s.bufWord p i) 22)
  let s1 := free.foldl (fun s i => s.setBufWord p i (putFld (putFld (s.bufWord p i) 7 0 0) 21 21 0)) s
  let s2 := (List.range free.length).foldl (fun s k =>
    s.wr32 (s.poolMeta p + 4 * n + 4 * k) (free.getD (free.length - 1 - k) 0)) s1
  s2.setReg (kcas p + 0x18) free.length

/-- Records staged when a system or core reset was taken leave once the block has posted ready, if EN is still 1; else they are
dropped (R376). -/
def State.stagedTrace (s : State) : State :=
  if s.rbit 0x1A040 0 then s.rerouted
  else { s with net := { s.net with queued := s.net.queued.filter (fun x => !isTrace x) } }

/-- POST_READY (R2, R247, R341): the built-in FU image is live in bank 0, and the block is ready. -/
def execPostReady (s : State) : Host.Outcome State Fault Refusal :=
  .next (if s.rf 0x200 3 0 ≠ 5 ∨ s.rst.low ∨ s.rst.level.isNone ∨ s.rst.rel ≠ 12 ∨ !s.rst.arrays ∨ !s.refclk then s
    else
      let im := s.boot.store
      let ofs := leNat ((im.drop 12).take 4)
      let s1 := if s.rst.level = some .core ∧ s.rbit 0x10004 1 then (List.range 8).foldl (fun s p => s.rebuildPool p) s else s
      let s2 : State := { s1 with
        fu := { bank0 := builtinBank ((im.drop ofs).take 154624), image := builtinBank ((im.drop ofs).take 154624) }
        rst := { s1.rst with level := none, posted := true } }
      let s3 := (((s2.setReg 0x80000 0).setReg 0x80004 1).setRf 0x50004 15 0 (leNat ((im.drop 4).take 2))).setRf 0x200 4 0 0x16
      s3.stagedTrace.postSys 6 s3.kdprofHi s3.kdprofLo)

-- clocks

/-- REFCLK_STOP: KREFCLK stops; timers stop (R326). -/
def execRefclkStop (s : State) : Host.Outcome State Fault Refusal := .next { s with refclk := false }

/-- REFCLK_RETURN: KPACE.REFLOST is set (R326). -/
def execRefclkReturn (s : State) : Host.Outcome State Fault Refusal :=
  .next (if s.refclk then s
    else
      let s1 : State := { s with refclk := true }
      s1.setRbit 0x10008 27 true)

/-- A write of KPACE: BPW 0 is ignored; SLIP and REFLOST are W1C (R327, R329). -/
def State.writePace (s : State) (w : Nat) : State :=
  let o := s.reg 0x10008
  let b := if fld w 10 0 = 0 then fld o 10 0 else fld w 10 0
  let c (i : Nat) : Nat := if bitOf w i then 0 else fld o i i * 2 ^ i
  s.setReg 0x10008 (b + c 27 + c 28 + fld o 30 29 * 2 ^ 29 + fld w 31 31 * 2 ^ 31)

/-- PACE_WRITE. -/
def execPaceWrite (w : U32) (priv : Bool) (s : State) : Host.Outcome State Fault Refusal :=
  .next (s.ctlWrite 0x10008 priv (fun s => s.writePace w.toNat))

/-- PACE_WINDOW: a window of 64 KREFCLK cycles ends with so many beats delivered; EN and BPW as written take effect
(R327). -/
def execPaceWindow (beats : Nat) (s : State) : Host.Outcome State Fault Refusal :=
  .next (if !s.refclk ∨ s.rst.low then s
    else
      let test := s.rf 0x10008 30 29 == 1
      let s1 := if s.pace.en ∧ !test ∧ beats < s.pace.bpw then (s.satAdd 0x1000C 1).setRbit 0x10008 28 true else s
      { s1 with pace := { en := s1.rbit 0x10008 31, bpw := s1.rf 0x10008 10 0 } })

end Sys2Proof.Machine
end

