-- ==== Sys2Proof/Machine/View.lean ====
section
/-! DEFINITION. What a register word reads as (R9, R282, R384 to R388): stored words, and the words that the device
computes: capabilities, profile, counters, the log, ring slots, wait states (R380) and the aliases. -/
namespace Sys2Proof.Machine

/-- KCAP0 (R386). -/
def State.kcap0 (s : State) : Nat :=
  let p := s.part
  if !s.rst.posted then 0
  else 16 * 2 ^ 24 + (if p.trestle then 8 else 0) * 2 ^ 20 + 8 * 2 ^ 16 + p.cores * 2 ^ 8
    + ((List.range 4).map (fun i => if p.pier i then 2 ^ (4 + i) else 0)).sum + p.pipes.length

/-- KCAP1 (R387). -/
def State.kcap1 (s : State) : Nat :=
  let p := s.part
  if !s.rst.posted then 0
  else 0x12120200 + b2n p.digest * 2 ^ 14 + b2n p.ledger * 2 ^ 13 + b2n p.trestle * 2 ^ 12

/-- A word of a 48-bit counter: LO, or HI as last latched by a read of LO (R282). -/
def State.cntWord (s : State) (lo : Nat) (hi : Bool) : Nat :=
  if hi then
    (match s.hiLatch.find? (fun p => p.1 == lo) with
      | some p => p.2.toNat
      | none => s.cnt lo / 2 ^ 32)
  else s.cnt lo % 2 ^ 32

/-- Both words of n counters from an offset. -/
def State.cntWords (s : State) (off n : Nat) : List Nat :=
  (List.range n).flatMap (fun k => [s.cnt (off + 8 * k) % 2 ^ 32, s.cnt (off + 8 * k) / 2 ^ 32])

-- wait states

/-- A front or head (R380): KIND, OPCODE, the queue index, ID, PEER, TARGET. -/
structure Waits where
  kind   : Nat := 0
  op     : Nat := 0
  idx    : Nat := 0
  id     : Nat := 0
  peer   : Nat := 0
  target : Nat := 0
  deriving DecidableEq, Repr

/-- Slot of an exchange of context c: its place among those bound; of slots that are all bound, any (R380; log entry 8). -/
def State.exchSlot (s : State) (c gen xid : Nat) : Nat :=
  match (s.exch.filter (fun e => e.ctx == c)).findIdx? (fun e => e.gen == gen && e.xid == xid) with
  | some i => i
  | none => Config.freePick s.free % 8

/-- GOT or Bay that a FEED_ARM waits for (R139, R380): its own GOT's handle, or the local slot of the first Bay that
another holds. -/
def State.feedHeldId (s : State) (own q : Nat) (c : Cmd) : Nat :=
  let d := s.dsc own c 1
  let others := s.started.filter (fun p => p.2.op == 0x29 && !(p.1 == q && p.2.idx == c.idx))
  if others.any (fun p => (s.dsc (s.owner p.1) p.2 1).base == d.base) then c.h 1
  else ((s.gotSlots d).find? (fun x => others.any (fun p => s.owner p.1 == own
    && (s.gotSlots (s.dsc own p.2 1)).contains x))).getD 0

/-- The stream, slot, table bank, GOT or Bay that a command waits for (R380 KIND 0x8). Which it is of several alike the
spec leaves open, and the number that stands for each (DESIGN CHOICE, log entry 8). -/
def State.heldId (s : State) (own q : Nat) (c : Cmd) : Nat :=
  match c.op with
  | 0x05 => Config.freePick s.free % 4
  | 0x10 => if c.lmode ≠ 2 then c.s 6 else 0
  | 0x15 => s.exchSlot own c.gen c.xid
  | 0x20 => s.exchSlot own c.gen c.xid
  | 0x21 => s.exchSlot own c.gen c.xid
  | 0x29 => s.feedHeldId own q c
  | 0x3C => (s.accumSlot own c).getD 0
  | 0x3D => (((s.camberSlots own c).find? (fun p => s.camberWaits p.1)).map (fun p => p.1)).getD 0
  | 0x4A => (s.layerSlot own (c.s 1)).getD 0
  | 0x4C => 1 - s.fuLive
  | _ => 0

/-- The chip whose slab a started BARRIER or COUNT_XCHG waits for, with its slot (R165, R171, R380). -/
def State.meetPeer (s : State) (own q : Nat) (c : Cmd) : Nat × Nat :=
  if c.op = 0x05 then
    let bs := s.barriers.filter (fun b => b.ctx == own)
    match bs.find? (fun b => b.q == q && b.idx == c.idx) with
    | some b => ((bs.findIdx? (fun x => x == b)).getD 0, if b.coord ≠ s.chip then b.coord
        else (b.members.find? (fun m => !b.arrived.contains m)).getD 0)
    | none => (0, 0)
  else
    (s.exchSlot own c.gen c.xid, match s.findExch own c.gen c.xid with
      | some e => ((s.readXb (s.dsc own c 3)).members.find? (fun m => !e.ph1.any (fun p => p.src == m))).getD 0
      | none => 0)

/-- What the command that keeps queue q from starting its next command waits on (R380). -/
def State.front (s : State) (q : Nat) : Waits :=
  let x := s.queue q
  let own := s.owner q
  match x.cmds.find? (fun c => c.phase == .waiting && c.skip == .run) with
  | none => {}
  | some c =>
    let b : Waits := { op := c.op, idx := c.idx.toNat }
    let unmet (i : Nat) : Bool := !c.ready && !waitMet (fld (c.w i) 21 20) (s.ctr own (fld (c.w i) 19 0)) (c.w (i + 1))
    let ring := (decide (0x38 ≤ c.op) && decide (c.op ≤ 0x3B)) || (c.op == 0x3D && c.camberRing)
    if s.rbit (kq q + 0xC) 2 ∨ !s.ctxRuns own then { b with kind := 0xF }
    else if unmet 2 then { b with kind := 2, id := fld (c.w 2) 19 0, target := c.w 3 }
    else if unmet 4 then { b with kind := 3, id := fld (c.w 4) 19 0, target := c.w 5 }
    else if x.fenced c then { b with kind := 4 }
    else if 8 ≤ x.inflight ∨ 256 ≤ s.started.length then { b with kind := 5 }
    else if ((c.op = 0x10 ∧ c.lmode ≠ 2) ∨ c.op = 0x29) ∧ !s.rbit 0x10000 4 then { b with kind := 0xA }
    else if s.regWait.any (fun r => r.ctx == own && (if r.job then c.op == 0x11 else r.q == q && r.idx == c.idx)) then
      { b with kind := 6 }
    else if ring ∧ 8 ≤ s.rings.length ∧ !(c.op = 0x3D ∧ (s.camberSlots own c).any (fun p => s.camberWaits p.1)) then
      { b with kind := 7, id := fld (c.w (if c.op = 0x3D then 10 else 9)) 15 0, target := c.w (if c.op = 0x3D then 11 else 10) }
    else if 0x40 ≤ c.op ∧ c.op ≤ 0x42 then { b with kind := 9 }
    else { b with kind := 8, id := s.heldId own q c }

/-- What the oldest started, uncommitted command of queue q waits on (R380). KIND 0xF of a held queue stands at both, as
its row says, though a started command runs on (DEDUCED, log entry 8). -/
def State.head (s : State) (q : Nat) : Waits :=
  let x := s.queue q
  match x.cmds.find? (fun c => c.live) with
  | none => {}
  | some c =>
    let b : Waits := { op := c.op, idx := c.idx.toNat, kind := 1 }
    let own := s.owner q
    let tx := s.tx.find? (fun t => (t.waiting ++ t.unacked).any (fun o => o.q == q && o.idx == c.idx))
    if s.rbit (kq q + 0xC) 2 ∨ !s.ctxRuns own then { b with kind := 0xF }
    else if c.phase = .complete then b
    else match s.ringOf q c.idx, tx with
      | some (slot, r), _ =>
        if r.reported.isSome ∧ r.decided.isNone then
          { b with kind := 0xC, id := slot, peer := r.members.getD 0 0, target := r.gseq.toNat }
        else { b with kind := 0xB, id := slot, peer := r.waits.headD 0, target := r.gseq.toNat }
      | none, some t => { b with kind := 0xB, peer := t.dst
                                 id := if c.op = 0x05 then (s.meetPeer own q c).1 else s.exchSlot own c.gen c.xid }
      | none, none =>
        if c.op = 0x29 ∧ s.feeds.any (fun f => f.q == q && f.idx == c.idx && !f.gate && !f.retSeen && f.ents.all (fun e => e.complete))
        then { b with kind := 0xD, id := s.exchSlot own c.gen c.xid }
        else if c.op = 0x49 then { b with kind := 0xE, id := c.h 0 }
        else if c.op = 0x22 then { b with kind := 0xE, id := fld (c.s 0) 15 0 }
        else if c.op = 0x05 ∨ c.op = 0x15 then
          { b with kind := 0xB, id := (s.meetPeer own q c).1, peer := (s.meetPeer own q c).2 }
        else b

/-- The four words of a front or head; k numbers the SINCE sample (log entry 8). -/
def State.waitWords (s : State) (k : Nat) (w : Waits) : List Nat :=
  [w.kind + w.op * 2 ^ 8 + w.idx % 2 ^ 16 * 2 ^ 16, w.id % 2 ^ 20 + w.peer % 2 ^ 12 * 2 ^ 20, w.target % 2 ^ 32,
    if w.kind = 0 then 0 else (Config.freeSince (s.free + k)).toNat]

/-- Word i of the wait state of queue q. -/
def State.waitView (s : State) (q i : Nat) : Nat :=
  if i < 4 then (s.waitWords (2 * q) (s.front q)).getD i 0 else (s.waitWords (2 * q + 1) (s.head q)).getD (i - 4) 0

-- words by offset

/-- KCTX_STATE (R301): REGIONS and LIVEJOB are counted. -/
def State.kctxState (s : State) (c : Nat) : Nat :=
  putFld (putFld (s.reg (kctx c + 4)) 15 8 (s.regions.filter (fun r => r.ctx == c)).length) 2 2
    (b2n (s.liveJob c))

/-- Word of an event queue's registers. -/
def State.evView (s : State) (e r : Nat) : Nat := s.reg (kevq e + r)

/-- A word of the window of context c, or of the system window (R385). -/
def State.windowView (s : State) (c r : Nat) : Nat :=
  if c = 16 ∧ !sysMapped r then 0
  else if r < 0x100 then 0
  else if 0xB00 ≤ r ∧ r < 0xB20 then s.evView c (r - 0xB00)
  else if (0xC00 ≤ r ∧ r < 0xC80) ∨ (0x1000 ≤ r ∧ r < 0x1200) then s.cntWord (win c + r / 8 * 8) (r % 8 == 4)
  else if r = 0xF00 then s.kcap0
  else if r = 0xF04 then s.kcap1
  else if r = 0xF08 then s.kdprofLo
  else if r = 0xF0C then s.kdprofHi
  else if r = 0xF10 then (if c = 16 then 0 else s.kctxState c)
  else if (r / 0x100 = 8 ∧ !s.part.trestle) ∨ (r / 0x100 = 0xD ∧ !s.part.ledger) then 0
  else s.reg (win c + r)

/-- A word of the block window (R384). -/
def State.blockView (s : State) (off : Nat) : Nat :=
  if absentPier s.part off then 0
  else if off = 0 then s.kcap0
  else if off = 4 then s.kcap1
  else if off = 0x1004 then putFld (s.reg off) 13 8 s.err.fifo.length
  else if 0x1040 ≤ off ∧ off < 0x1060 then (((s.err.fifo.getD 0 []).getD ((off - 0x1040) / 4) 0)).toNat
  else if off = 0x10004 then putFld (s.reg off) 0 0 (b2n (s.feeds.any (fun f => !f.ended)))
  else if (0x18000 ≤ off ∧ off < 0x19000) ∨ (0x1A800 ≤ off ∧ off < 0x1AA00) then s.cntWord (off / 8 * 8) (off % 8 == 4)
  else if 0x19000 ≤ off ∧ off < 0x19800 then s.waitView ((off - 0x19000) / 0x20) (off % 0x20 / 4)
  else if 0x20000 ≤ off ∧ off < 0x20800 ∧ off % 0x20 = 0x18 then
    putFld (s.reg off) 23 16 (s.queue ((off - 0x20000) / 0x20)).inflight
  else if 0x31000 ≤ off ∧ off < 0x31800 ∧ off % 8 = 4 then putFld (s.reg off) 2 2 (b2n (s.mapLoading ((off - 0x31000) / 8)))
  else if off = 0x50000 then s.kdprofLo
  else if off = 0x50004 then s.kdprofHi
  else if 0x60000 ≤ off ∧ off < 0x60180 then
    (if !s.part.trestle then 0
    else if off = 0x60000 then putFld (putFld (s.reg off) 15 8 s.slotWaiters) 3 0 s.rings.length
    else if 0x60100 ≤ off then s.slotWord ((off - 0x60100) / 0x10) (off % 0x10 / 4)
    else s.reg off)
  else if off = 0x80004 then
    putFld (putFld (s.reg off) 13 8 s.part.cores) 2 2 (b2n (s.anyStarted (fun _ c => c.op == 0x4C)))
  else if 0xB0000 ≤ off ∧ off < 0xB0400 ∧ off % 0x40 = 4 then s.kctxState ((off - 0xB0000) / 0x40)
  else s.reg off

/-- The word at an offset as it reads on the control port once the block has posted ready. -/
def State.view (s : State) (off : Nat) : Nat :=
  match windowOf off with
  | some (c, r) => s.windowView c r
  | none => s.blockView off

end Sys2Proof.Machine
end

