-- ==== Sys2Proof/Machine/Catwalk.lean ====
section
/-! DEFINITION. The Catwalk (16_catwalk): triggers and the freeze, Catwalk frames, the trace registers and the dump. -/
namespace Sys2Proof.Machine

/-- Is the block out of reset, dumping or halted though it may be? -/
def State.up (s : State) : Bool := s.rst.posted && !s.rst.low && s.rst.level.isNone

/-- Fire a trigger at its time (R369): the counters freeze, the fire is recorded, traced and posted; in freeze mode the
trace takes POST records more (R375). -/
def State.fireNow (s : State) (f : Fire) (late : Bool) : State :=
  let t := f.tfire.toNat
  let s1 : State := { s with ftime := if s.ftime.toNat < t then f.tfire else s.ftime, cw := { s.cw with fire := none } }
  let s2 := ((s1.setRbit 0x1A000 0 true).setRf 0x1A01C 28 0 (f.tid + f.src * 2 ^ 16 + b2n late * 2 ^ 28)).setRegs 0x1A020
    [t % 2 ^ 32, t / 2 ^ 32]
  let s3 := s2.traceRec 0x0B 16 0 [f.tid, t % 2 ^ 32, t / 2 ^ 32, f.src, b2n late]
  let n := s3.reg 0x1A044
  let s4 : State := if s3.rbit 0x1A040 0 ∧ s3.rbit 0x1A040 1 ∧ !s3.cw.stopped then
      { s3 with cw := { s3.cw with post := some n, stopped := n == 0 } } else s3
  let p := s4.readTime
  p.2.postSys 7 f.tid (p.1 % 2 ^ 32)

/-- TRIGGER_FIRE: fabric time reaches the pending TFIRE (R369). -/
def execTriggerFire (s : State) : Host.Outcome State Fault Refusal :=
  .next (match s.cw.fire with
    | some f => if s.up then s.fireNow f false else s
    | none => s)

-- frames

/-- May a Catwalk frame be taken (R371)? -/
def State.cwOk (s : State) (f : Frame) : Bool :=
  fVer f == 2 && decide (1 ≤ fKind f) && decide (fKind f ≤ 3) && f.w 1 == s.reg 0x1A004
    && (fKind f != 1 || s.rbit 0x1A040 3)

/-- A Catwalk frame of a kind arrives; a refused one is counted, and another kind is no event of this row. -/
def State.cwRx (s : State) (p kind : Nat) (f : Frame) (eff : State → State) : State :=
  if !s.pierUp p ∨ (!f.hdrBad ∧ s.cwOk f ∧ fKind f ≠ kind) then s
  else
    let s0 := s.chargeIn 16 f
    if f.hdrBad then s0.sysCount 0 else if !s0.cwOk f then s0.sysCount 8 else eff s0

/-- A TRIG: it is answered TACK; a duplicate changes nothing, and one that comes while the chip is frozen or a fire is
pending is ignored and counted (R369, R371). -/
def State.trigTake (s : State) (f : Frame) : State :=
  let src := fSrc f
  let tid := fld (f.w 3) 15 0
  let s1 := s.emit src 5 (s.cwFrame 3 src tid 0 0)
  if s1.cw.seen.contains (src, tid) then s1
  else
    let s2 : State := { s1 with cw := { s1.cw with seen := s1.cw.seen ++ [(src, tid)] } }
    if s2.rbit 0x1A000 0 ∨ s2.cw.fire.isSome then s2.sysCount 9
    else
      let t := f.w 4 + 2 ^ 32 * f.w 5
      let fr : Fire := { tid := tid, src := src, tfire := BitVec.ofNat 64 t }
      let r := s2.readTime
      if t ≤ r.1 then r.2.fireNow fr true
      else { r.2 with cw := { r.2.cw with fire := some fr } }

/-- TRIG_RX. -/
def execTrigRx (p : Nat) (f : Frame) (s : State) : Host.Outcome State Fault Refusal :=
  .next (s.cwRx p 2 f (fun s => s.trigTake f))

/-- TACK_RX: the TRIG is answered (R368). -/
def execTackRx (p : Nat) (f : Frame) (s : State) : Host.Outcome State Fault Refusal :=
  .next (s.cwRx p 3 f (fun s => { s with cw := { s.cw with
    trigs := s.cw.trigs.filter (fun t => !(t.dst == fSrc f && t.tid == fld (f.w 3) 15 0)) } }))

/-- TRIG_RESEND: 100 µs without a TACK; after eight resends the TRIG is given up (R368). -/
def execTrigResend (dst tid : Nat) (s : State) : Host.Outcome State Fault Refusal :=
  .next (match s.cw.trigs.find? (fun t => t.dst == dst && t.tid == tid) with
    | none => s
    | some t =>
      if !s.live ∨ !s.refclk then s
      else if t.tries < 8 then
        let up (x : Trig) : Trig := if x.dst = dst ∧ x.tid = tid then { x with tries := x.tries + 1 } else x
        let s1 : State := { s with cw := { s.cw with trigs := s.cw.trigs.map up } }
        s1.emit dst 5 t.f
      else
        let s1 : State := { s with cw := { s.cw with trigs := s.cw.trigs.filter (fun x => !(x.dst == dst && x.tid == tid)) } }
        s1.setRbit 0x1A01C 29 true)

/-- Records of a TRACE payload. -/
def traceRecs (f : Frame) : List (List Byte) := (List.range (fld (f.w 3) 15 0)).map (fun i => (f.payload.drop (32 * i)).take 32)

/-- A collector discards a TRACE frame: its records are lost, and a LOSS record names the source, as soon as the window has room
for one (R376). -/
def State.traceDrop (s : State) (f : Frame) : State :=
  let p := s.readTime
  let s1 := p.2.traceLose (fld (f.w 3) 15 0) p.1 3 (fSrc f)
  if s1.cw.local_ < 960 then s1.traceLoss else s1

/-- A TRACE frame at its collector (R371, R375, R377), a pending LOSS record before it (R376). -/
def State.traceTake (s : State) (f : Frame) : State :=
  let n := fld (f.w 3) 15 0
  if !s.rbit 0x1A040 0 ∨ s.cw.stopped then s
  else if f.payBad ∨ n = 0 ∨ 64 < n ∨ f.payload.length ≠ 32 * n ∨ 960 < s.cw.local_ + n + b2n s.cw.loss.isSome then s.traceDrop f
  else (traceRecs f).foldl (fun s r => if s.cw.stopped then s else s.traceLocal r) s.traceLoss

/-- TRACE_RX. -/
def execTraceRx (p : Nat) (f : Frame) (s : State) : Host.Outcome State Fault Refusal :=
  .next (s.cwRx p 1 f (fun s => s.traceTake f))

/-- TRACE_RATE_WINDOW: the next 1 µs window begins (R377). -/
def execTraceRateWindow (s : State) : Host.Outcome State Fault Refusal :=
  .next (if s.refclk then { s with cw := { s.cw with local_ := 0, remote := [] } } else s)

-- registers

/-- A write of KCW_FREEZE_CLR (R369). TRIGs of the ended freeze are forgotten (log entry 47). -/
def State.writeFreezeClr (s : State) (w : Nat) : State :=
  if bitOf w 0 then
    let s1 : State := { s with cw := { s.cw with seen := [] } }
    s1.setRbit 0x1A000 0 false
  else s

/-- FREEZE_CLEAR. -/
def execFreezeClear (w : U32) (priv : Bool) (s : State) : Host.Outcome State Fault Refusal :=
  .next (s.ctlWrite 0x1A028 priv (fun s => s.writeFreezeClr w.toNat))

/-- A write of KCW_TR_CTL (R375, R383): a refused enable stores nothing but CFG_ERR. -/
def State.writeTrCtl (s : State) (w : Nat) : State :=
  let old := s.reg 0x1A040
  let en := bitOf old 0
  let size := if en then fld old 8 4 else fld w 8 4
  let v := putFld (putFld (w % 2 ^ 22) 8 4 size) 0 0 0
  if bitOf w 0 ∧ !en then
    if size < 17 ∨ 27 < size ∨ 2 ^ size ≤ s.reg 0x1A044 then s.setRbit 0x1A000 4 true
    else
      let s0 := s.latch 0x1A048
      let s1 : State := { s0 with cw := { s0.cw with stopped := false, post := none, loss := none } }
      (((s1.setReg 0x1A040 (v + 1)).setReg 0x1A050 0).setReg 0x1A054 0).setReg 0x1A058 0
  else s.setReg 0x1A040 (v + b2n (bitOf w 0))

/-- TRACE_ENABLE. -/
def execTraceEnable (w : U32) (priv : Bool) (s : State) : Host.Outcome State Fault Refusal :=
  .next (s.ctlWrite 0x1A040 priv (fun s => s.writeTrCtl w.toNat))

-- dump

def dumpBytes : Nat := 65536

/-- Does the dump slot lie in the Deck, handed to the device (R251, R254, R381)? -/
def State.dumpOk (s : State) : Bool :=
  let a := s.rpair 0x1A064
  let d := s.rpair 0x90000
  decide (d ≤ a) && decide (a + dumpBytes ≤ d + s.reg 0x90008 * 2 ^ 21) && fld (s.rd32 a) 3 0 == 3

/-- A write of KCW_DUMP_CTL (R381, R383). -/
def State.writeDumpCtl (s : State) (w : Nat) : State :=
  let e := if bitOf w 3 then 0 else b2n (s.rbit 0x1A060 3)
  let s1 := s.setReg 0x1A060 (putFld (putFld (s.reg 0x1A060) 1 1 (b2n (bitOf w 1))) 3 3 e)
  if !bitOf w 0 ∨ s1.cw.dumping then s1
  else if s1.dumpOk then
    let s2 : State := { s1.latch 0x1A064 with cw := { s1.cw with dumping := true } }
    (s2.setRbit 0x1A060 0 true).setRbit 0x1A060 2 false
  else s1.setRbit 0x1A060 3 true

/-- DUMP. -/
def execDump (w : U32) (priv : Bool) (s : State) : Host.Outcome State Fault Refusal :=
  .next (s.ctlWrite 0x1A060 priv (fun s => s.writeDumpCtl w.toNat))

/-- Register words from an offset, as they read. -/
def State.views (s : State) (off n : Nat) : List Nat := (List.range n).map (fun i => s.view (off + 4 * i))

/-- An entry of n bytes of the dump region at an offset, with the values it holds (log entry 16). -/
def dumpEnt (region n : Nat) (vs : List Nat) : List Byte := (List.range n).map (Config.dumpByte region vs)

/-- The slots of one region: those of a list, and empty ones up to k. -/
def dumpSlots (region n k : Nat) (l : List (List Nat)) : List Byte :=
  (List.range k).flatMap (fun i => dumpEnt region n (l.getD i []))

/-- Queue, index, state and bound resources of a command in flight: blocks of row-state regions, ring slot, exchange,
handles. -/
def State.dumpHeld (s : State) (q : Nat) (c : Cmd) : List Nat :=
  [q, c.idx.toNat, b2n (c.phase == .complete), b2n c.ran]
    ++ (s.regions.filter (fun r => r.q == q && r.idx == c.idx)).flatMap (fun r => [r.pipe, r.block])
    ++ (s.rings.filter (fun p => p.2.q == q && p.2.idx == c.idx)).map (fun p => p.1) ++ [c.gen, c.xid] ++ c.binds

/-- The in-flight table of a dump: the sixteen words of each started command, then what it holds (R381). -/
def State.dumpCmds (s : State) : List Byte :=
  (List.range 256).flatMap (fun i => match s.started[i]? with
    | some x => wordsBytes ((List.range 16).map (fun k => x.2.w k)) ++ dumpEnt 0x1080 16 (s.dumpHeld x.1 x.2)
    | none => dumpEnt 0x1080 80 [])

/-- Values of an exchange, a ring slot, a barrier slot and a row-state region in a dump (R381). -/
def Exch.dumped (e : Exch) : List Nat :=
  [e.gen, e.xid, e.xb, e.rrec, e.dest, e.ofs, b2n e.cxq.isSome, b2n e.xchg, e.nseg, e.todo.length, e.asked.length]
def RingSlot.dumped (r : RingSlot) : List Nat :=
  [r.ctx, r.q, r.idx.toNat, r.gid, r.gseq.toNat, r.op, r.attempt, r.me, r.finals, r.reported.getD 256, r.decided.getD 256] ++ r.members
def Barrier.dumped (b : Barrier) : List Nat :=
  [b.q, b.idx.toNat, b.gen, b.bid, b.lead, (b.trel.getD 0).toNat, b2n b.released] ++ b.arrived
def Region.dumped (r : Region) : List Nat := [r.ctx, b2n r.job, r.q, r.idx.toNat, r.block]

/-- Values of a Pier's VC in a dump: its credits, the bytes queued, and the stamp of its oldest unacknowledged slab, a
fabric time that is free (log entry 8). -/
def State.vcDumped (s : State) (p vc : Nat) : List Nat :=
  let un := (s.tx.filter (fun t => s.pierFor t.dst == p && t.vc == vc)).flatMap (fun t => t.unacked)
  [FMap.get 0 s.net.credit (8 * p + vc),
    ((s.net.queued.filter (fun x => x.1 == p && x.2.1 == vc)).map (fun x => x.2.2.bytes)).sum,
    if un.isEmpty then 0 else (Config.freeTime (s.free + 8 * p + vc)).toNat]

/-- The regions of a dump from offset 0x6080 to 0x9080 (R381). -/
def State.dumpTables (s : State) : List Byte :=
  (List.range 16).flatMap (fun c => dumpSlots 0x6080 64 8 ((s.exch.filter (fun e => e.ctx == c)).map (fun e => e.dumped)))
    ++ (List.range 8).flatMap (fun i => dumpEnt 0x8080 64 ((s.findRing i).elim [] (fun r => r.dumped)))
    ++ (List.range 16).flatMap (fun c => dumpSlots 0x8280 32 4 ((s.barriers.filter (fun b => b.ctx == c)).map (fun b => b.dumped)))
    ++ (List.range 4).flatMap (fun p => dumpSlots 0x8A80 8 16 ((s.regions.filter (fun r => r.pipe == p)).map (fun r => r.dumped)))
    ++ (List.range 4).flatMap (fun p => (List.range 8).flatMap (fun v => dumpEnt 0x8C80 32 (s.vcDumped p v)))

/-- The 65,536 bytes of a dump after its first word (R381): what the registers show, and what the tables hold in a
layout that the spec does not give (log entry 16). -/
def State.dumpBody (s : State) : List Byte × State :=
  let t := s.readTime
  let h := t.2.freeBytes 96
  let halt := wordsBytes [t.1 % 2 ^ 32, t.1 / 2 ^ 32, s.kdprofLo, s.kdprofHi, s.view 0x100, s.view 0x1004, s.view 0x1A000]
  let regs := fun off n => wordsBytes (s.views off n)
  let perCtx := (List.range 16).flatMap (fun c => wordsBytes (s.cntWords (win c + 0x1000) 64))
  let logw := (List.range 32).flatMap (fun i => (s.err.fifo.getD i []).flatMap (fun w => natLe 4 w.toNat)
    ++ List.replicate (if i < s.err.fifo.length then 0 else 32) 0)
  (h.1.take 60 ++ halt ++ h.1.drop 60 ++ regs 0x19000 512 ++ regs 0x20000 512 ++ s.dumpCmds
    ++ s.dumpTables ++ wordsBytes (s.cntWords 0x18000 512) ++ perCtx ++ wordsBytes (s.cntWords 0x1A800 64) ++ logw
    ++ regs 0x1060 8 ++ List.replicate 14688 0, h.2)

/-- DUMP_HALTED: the block has halted; the slot is filled and handed back (R253, R381). -/
def execDumpHalted (s : State) : Host.Outcome State Fault Refusal :=
  .next (if !s.cw.dumping ∨ !s.up then s
    else
      let a := s.lpair 0x1A064
      let o := s.rd32 a
      let b := s.dumpBody
      let s1 := (b.2.wr (a + 4) b.1).wr32 a (2 + 1 * 2 ^ 4 + ((fld o 31 16 + 1) % 2 ^ 16) * 2 ^ 16)
      let s2 : State := { s1 with cw := { s1.cw with dumping := false } }
      let s3 := (s2.setRbit 0x1A060 0 false).setRbit 0x1A060 2 true
      if s3.rbit 0x1A060 1 then s3.setRbit 0x1A000 3 true else s3.pump)

end Sys2Proof.Machine
end

