-- ==== Sys2Proof/Machine/Context.lean ====
section
/-! DEFINITION. The control registers of contexts, Caissons and event queues, whose writes do something (R124, R256, R261,
R262, R266 to R273, R275, R283 to R286). -/
namespace Sys2Proof.Machine

/-- Is a queue of owner c enabled? -/
def State.anyEnabled (s : State) (c : Nat) : Bool := (List.range 64).any (fun q => s.owner q == c && s.rbit (kq q + 0xC) 0)

/-- A write of KCTX_CFG (R275, R301): ignored while a queue of the context is enabled; RSQ 65 to 127 leave the field. -/
def State.writeCtxCfg (s : State) (c w : Nat) : State :=
  if s.anyEnabled c then s
  else
    let o := s.reg (kctx c)
    let r := if 64 < fld w 30 24 then fld o 30 24 else fld w 30 24
    let s1 := s.setReg (kctx c) (w % 4 + fld w 23 12 * 2 ^ 12 + r * 2 ^ 24)
    let st := s.rf (kctx c + 4) 1 0
    if bitOf w 0 ∧ !bitOf o 0 then (s1.setRf (kctx c + 4) 1 0 1).setReg (win c + 0x50C) 0
    else if !bitOf w 0 ∧ bitOf o 0 ∧ st = 1 then s1.setRf (kctx c + 4) 1 0 0
    else s1

-- teardown

/-- A write of KCTX_TDN (R286, R357): GO, then CLEAR. -/
def State.writeTdn (s : State) (c w : Nat) : State :=
  let st := s.rf (kctx c + 4) 1 0
  let s1 := if bitOf w 0 ∧ (st = 1 ∨ st = 2) then
      let s2 := (s.setRbit (kctx c + 8) 0 true).ctxError c { code := eHostTeardown, unit := 1 }
      if s2.rf (kctx c + 4) 1 0 = 2 then s2 else s2.setRbit (kctx c + 8) 0 false
    else s
  if bitOf w 1 ∧ s1.rf (kctx c + 4) 1 0 = 3 ∧ !s1.anyEnabled c then
    (s1.setRf (kctx c + 4) 1 0 0).setRbit (kctx c) 0 false
  else s1

/-- TEARDOWN_GO. -/
def execTeardownGo (c : Nat) (w : U32) (priv : Bool) (s : State) : Host.Outcome State Fault Refusal :=
  .next (if 15 < c then s else s.ctlWrite (kctx c + 8) priv (fun s => s.writeTdn c w.toNat))
/-- TEARDOWN_CLEAR. -/
def execTeardownClear (c : Nat) (w : U32) (priv : Bool) (s : State) : Host.Outcome State Fault Refusal :=
  .next (if 15 < c then s else s.ctlWrite (kctx c + 8) priv (fun s => s.writeTdn c w.toNat))

-- queues

/-- QUEUE_ENABLE. -/
def execQueueEnable (q : Nat) (w : U32) (priv : Bool) (s : State) : Host.Outcome State Fault Refusal :=
  .next (if 63 < q then s else s.ctlWrite (kq q + 0xC) priv (fun s => s.writeKqCtl q w.toNat))
/-- QUEUE_HOLD. -/
def execQueueHold (q : Nat) (w : U32) (priv : Bool) (s : State) : Host.Outcome State Fault Refusal :=
  .next (if 63 < q then s else s.ctlWrite (kq q + 0xC) priv (fun s => s.writeKqCtl q w.toNat))
/-- QUEUE_KILL. -/
def execQueueKill (q : Nat) (w : U32) (priv : Bool) (s : State) : Host.Outcome State Fault Refusal :=
  .next (if 63 < q then s else s.ctlWrite (kq q + 0xC) priv (fun s => s.writeKqCtl q w.toNat))

-- save and restore

/-- The queues of a context, enabled or not. -/
def State.queuesOf (s : State) (c : Nat) : List Nat := (List.range 64).filter (fun q => s.owner q == c)

/-- Words of the header of a save image (R284; their places are the model's, log entry 15): the job number, T, PARAM, STAGE, the
columns received, the bound map, FU and bias epochs, the determinism profile, and the region count. -/
def State.saveHdr (s : State) (v : Save) : List Nat :=
  let j := v.jobs.head?
  let on (f : Job → Nat) : Nat := (j.map f).getD 0
  [on (fun j => j.job), on (fun j => j.t), on (fun j => j.param), on (fun j => j.stage), on (fun j => j.cols),
    on (fun j => (j.mapB.map (fun b => b.2.toNat)).getD 0), on (fun j => if j.fuB.isSome then j.fuE.toNat else 0),
    on (fun j => (j.biasB.head?.map (fun b => b.2.toNat)).getD 0), s.kdprofLo, s.kdprofHi, v.regions.length]

/-- Does the live state still answer to the header of a save image (R285)? -/
def State.imageLives (s : State) (v : Save) : Bool :=
  let a := s.rpair (kctx v.ctx + 0x10)
  let w (i : Nat) : Nat := s.rd32 (a + 4 * i)
  w 8 == s.kdprofLo && w 9 == s.kdprofHi && v.jobs.all (fun j =>
    (j.fuB.isNone || w 6 == s.reg 0x80000)
      && j.biasB.all (fun b => w 7 == s.cmbEpoch b.1)
      && j.mapB.all (fun b => w 5 == s.mapEpoch b.1))

/-- A write of KCTX_SAVE_CTL: SAVE, then RESTORE (R284, R285). -/
def State.writeSaveCtl (s : State) (c w : Nat) : State :=
  let k := kctx c + 0xC
  let refuse (s : State) : State := (s.setRbit k 3 true).setRbit k 2 false
  let begin_ (s : State) : State := ((s.latch (kctx c + 0x10)).setRbit k 3 false).setRbit k 2 false
  let s1 := if !bitOf w 0 ∨ s.rbit k 0 then s
    else if (s.queuesOf c).any (fun q => !s.rbit (kq q + 0xC) 2) then refuse s
    else
      let s2 := (begin_ s).setRbit k 0 true
      let v : Save := { ctx := c }
      let s3 : State := { s2 with saves := s2.saves ++ [v] }
      (s3.queuesOf c).foldl (fun s q => s.kill q) s3
  if !bitOf w 1 then s1
  else match s1.saves.find? (fun v => v.ctx == c && !v.open_) with
    | none => refuse s1
    | some v =>
      if !s1.rbit (kctx c + 4) 4 ∨ s1.rbit k 0 then refuse s1
      else if !s1.imageLives v then (refuse s1).ctxError c { code := eRestoreStale, unit := 1 }
      else (((begin_ s1).setRbit k 1 true)).restoreTry c

/-- CONTEXT_SAVE. -/
def execContextSave (c : Nat) (w : U32) (priv : Bool) (s : State) : Host.Outcome State Fault Refusal :=
  .next (if 15 < c then s else s.ctlWrite (kctx c + 0xC) priv (fun s => s.writeSaveCtl c w.toNat))
/-- CONTEXT_RESTORE. -/
def execContextRestore (c : Nat) (w : U32) (priv : Bool) (s : State) : Host.Outcome State Fault Refusal :=
  .next (if 15 < c then s else s.ctlWrite (kctx c + 0xC) priv (fun s => s.writeSaveCtl c w.toNat))

/-- Bytes that the save area must hold (R284). -/
def saveArea : Nat := 67174656

/-- SAVE_IMAGE_WRITE: the queues are killed and nothing is outstanding; the image is written, the regions are released
(R284): its header, and free bytes for the row state, whose format is the device's own, and for the tags. A save of a
context that is saved already keeps what the earlier one holds (log entry 15). -/
def execSaveImageWrite (c : Nat) (s : State) : Host.Outcome State Fault Refusal :=
  .next (
    let k := kctx c + 0xC
    if !s.live ∨ !s.saves.any (fun v => v.ctx == c && v.open_) ∨ s.outstanding c ≠ 0
        ∨ (s.queuesOf c).any (fun q => (s.queue q).killing || (s.queue q).cmds.any (fun x => x.live)) then s
    else
      let a := s.lpair (kctx c + 0x10)
      let rest := s.saves.filter (fun v => v.ctx != c)
      let old := s.saves.filter (fun v => v.ctx == c && !v.open_)
      if 2 ^ 48 < a + saveArea then
        let s1 : State := { s with saves := rest ++ old }
        (s1.setRbit k 3 true).setRbit k 0 false
      else
        let rs := s.regions.filter (fun r => r.ctx == c)
        let js := s.jobs.filter (fun j => j.ctx == c)
        let n := 256 + 65536 + 2 ^ 20 * rs.length
        let b := s.freeBytes n
        let v : Save := { ctx := c, jobs := old.flatMap (fun v => v.jobs) ++ js, regions := old.flatMap (fun v => v.regions) ++ rs
                          tags := old.flatMap (fun v => v.tags) ++ s.mapLines.filter (fun l => bitOf (s.mapPins c) l.way)
                          open_ := false }
        let s1 := (b.2.wr a b.1).wr a (wordsBytes (s.saveHdr v))
        let s2 : State := { s1 with
          saves := rest ++ [v]
          regions := s1.regions.filter (fun r => r.ctx != c)
          jobs := s1.jobs.filter (fun j => j.ctx != c) }
        (((s2.setReg (kctx c + 0x18) n).setRbit (kctx c + 4) 4 true).setRbit k 2 true).setRbit k 0 false)

-- tags

/-- A write of KCTX_GEN_FLOOR (R124, R125): only a raise counts. A double free found in a retired tag tears the context
down (R270). -/
def State.writeFloor (s : State) (c w : Nat) : State :=
  let g := w % 2 ^ 16
  if i16diff g (s.reg (win c + 0x508)) ≤ 0 then s
  else
    let r := (s.setReg (win c + 0x508) g).retireTags c false
    if r.1 ∧ r.2.rf (kctx c + 4) 1 0 = 1 ∧ !r.2.rbit 0x1004 0 then r.2.teardown c eDoubleFree else r.2

/-- GEN_FLOOR_WRITE. -/
def execGenFloorWrite (c : Nat) (w : U32) (priv : Bool) (s : State) : Host.Outcome State Fault Refusal :=
  .next (if 15 < c then s else s.ctlWrite (win c + 0x508) priv (fun s => s.writeFloor c w.toNat))

-- Caissons

/-- Set sticky bits of the Caisson requests of a window. -/
def State.casStick (s : State) (c b : Nat) : State := s.stick c 0xA1C (2 ^ b)

/-- Serve a request of a window: handle and address, or the failure (R267, R271, R272, R275). -/
def State.casServe (s : State) (c w : Nat) : State :=
  let n := fld w 20 0
  let stat (s : State) (f : Nat) : State := s.setReg (win c + 0xA08) (1 + f * 2 + fld w 31 28 * 2 ^ 28)
  let got := if c < 16 ∧ !s.rbit (kctx c) 0 then none else s.alloc c (256 * n) (bitOf w 21) (bitOf w 22)
  match got with
  | some (h, a, s1) =>
    stat (((s1.setReg (win c + 0xA04) h).setReg (win c + 0xA0C) a).setReg (win c + 0xA10) (a / 2 ^ 32)) 0
  | none => stat (((s.allocFail c (256 * n)).casStick c 1).setReg (win c + 0xA04) 0) 1

/-- A write of KCTX_CAS_REQ. Until a read of RSTAT has shown it DONE, an earlier request of the window may still be pending, and
this one is then ignored: a free choice (R267, log entry 33). -/
def State.writeCasReq (s : State) (c w : Nat) : State :=
  let n := fld w 20 0
  let s1 : State := if s.casPend.contains c then { s with free := s.free + 1 } else s
  if s.casPend.contains c ∧ Config.freePick s.free % 2 = 1 then s1.casStick c 3
  else if n = 0 ∨ 1048576 < n then s1.casStick c 4
  else
    let s2 := s1.casServe c w
    { s2 with casPend := s2.casPend.filter (fun x => x != c) ++ [c] }

/-- CAS_REQUEST. -/
def execCasRequest (c : Nat) (w : U32) (priv : Bool) (s : State) : Host.Outcome State Fault Refusal :=
  .next (if 16 < c then s else s.ctlWrite (win c + 0xA00) priv (fun s => s.writeCasReq c w.toNat))

/-- A double free on the register path (R270): logged, and a context is torn down. -/
def State.casDouble (s : State) (c h : Nat) : State :=
  (s.casStick c 0).ctxError c { code := eDoubleFree, unit := 0x10, lo := h }

/-- A write of KCTX_CAS_FREE: one reference is dropped (R267, R270). -/
def State.writeCasFree (s : State) (c h : Nat) : State :=
  match s.casTest c h false with
  | .ok => s.dropRef h
  | .malformed => s.casStick c 4
  | .quar => s.casStick c 4
  | .sat => s.casStick c 4
  | .foreign => s.casStick c 2
  | .dfree => s.casDouble c h

/-- CAS_FREE. -/
def execCasFree (c : Nat) (w : U32) (priv : Bool) (s : State) : Host.Outcome State Fault Refusal :=
  .next (if 16 < c then s else s.ctlWrite (win c + 0xA14) priv (fun s => s.writeCasFree c w.toNat))

/-- A write of KCTX_CAS_REF: one reference is added (R267, R270, R271). -/
def State.writeCasRef (s : State) (c h : Nat) : State :=
  match s.casTest c h true with
  | .ok => s.takeRef h
  | .malformed => s.casStick c 4
  | .quar => s.casStick c 4
  | .sat => s.casStick c 4
  | .foreign => s.casStick c 2
  | .dfree => s.casDouble c h

/-- CAS_REF. -/
def execCasRef (c : Nat) (w : U32) (priv : Bool) (s : State) : Host.Outcome State Fault Refusal :=
  .next (if 16 < c then s else s.ctlWrite (win c + 0xA18) priv (fun s => s.writeCasRef c w.toNat))

/-- A write of KCAS_RECLAIM (R273): a GO is refused, or accepted and done once no landing of the context is in progress. -/
def State.writeReclaim (s : State) (w : Nat) : State :=
  let c := fld w 3 0
  let s1 := s.setRf 0xA0400 3 0 c
  if !bitOf w 31 then s1
  else if s1.anyEnabled c then s1.setRbit 0xA0400 29 true
  else
    let s2 := s1.setRf 0xA0400 30 29 0
    ({ s2 with reclaims := s2.reclaims.filter (fun x => x != c) ++ [c] } : State).landingsOver c

/-- RECLAIM. -/
def execReclaim (w : U32) (priv : Bool) (s : State) : Host.Outcome State Fault Refusal :=
  .next (s.ctlWrite 0xA0400 priv (fun s => s.writeReclaim w.toNat))

-- event queues

/-- A write of KEVQ_CTL (R256): an enable is refused for a bad size or a ring that leaves the Deck. -/
def State.writeEvCtl (s : State) (e w : Nat) : State :=
  let k := kevq e
  let n := s.rf (k + 4) 4 0
  if s.rbit (k + 8) 0 ∨ !bitOf w 0 then s.setReg (k + 8) (w % 2)
  else if n < 8 ∨ 15 < n ∨ s.reg 0x90008 * 2 ^ 21 < s.reg k + 16 * 2 ^ n then s.setRbit (k + 0x1C) 3 true
  else
    let s1 : State := { s with
      evHeld := s.evHeld.filter (fun x => x != e), evNew := s.evNew.filter (fun p => p.1 != e) }
    ((((s1.setReg (k + 8) 1).setReg (k + 0xC) 0).setReg (k + 0x10) 0).setReg (k + 0x18) 0).setRbit (k + 0x1C) 3 false

/-- EVENT_QUEUE_ENABLE. -/
def execEventQueueEnable (e : Nat) (w : U32) (priv : Bool) (s : State) : Host.Outcome State Fault Refusal :=
  .next (if 16 < e then s else s.ctlWrite (kevq e + 8) priv (fun s => s.writeEvCtl e w.toNat))

/-- A write of KEVQ_RD (R261). -/
def State.writeEvRd (s : State) (e v : Nat) : State :=
  let k := kevq e
  if 0 ≤ i32diff v (s.reg (k + 0x10)) ∧ 0 ≤ i32diff (s.reg (k + 0xC)) v then
    let s1 := s.setReg (k + 0x10) v
    if s1.evUnread e = 0 then { s1 with evHeld := s1.evHeld.filter (fun x => x != e) } else s1
  else s

/-- EVENT_RD_WRITE, at the block window or at the alias in the owner's window (R263). -/
def execEventRdWrite (e : Nat) (window : Bool) (w : U32) (priv : Bool) (s : State) : Host.Outcome State Fault Refusal :=
  .next (if 16 < e then s
    else s.ctlWrite (if window then win e + 0xB10 else kevq e + 0x10) priv (fun s => s.writeEvRd e w.toNat))

/-- A write of KEVQ_STATUS (R262): a cleared PEND is set again while the threshold or the coalescing time is still met. -/
def State.writeEvStatus (s : State) (e w : Nat) : State :=
  let k := kevq e + 0x1C
  let o := s.reg k
  let c (i : Nat) : Nat := if bitOf w i then 0 else fld o i i * 2 ^ i
  (s.setReg k (c 0 + c 1 + c 2 + fld o 3 3 * 8)).evThresh e

/-- EVENT_COALESCE_TIMEOUT: unread records have stood for TMO µs (R262). -/
def execEventCoalesceTimeout (e : Nat) (s : State) : Host.Outcome State Fault Refusal :=
  .next (if e ≤ 16 ∧ s.refclk ∧ s.rst.level.isNone ∧ s.rbit (kevq e + 8) 0 ∧ s.rf (kevq e + 4) 31 24 ≠ 0 ∧ s.evUnread e ≠ 0
    then
      let s1 : State := { s with evHeld := s.evHeld.filter (fun x => x != e) ++ [e] }
      s1.setRbit (kevq e + 0x1C) 0 true
    else s)

end Sys2Proof.Machine
end

