-- ==== Sys2Proof/Machine/ErrUnit.lean ====
section
/-! DEFINITION. The error unit (15_errors_and_containment): the scrubber and the array table (R346 to R349), the fatal
timer (R359), and the log and injection registers (R354 to R356, R363). -/
namespace Sys2Proof.Machine

/-- Codewords of an array, per pipe for the row-state store (section Protection of internal arrays). -/
def arrayWords (a : Nat) : Nat :=
  [0, 2097152, 524288, 659456, 262144, 8192, 81664, 1048576, 32768, 32768, 131072, 98304].getD a 0

/-- Is a visit one of an existing codeword? Inst counts pipes for array 1; for array 0x0B it is 0 for the control port, 1
for the time input, and more for the other Joints (log entry 26). -/
def State.visitOk (s : State) (a inst idx : Nat) : Bool :=
  decide (idx < arrayWords a) && (if a = 1 then decide (inst < s.part.pipes.length) else a == 0xB || inst == 0)

/-- The error of an uncorrectable codeword. -/
def unc (a inst idx : Nat) : Err := { unit := 0x19, array := a, lo := idx, inst := inst, code := eUncorrectable }

/-- An uncorrectable codeword of an array whose class is contained (R347, R349): its owner's command faults, its bound
collective reports (R196), or its context is in error; what nobody owns is only rewritten. -/
def State.uncOwned (s : State) (a inst idx : Nat) (own : CodeOwner) : State :=
  let corrected := s.logCorr (unc a inst idx)
  match own with
  | .none => corrected
  | .context c => if c ≤ 16 then s.ctxError c (unc a inst idx) else corrected
  | .command q i => match s.findCmd q i with
    | none => corrected
    | some c =>
      if !c.live then corrected
      else match s.ringOf q i with
        | some (slot, _) => s.ringUnc slot { flt eUncorrectable 12 with array := a, lo := idx, inst := inst }
        | none => s.fault q i c.op { flt eUncorrectable (unitOf c.op) with array := a, lo := idx, inst := inst }

/-- Offsets of the 48-bit Catwalk counters, in the order of the register map. -/
def catwalkOffs : List Nat :=
  (List.range 512).map (fun i => 0x18000 + 8 * i) ++ (List.range 64).map (fun i => 0x1A800 + 8 * i)
    ++ (List.range 17).flatMap (fun c => (List.range 64).map (fun k => win c + 0x1000 + 8 * k))

/-- An uncorrectable codeword of the Catwalk's counters or staging: the entry is zeroed and counted as lost (array 0x0A,
R365, R376). Which entry a codeword holds is free (log entry 26). -/
def State.uncCatwalk (s : State) (idx : Nat) : State :=
  let k := Config.freePick idx
  let s1 := (s.sysCount 11).logCorr (unc 0xA 0 idx)
  match catwalkOffs[k]? with
  | some off => { s1 with cnt48 := FMap.set 0 s1.cnt48 off 0 }.setRbit 0x1A000 2 true
  | none => if s1.rbit 0x1A040 0 then
      let p := s1.readTime
      p.2.traceLose 1 p.1 2 p.2.chip
    else s1

/-- An uncorrectable codeword, by the array table (R346 to R349). -/
def State.scrubUnc (s : State) (a inst idx : Nat) (own : CodeOwner) : State :=
  let s1 := s.satAdd (0x1104 + 8 * a) 1
  match a with
  | 4 => s1.logCorr (unc a inst idx)
  | 5 => s1.logCorr (unc a inst idx)
  | 6 =>
    if idx / 40832 = s1.fuLive then (s1.setRbit 0x80004 3 true).uncOwned a inst idx own
    else (s1.setRbit 0x80004 1 false).logCorr (unc a inst idx)
  | 7 => s1.fatal (unc a inst idx) true
  | 9 => s1.fatal (unc a inst idx) false
  | 0xA => s1.uncCatwalk idx
  | 0xB => if inst ≤ 1 then s1.fatal (unc a inst idx) false else s1.uncOwned a inst idx own
  | _ => s1.uncOwned a inst idx own

/-- A codeword that is read holds n flipped bits (R346, R348). What is read is written back. Four or more may be taken for a
correctable or an uncorrectable codeword, or go undetected: a free choice (log entry 61). -/
def State.readWord (s : State) (a inst idx n : Nat) (own : CodeOwner) : State :=
  let fixed (s : State) : State :=
    ((s.satAdd (0x1100 + 8 * a) 1).logCorr { unc a inst idx with code := 0 }).arrayWrite a
  let bad (s : State) : State := (s.scrubUnc a inst idx own).arrayWrite a
  if n = 0 then s
  else if n ≤ 2 then fixed s
  else if n = 3 then bad s
  else
    let s1 : State := { s with free := s.free + 1 }
    match Config.freePick s.free % 3 with
    | 0 => s1
    | 1 => fixed s1
    | _ => bad s1

/-- SCRUB_VISIT: a codeword of an array is read, with so many flipped bits: by the scrubber while SCRUB_EN is set, or by the
unit at work for its owner (R346, R348). An applied injection is met by the next read of its array (R363, log entry 26). -/
def execScrubVisit (array inst idx flips : Nat) (own : CodeOwner) (s : State) : Host.Outcome State Fault Refusal :=
  .next (if s.rst.low ∨ !s.rst.arrays ∨ (!s.rbit 0x1000 20 ∧ own = .none) ∨ !s.visitOk array inst idx then s
    else match s.err.hurt.find? (fun p => p.1 == array) with
      | some p =>
        let s1 : State := { s with err := { s.err with hurt := s.err.hurt.erase p } }
        s1.readWord array inst idx (max flips p.2) own
      | none => s.readWord array inst idx flips own)

/-- FATAL_TIMEOUT: FATAL has stood for FATAL_TMO ms (R359). The timer stops while a dump halts the block (R381). -/
def execFatalTimeout (s : State) : Host.Outcome State Fault Refusal :=
  .next (if s.rbit 0x1004 0 ∧ s.refclk ∧ !s.rst.low ∧ !s.rst.iso ∧ !s.halted then
      let s1 : State := { s with fatalPin := true }
      s1.setRbit 0x1004 4 true
    else s)

-- registers

/-- A write of KERR_LOG_POP (R356). -/
def State.writePop (s : State) (w : Nat) : State :=
  if bitOf w 0 then { s with err := { s.err with fifo := s.err.fifo.drop 1 } } else s

/-- A write of KERR_FIRST_CLR (R355). -/
def State.writeFirstClr (s : State) (w : Nat) : State :=
  if bitOf w 0 then (s.setRegs 0x1060 [0, 0, 0, 0, 0, 0, 0, 0]).setRbit 0x1004 3 false else s

/-- A write of KERR_INJECT; BITS 0 disarms (R363). -/
def State.writeInject (s : State) (w : Nat) : State :=
  let arm := (s.rbit 0x1014 31 || bitOf w 31) && fld w 9 8 != 0
  s.setReg 0x1014 (w % 2 ^ 10 + b2n arm * 2 ^ 31)

/-- A write of KERR_CTL: INTERVAL outside 4 to 12 and FATAL_TMO 0 leave their fields (R363). -/
def State.writeErrCtl (s : State) (w : Nat) : State :=
  let o := s.reg 0x1000
  let i := if 4 ≤ fld w 19 16 ∧ fld w 19 16 ≤ 12 then fld w 19 16 else fld o 19 16
  let t := if fld w 15 8 = 0 then fld o 15 8 else fld w 15 8
  s.setReg 0x1000 (w % 4 + t * 2 ^ 8 + i * 2 ^ 16 + fld w 20 20 * 2 ^ 20)

/-- LOG_POP. -/
def execLogPop (w : U32) (priv : Bool) (s : State) : Host.Outcome State Fault Refusal :=
  .next (s.ctlWrite 0x100C priv (fun s => s.writePop w.toNat))

/-- FIRST_CLEAR. -/
def execFirstClear (w : U32) (priv : Bool) (s : State) : Host.Outcome State Fault Refusal :=
  .next (s.ctlWrite 0x1010 priv (fun s => s.writeFirstClr w.toNat))

/-- ERROR_INJECT. -/
def execErrorInject (w : U32) (priv : Bool) (s : State) : Host.Outcome State Fault Refusal :=
  .next (s.ctlWrite 0x1014 priv (fun s => s.writeInject w.toNat))

end Sys2Proof.Machine
end

