-- ==== Sys2Proof/Machine/Access.lean ====
section
/-! DEFINITION. A write of any register by its offset, under its access codes and locks (R8, R9, R306, R307, R384 to R388),
and the two reads that do something: of an RC register, and of the LO word of a counter (R9, R282). -/
namespace Sys2Proof.Machine

/-- A write by access codes alone. -/
def State.writePlain (s : State) (off w : Nat) : State :=
  match findReg s.part off with
  | some d => s.setReg off (d.write (s.reg off) w)
  | none => s

/-- A write by access codes, unless a lock holds. -/
def State.writeLocked (s : State) (lock : Bool) (off w : Nat) : State := if lock then s else s.writePlain off w

/-- A write of one value field, taken only inside its range. -/
def State.writeRange (s : State) (off w hi lo a b : Nat) : State :=
  if a ≤ fld w hi lo ∧ fld w hi lo ≤ b then s.writePlain off w else s

-- map slots of contexts

/-- Slots of context c as (first, count). -/
def State.mapRange (s : State) (c : Nat) : Nat × Nat := (s.rf (0x30100 + 8 * c) 7 0, s.rf (0x30100 + 8 * c) 16 8)

/-- Would a slot range of context c overlap another's, or pass slot 255? -/
def State.mapCfgBad (s : State) (c w : Nat) : Bool :=
  let b := fld w 7 0
  let n := fld w 16 8
  decide (256 < b + n) || (List.range 16).any (fun k =>
    let o := s.mapRange k
    k != c && n != 0 && o.2 != 0 && decide (b < o.1 + o.2) && decide (o.1 < b + n))

/-- Does a write pin a way outside WAYS, or inside another context's WAYS? -/
def State.mapWaysBad (s : State) (c w : Nat) : Bool :=
  (List.range 16).any (fun i => bitOf w (16 + i)
    && (!bitOf w i || (List.range 16).any (fun k => k != c && s.rbit (0x30104 + 8 * k) i)))

/-- A write of KMAP_CTX_CFG or KMAP_CTX_WAYS of context c (Map cache registers of 04_capacity_and_sort). -/
def State.writeMapCtx (s : State) (c off w : Nat) : State :=
  if s.anyEnabled c then s
  else if (if off % 8 = 0 then s.mapCfgBad c w else s.mapWaysBad c w) then s.setRbit 0x3000C 0 true
  else s.writePlain off w

-- the fabric

/-- A write of KCTX_FAB_CTL: SESSION stands while EN = 1; an enable begins the context's streams anew. -/
def State.writeFabCtl (s : State) (c w : Nat) : State :=
  let k := win c + 0x500
  let o := s.reg k
  let session := if bitOf o 0 then fld o 31 16 else fld w 31 16
  let s1 := s.setReg k (w % 2 + session * 2 ^ 16)
  if bitOf w 0 ∧ !bitOf o 0 then
    let s2 : State := { s1 with tx := s1.tx.filter (fun t => t.ctx != c), leads := s1.leads.filter (fun l => l.ctx != c) }
    s2.txPump
  else s1

/-- A write of KCW_TRIG_CTL; ONERR 3 is refused whole (R383). -/
def State.writeTrigCtl (s : State) (w : Nat) : State := if fld w 15 14 = 3 then s else s.writePlain 0x1A010 w

-- event queues

/-- A write of register r of event queue e; through an alias BASE, CFG and CTL are read-only (R263). -/
def State.writeEvq (s : State) (e r : Nat) (window : Bool) (w : Nat) : State :=
  let k := kevq e
  if r < 0xC ∧ window then s
  else if r = 0 then s.writeLocked (s.rbit (k + 8) 0) k w
  else if r = 4 then
    let n := if s.rbit (k + 8) 0 then s.rf (k + 4) 4 0 else fld w 4 0
    let s1 : State := if s.rf (k + 4) 31 24 < fld w 31 24 then { s with evHeld := s.evHeld.filter (fun x => x != e) } else s
    (s1.writePlain (k + 4) (putFld w 4 0 n)).evThresh e
  else if r = 8 then s.writeEvCtl e w
  else if r = 0x10 then s.writeEvRd e w
  else if r = 0x1C then s.writeEvStatus e w
  else s

-- windows

/-- A write at offset r of the window of context c; 16 is the system window (R385). -/
def State.writeWindow (s : State) (c r w : Nat) : State :=
  let off := win c + r
  let fab := s.rbit (win c + 0x500) 0
  if c = 16 ∧ !sysMapped r then s
  else if r < 0x100 then (if r % 4 = 0 then s.doorbell c (r / 4) w else s)
  else if r < 0x10C then s.writeLocked (s.anyEnabled c) off w
  else if r = 0x10C then s.writeRange off w 3 0 0 10
  else if r = 0x500 then s.writeFabCtl c w
  else if r = 0x504 then s.writeLocked fab off w
  else if r = 0x508 then s.writeFloor c w
  else if 0x510 ≤ r ∧ r < 0x520 then s.writeLocked fab off w
  else if r = 0x520 then (s.writeRange off w 17 0 1 131072).txPump
  else if r = 0x700 then s.writePlain off (if s.anyEnabled c then putFld w 0 0 (s.rf off 0 0) else w)
  else if 0x800 ≤ r ∧ r < 0x900 then
    (if !s.part.trestle then s
    else if r = 0x800 then s.writeRange off w 15 0 1 60000
    else if r < 0x810 then s.writeLocked (s.anyEnabled c) off w
    else s.writePlain off w)
  else if r = 0xA00 then s.writeCasReq c w
  else if r = 0xA14 then s.writeCasFree c w
  else if r = 0xA18 then s.writeCasRef c w
  else if 0xB00 ≤ r ∧ r < 0xB20 then s.writeEvq c (r - 0xB00) true w
  else if 0xD00 ≤ r ∧ r < 0xE00 then
    (if !s.part.ledger then s else s.writeLocked (decide (r < 0xD08) && s.anyEnabled c) off w)
  else s.writePlain off w

-- the block window

/-- A write in the block window (R384). -/
def State.writeBlock (s : State) (off w : Nat) : State :=
  if off = 0x204 then s.writeBootCtl w
  else if off = 0x210 then s.writeBootData w
  else if off = 0x1000 then s.writeErrCtl w
  else if off = 0x100C then s.writePop w
  else if off = 0x1010 then s.writeFirstClr w
  else if off = 0x1014 then s.writeInject w
  else if off = 0x10008 then s.writePace w
  else if off = 0x1A010 then s.writeTrigCtl w
  else if off = 0x1A028 then s.writeFreezeClr w
  else if off = 0x1A040 then s.writeTrCtl w
  else if off = 0x1A060 then s.writeDumpCtl w
  else if 0x20000 ≤ off ∧ off < 0x20800 ∧ off % 0x20 = 8 then s.writeLocked (s.rbit (off + 4) 0) off w
  else if 0x20000 ≤ off ∧ off < 0x20800 ∧ off % 0x20 = 0xC then s.writeKqCtl ((off - 0x20000) / 0x20) w
  else if off = 0x30000 ∨ off = 0x30004 then s.writeLocked (s.rbit 0x30008 0) off w
  else if 0x30100 ≤ off ∧ off < 0x30180 then s.writeMapCtx ((off - 0x30100) / 8) off w
  else if 0x60000 ≤ off ∧ off < 0x61000 then s.writeLocked (!s.part.trestle) off w
  else if off = 0x61000 ∨ off = 0x61004 then s.writeLocked (s.rbit 0x61008 0) off w
  else if 0x70000 ≤ off ∧ off < 0x70220 then s.writeLocked (s.anyEnabled ((off - 0x70000) / 0x20)) off w
  else if 0x90000 ≤ off ∧ off < 0x9000C then
    s.writeLocked ((List.range 17).any (fun e => s.rbit (kevq e + 8) 0)) off w
  else if 0x90100 ≤ off ∧ off < 0x90320 then s.writeEvq ((off - 0x90100) / 0x20) (off % 0x20) false w
  else if off = 0xA0400 then s.writeReclaim w
  else if 0xB0000 ≤ off ∧ off < 0xB0400 ∧ off % 0x40 = 0 then s.writeCtxCfg ((off - 0xB0000) / 0x40) w
  else if 0xB0000 ≤ off ∧ off < 0xB0400 ∧ off % 0x40 = 8 then s.writeTdn ((off - 0xB0000) / 0x40) w
  else if 0xB0000 ≤ off ∧ off < 0xB0400 ∧ off % 0x40 = 0xC then s.writeSaveCtl ((off - 0xB0000) / 0x40) w
  else if 0xB0820 ≤ off ∧ off < 0xB0840 then s
  else s.writePlain off w

/-- A write of the word at an offset (R306). -/
def State.writeReg (s : State) (off w : Nat) : State :=
  match windowOf off with
  | some (c, r) => s.writeWindow c r w
  | none => s.writeBlock off w

/-- REGISTER_WRITE. -/
def execRegisterWrite (off : Nat) (w : U32) (priv : Bool) (s : State) : Host.Outcome State Fault Refusal :=
  .next (if off % 4 = 0 then s.ctlWrite off priv (fun s => s.writeReg off w.toNat) else s)

-- reads

/-- A read request (R306, R307, R337): the value goes out; f is what the read does besides. -/
def State.ctlRead (s : State) (off : Nat) (priv : Bool) (f : State → State) : State :=
  if !s.ctlUp ∨ off % 4 ≠ 0 then s
  else
    let s0 := s.ctlBegin
    if !priv && !openTo off then s0.sysCount 5
    else if !s.rst.posted && !earlyReg off then s0
    else f { s0 with ctl := { rdata := u32 (s0.view off) }, casPend := s0.casPend.filter (fun c => win c + 0xA08 != off) }

/-- Where the RC word that an offset names is stored: event queues have an alias in their owner's window (R9, R263). -/
def State.rcOff (s : State) (off : Nat) : Option Nat :=
  match windowOf off with
  | some (c, r) => if r = 0xB14 then some (kevq c + 0x14) else none
  | none => (findReg s.part off).bind (fun d => if d.rc then some off else none)

/-- READ_CLEAR: a read of an RC register returns its value and clears it (R9). -/
def execReadClear (off : Nat) (priv : Bool) (s : State) : Host.Outcome State Fault Refusal :=
  .next (s.ctlRead off priv (fun s => match s.rcOff off with
    | some k => s.setReg k 0
    | none => s))

/-- Is an offset the LO word of a 48-bit counter (R280, R282, R364, R366)? -/
def counterLo (off : Nat) : Bool :=
  off % 8 == 0 && (match windowOf off with
    | some (c, r) => (c != 16 || sysMapped r)
        && ((decide (0xC00 ≤ r) && decide (r < 0xC80)) || (decide (0x1000 ≤ r) && decide (r < 0x1200)))
    | none => (decide (0x18000 ≤ off) && decide (off < 0x19000)) || (decide (0x1A800 ≤ off) && decide (off < 0x1AA00)))

/-- COUNTER_LO_READ: the read latches the HI word of its own counter (R282). -/
def execCounterLoRead (off : Nat) (priv : Bool) (s : State) : Host.Outcome State Fault Refusal :=
  .next (s.ctlRead off priv (fun s =>
    if counterLo off then
      { s with hiLatch := s.hiLatch.filter (fun p => p.1 != off) ++ [(off, BitVec.ofNat 16 (s.cnt off / 2 ^ 32))] }
    else s))

end Sys2Proof.Machine
end

