-- ==== Sys2Proof/Machine/Dispatch.lean ====
section
/-! DEFINITION. The effect of a command on everything but the queue: one arm per row of spec/opcode_table.json. -/
namespace Sys2Proof.Machine

def exec (i : Instr) (s : State) : Host.Outcome State Fault Refusal :=
  match i with
  | .nop q n => Sys2Proof.Machine.execNop q n s
  | .wait q n => Sys2Proof.Machine.execWait q n s
  | .signal q n => Sys2Proof.Machine.execSignal q n s
  | .fence q n => Sys2Proof.Machine.execFence q n s
  | .skipIf q n => Sys2Proof.Machine.execSkipIf q n s
  | .barrier q n => Sys2Proof.Machine.execBarrier q n s
  | .mark q n => Sys2Proof.Machine.execMark q n s
  | .trigger q n => Sys2Proof.Machine.execTrigger q n s
  | .route q n => Sys2Proof.Machine.execRoute q n s
  | .scoreSelect q n => Sys2Proof.Machine.execScoreSelect q n s
  | .seal q n => Sys2Proof.Machine.execSeal q n s
  | .admitJob q n => Sys2Proof.Machine.execAdmitJob q n s
  | .sort q n => Sys2Proof.Machine.execSort q n s
  | .countXchg q n => Sys2Proof.Machine.execCountXchg q n s
  | .dispatch q n => Sys2Proof.Machine.execDispatch q n s
  | .ret q n => Sys2Proof.Machine.execRet q n s
  | .drain q n => Sys2Proof.Machine.execDrain q n s
  | .groupTable q n => Sys2Proof.Machine.execGroupTable q n s
  | .feedArm q n => Sys2Proof.Machine.execFeedArm q n s
  | .combine q n => Sys2Proof.Machine.execCombine q n s
  | .copy q n => Sys2Proof.Machine.execCopy q n s
  | .gather q n => Sys2Proof.Machine.execGather q n s
  | .scatter q n => Sys2Proof.Machine.execScatter q n s
  | .scatterAcc q n => Sys2Proof.Machine.execScatterAcc q n s
  | .pagedGather q n => Sys2Proof.Machine.execPagedGather q n s
  | .ringReduce q n => Sys2Proof.Machine.execRingReduce q n s
  | .ringGather q n => Sys2Proof.Machine.execRingGather q n s
  | .shift q n => Sys2Proof.Machine.execShift q n s
  | .permute q n => Sys2Proof.Machine.execPermute q n s
  | .camberAccum q n => Sys2Proof.Machine.execCamberAccum q n s
  | .camberUpdate q n => Sys2Proof.Machine.execCamberUpdate q n s
  | .ledgerAdmit q n => Sys2Proof.Machine.execLedgerAdmit q n s
  | .ledgerStep q n => Sys2Proof.Machine.execLedgerStep q n s
  | .ledgerRetire q n => Sys2Proof.Machine.execLedgerRetire q n s
  | .descCreate q n => Sys2Proof.Machine.execDescCreate q n s
  | .descRetire q n => Sys2Proof.Machine.execDescRetire q n s
  | .mapLoad q n => Sys2Proof.Machine.execMapLoad q n s
  | .publish q n => Sys2Proof.Machine.execPublish q n s
  | .fuLoad q n => Sys2Proof.Machine.execFuLoad q n s
  | .fuApply q n => Sys2Proof.Machine.execFuApply q n s
  | .poolConfig q n => Sys2Proof.Machine.execPoolConfig q n s
  | .digestBegin q n => Sys2Proof.Machine.execDigestBegin q n s
  | .digestEnd q n => Sys2Proof.Machine.execDigestEnd q n s
  | .doorbell win q v priv => Sys2Proof.Machine.execDoorbell win q v priv s
  | .commandDecode q => Sys2Proof.Machine.execCommandDecode q s
  | .commandStart q => Sys2Proof.Machine.execCommandStart q s
  | .waitPoll c => Sys2Proof.Machine.execWaitPoll c s
  | .commandCommit q => Sys2Proof.Machine.execCommandCommit q s
  | .combinePrefetch q n => Sys2Proof.Machine.execCombinePrefetch q n s
  | .queueEnable q w priv => Sys2Proof.Machine.execQueueEnable q w priv s
  | .queueHold q w priv => Sys2Proof.Machine.execQueueHold q w priv s
  | .queueKill q w priv => Sys2Proof.Machine.execQueueKill q w priv s
  | .killComplete q => Sys2Proof.Machine.execKillComplete q s
  | .teardownGo c w priv => Sys2Proof.Machine.execTeardownGo c w priv s
  | .teardownClear c w priv => Sys2Proof.Machine.execTeardownClear c w priv s
  | .contextSave c w priv => Sys2Proof.Machine.execContextSave c w priv s
  | .saveImageWrite c => Sys2Proof.Machine.execSaveImageWrite c s
  | .contextRestore c w priv => Sys2Proof.Machine.execContextRestore c w priv s
  | .genFloorWrite c w priv => Sys2Proof.Machine.execGenFloorWrite c w priv s
  | .casRequest c w priv => Sys2Proof.Machine.execCasRequest c w priv s
  | .casFree c w priv => Sys2Proof.Machine.execCasFree c w priv s
  | .casRef c w priv => Sys2Proof.Machine.execCasRef c w priv s
  | .reclaim w priv => Sys2Proof.Machine.execReclaim w priv s
  | .eventQueueEnable e w priv => Sys2Proof.Machine.execEventQueueEnable e w priv s
  | .eventRdWrite e window w priv => Sys2Proof.Machine.execEventRdWrite e window w priv s
  | .eventCoalesceTimeout e => Sys2Proof.Machine.execEventCoalesceTimeout e s
  | .readClear off priv => Sys2Proof.Machine.execReadClear off priv s
  | .counterLoRead off priv => Sys2Proof.Machine.execCounterLoRead off priv s
  | .registerWrite off w priv => Sys2Proof.Machine.execRegisterWrite off w priv s
  | .paceWrite w priv => Sys2Proof.Machine.execPaceWrite w priv s
  | .paceWindow beats => Sys2Proof.Machine.execPaceWindow beats s
  | .bootGo w priv => Sys2Proof.Machine.execBootGo w priv s
  | .bootData w priv => Sys2Proof.Machine.execBootData w priv s
  | .bootAccept w priv => Sys2Proof.Machine.execBootAccept w priv s
  | .bootReject w priv => Sys2Proof.Machine.execBootReject w priv s
  | .microcodeLoaded image => Sys2Proof.Machine.execMicrocodeLoaded image s
  | .arrayInitDone => Sys2Proof.Machine.execArrayInitDone s
  | .postReady => Sys2Proof.Machine.execPostReady s
  | .powerOnReset straps => Sys2Proof.Machine.execPowerOnReset straps s
  | .systemReset straps => Sys2Proof.Machine.execSystemReset straps s
  | .coreReset straps => Sys2Proof.Machine.execCoreReset straps s
  | .isolationTimeout => Sys2Proof.Machine.execIsolationTimeout s
  | .resetDeassert => Sys2Proof.Machine.execResetDeassert s
  | .domainRelease => Sys2Proof.Machine.execDomainRelease s
  | .refclkReturn => Sys2Proof.Machine.execRefclkReturn s
  | .pierLinkChange p up => Sys2Proof.Machine.execPierLinkChange p up s
  | .pierCredit p vc n => Sys2Proof.Machine.execPierCredit p vc n s
  | .memoryReadResponse t st => Sys2Proof.Machine.execMemoryReadResponse t st s
  | .memoryWriteAck t st => Sys2Proof.Machine.execMemoryWriteAck t st s
  | .dispatchSlabRx p f => Sys2Proof.Machine.execDispatchSlabRx p f s
  | .returnSlabRx p f => Sys2Proof.Machine.execReturnSlabRx p f s
  | .reserveRx p f => Sys2Proof.Machine.execReserveRx p f s
  | .grantRx p f => Sys2Proof.Machine.execGrantRx p f s
  | .countSlabRx p f => Sys2Proof.Machine.execCountSlabRx p f s
  | .barrierArriveRx p f => Sys2Proof.Machine.execBarrierArriveRx p f s
  | .barrierReleaseRx p f => Sys2Proof.Machine.execBarrierReleaseRx p f s
  | .barrierRelease c gen bid => Sys2Proof.Machine.execBarrierRelease c gen bid s
  | .markerRx p f => Sys2Proof.Machine.execMarkerRx p f s
  | .ackRx p f => Sys2Proof.Machine.execAckRx p f s
  | .nackRx p f => Sys2Proof.Machine.execNackRx p f s
  | .hello p f => Sys2Proof.Machine.execHello p f s
  | .helloAck p f => Sys2Proof.Machine.execHelloAck p f s
  | .slabResend c dst vc => Sys2Proof.Machine.execSlabResend c dst vc s
  | .backoffExpiry c dst vc => Sys2Proof.Machine.execBackoffExpiry c dst vc s
  | .streamTimeout c dst vc => Sys2Proof.Machine.execStreamTimeout c dst vc s
  | .helloResend chip => Sys2Proof.Machine.execHelloResend chip s
  | .exchangeBroken q n => Sys2Proof.Machine.execExchangeBroken q n s
  | .ringDataRx p f => Sys2Proof.Machine.execRingDataRx p f s
  | .rackRx p f => Sys2Proof.Machine.execRackRx p f s
  | .rnackRx p f => Sys2Proof.Machine.execRnackRx p f s
  | .reportRx p f => Sys2Proof.Machine.execReportRx p f s
  | .decideRx p f => Sys2Proof.Machine.execDecideRx p f s
  | .ringResend c gid gseq dst => Sys2Proof.Machine.execRingResend c gid gseq dst s
  | .collectiveTimeout slot => Sys2Proof.Machine.execCollectiveTimeout slot s
  | .decideTimeout slot => Sys2Proof.Machine.execDecideTimeout slot s
  | .waitTimeout q => Sys2Proof.Machine.execWaitTimeout q s
  | .barrierTimeout q n => Sys2Proof.Machine.execBarrierTimeout q n s
  | .drainTimeout q n => Sys2Proof.Machine.execDrainTimeout q n s
  | .tapHello m => Sys2Proof.Machine.execTapHello m s
  | .tapTile m => Sys2Proof.Machine.execTapTile m s
  | .tapStopped m => Sys2Proof.Machine.execTapStopped m s
  | .tapStopTimeout stream => Sys2Proof.Machine.execTapStopTimeout stream s
  | .feedDone r => Sys2Proof.Machine.execFeedDone r s
  | .feedAbortAck r => Sys2Proof.Machine.execFeedAbortAck r s
  | .feedAbortTimeout feed => Sys2Proof.Machine.execFeedAbortTimeout feed s
  | .scrubVisit array inst idx flips own => Sys2Proof.Machine.execScrubVisit array inst idx flips own s
  | .fatalTimeout => Sys2Proof.Machine.execFatalTimeout s
  | .logPop w priv => Sys2Proof.Machine.execLogPop w priv s
  | .firstClear w priv => Sys2Proof.Machine.execFirstClear w priv s
  | .errorInject w priv => Sys2Proof.Machine.execErrorInject w priv s
  | .triggerFire => Sys2Proof.Machine.execTriggerFire s
  | .trigRx p f => Sys2Proof.Machine.execTrigRx p f s
  | .tackRx p f => Sys2Proof.Machine.execTackRx p f s
  | .trigResend dst tid => Sys2Proof.Machine.execTrigResend dst tid s
  | .traceRx p f => Sys2Proof.Machine.execTraceRx p f s
  | .freezeClear w priv => Sys2Proof.Machine.execFreezeClear w priv s
  | .traceEnable w priv => Sys2Proof.Machine.execTraceEnable w priv s
  | .dump w priv => Sys2Proof.Machine.execDump w priv s
  | .dumpHalted => Sys2Proof.Machine.execDumpHalted s
  | .refclkStop => Sys2Proof.Machine.execRefclkStop s
  | .countXchgTimeout q n => Sys2Proof.Machine.execCountXchgTimeout q n s
  | .traceRateWindow => Sys2Proof.Machine.execTraceRateWindow s

end Sys2Proof.Machine
end

