-- ==== Sys2Proof/Safety.lean ====
section
/-! DEFINITION. What every step must respect: the canonical form of the stores, and what no command may touch. -/
namespace Sys2Proof.Machine

/-- Device memory is in canonical form and lists only 48-bit addresses (section Memory ports of 13_boundary_ports). -/
def State.memOk (s : State) : Bool := Memory.wf s.mem && s.mem.all (fun p => decide (p.1 < addrMod))

/-- The register words are in canonical form. -/
def State.regsOk (s : State) : Bool := FMap.wf 0 s.regs

/-- The 48-bit counters are in canonical form. -/
def State.cntOk (s : State) : Bool := FMap.wf 0 s.cnt48

/-- The stores of a state are in their canonical forms, so that equal contents are equal data. -/
def State.Canon (s : State) : Prop := s.memOk = true ∧ s.regsOk = true ∧ s.cntOk = true

/-- t is s after some work of the block: the queue of waiting commands and what is fixed in the part are untouched, free
numbers are never taken twice, and stores in canonical form stay so. -/
structure Keeps (s t : State) : Prop where
  pending : t.pending = s.pending
  part    : t.part = s.part
  free    : s.free ≤ t.free
  mem     : s.memOk = true → t.memOk = true
  regs    : s.regsOk = true → t.regsOk = true
  cnt     : s.cntOk = true → t.cntOk = true

/-- The conditions under which the row of an opcode takes effect on command i of queue q: the block is up, and the command
has started, is not skipped, is of that opcode, and gives way to no other (R277). -/
structure Runs (s : State) (q : Nat) (i : U32) (op : Nat) (c : Cmd) : Prop where
  live  : s.live = true
  found : s.findCmd q i = some c
  phase : c.phase = .started
  op    : c.op = op
  run   : c.skip = .run
  turn  : s.givesWay q c = false

/-- The conditions under which a write request of an offset is carried out: the port is up (R335), the request may reach
the offset (R307), and the register answers now (R337). -/
structure Reaches (s : State) (off : Nat) (priv : Bool) : Prop where
  up    : s.ctlUp = true
  mode  : priv = true ∨ openTo off = true
  ready : s.rst.posted = true ∨ earlyReg off = true

/-- s once a request has been taken: a write answers with no data and no error, no packet is still in build, and its words are
received (R363). -/
def State.asked (s : State) : State := s.ctlBegin

/-- t is s after the clearing of a reset of level l (R330, R364): nothing that the block had begun is left; the counters, the
error log and the Catwalk go with power-on alone, the stored microcode with every level but core. -/
structure Cleared (s t : State) (l : Level) : Prop where
  rst     : t.rst.level = some l ∧ t.rst.rel = 0 ∧ t.rst.posted = false ∧ t.rst.iso = false
  queues  : t.queues = [] ∧ t.jobs = [] ∧ t.regions = [] ∧ t.tapRuns = []
  units   : t.exch = [] ∧ t.rets = [] ∧ t.tx = [] ∧ t.landings = [] ∧ t.feeds = [] ∧ t.rings = [] ∧ t.refs = []
  counts  : t.cnt48 = if l = .power then [] else s.cnt48
  log     : t.err = if l = .power then {} else s.err
  catwalk : l = .power → t.cw = {}
  store   : t.boot.store = if l = .core then s.boot.store else []
  traces  : ∀ x ∈ t.net.queued, isTrace x = true ∧ l ≠ .power
  kept    : t.pending = s.pending ∧ t.part = s.part

/-- The wrapper has something to wait for when a reset is taken: a feed whose abort is not acknowledged, a landing that is not,
or a tag that it awaits already (R338). -/
def State.waitsAt (s : State) : Bool :=
  s.feeds.any (fun f => !f.ended) || !s.landings.isEmpty || (s.rst.iso && s.rst.tags)

/-- A reset of level l has been taken at s: it clears at once where nothing is to be waited for, and then leaves device memory
where no output and no packet was unfinished; else it waits in the isolation wrapper, with the domains untouched. Where a
tag of a memory port may be outstanding it may do either (log entry 61). -/
structure ResetTaken (s t : State) (l : Level) : Prop where
  level : t.rst.level = some l ∧ t.rst.low = true ∧ t.rst.rel = 0 ∧ t.pending = s.pending
  held  : s.waitsAt = true → t.rst.iso = true
  done  : s.waitsAt = false → s.rst.iso = true ∨ s.tagsMay = false → t.rst.iso = false
  stays : t.rst.iso = true → t.queues = s.queues ∧ t.regs = s.regs
  gone  : t.rst.iso = false → Cleared s t l ∧ (s.evNew = [] → (∀ x ∈ s.started, x.2.wrote = []) → t.mem = s.mem)

/-- Does one of some writes store to the byte of address a? -/
def touches (ws : List (Nat × List Byte)) (a : Nat) : Prop :=
  ∃ w ∈ ws, ∃ k, k < w.2.length ∧ (w.1 + k) % addrMod = a % addrMod

/-- t has the registers and the error unit of s, but that an injection armed in KERR_INJECT may have been applied by a
write of its array: ARM is then 0, and the codeword is noted (R363). -/
def Injected (s t : State) : Prop :=
  (∀ o, o ≠ 0x1014 → t.reg o = s.reg o)
  ∧ (t.reg 0x1014 = s.reg 0x1014 ∨ t.reg 0x1014 = putFld (s.reg 0x1014) 31 31 0)
  ∧ t.err = { s.err with hurt := t.err.hurt }

/-- t differs from s in device memory, the 48-bit counters with their energy remainders, the fabric time, the command
queues and the count of free numbers only, but for an injection that is applied. -/
def OnlyMemory (s t : State) : Prop :=
  t = { s with mem := t.mem, cnt48 := t.cnt48, energyRem := t.energyRem, queues := t.queues, ftime := t.ftime, free := t.free,
               regs := t.regs, err := t.err } ∧ Injected s t

/-- The writes that put row r of n rows at byte r × row bytes of a byte string. -/
def Desc.rowsPut (d : Desc) (n : Nat) (row : Nat → List Byte) : List (Nat × List Byte) :=
  (List.range n).flatMap (fun r => d.put (r * d.rowB) (row r))

/-- u holds n rows in the byte string of d: every byte of row r, where rows fill their row bytes and no other byte of the
rows has the same address. -/
def HoldsRows (u : State) (d : Desc) (n : Nat) (row : Nat → List Byte) : Prop :=
  (∀ r, r < n → (row r).length = d.rowB) → ∀ r o x, r < n → (row r)[o]? = some x →
    (∀ r' o', r' < n → o' < d.rowB → (r', o') ≠ (r, o) →
      d.byteAt (r' * d.rowB + o') % addrMod ≠ d.byteAt (r * d.rowB + o) % addrMod) →
    u.rd8 (d.byteAt (r * d.rowB + o)) = x

/-- What a gather stores for an index: FILL, or the row it names, converted (R223, R228). -/
def State.gatherRow (s : State) (own : Nat) (sd dd : Desc) (x : Option Nat) : List Byte :=
  (convAny sd.fmt dd.fmt sd.d0 (match x with
    | none => sd.fillRow
    | some k => if sd.layout = 2 then match s.pagedRow own sd k with
        | .ok (some a) => s.rd a sd.rowB
        | _ => sd.fillRow
      else s.strRd sd (k * sd.rowB) sd.rowB)).1

/-- Row k of a source stands clear of some writes: they touch neither its bytes nor, for a PAGED source, its page-list
entry and the entry of the list's descriptor; and the page entry is good (R217, R228). -/
def State.rowClear (s : State) (own : Nat) (sd : Desc) (ws : List (Nat × List Byte)) (k : Nat) : Prop :=
  if sd.layout = 2 then
    (∀ o, o < 64 → ¬ touches ws (s.descAddr own sd.plist + o))
    ∧ (∀ o, o < 8 → ¬ touches ws ((s.desc own sd.plist).byteAt (8 * (k / (2 ^ sd.ps / sd.p1)) + o)))
    ∧ match s.pagedRow own sd k with
      | .error _ => False
      | .ok none => True
      | .ok (some a) => ∀ o, o < sd.rowB → ¬ touches ws (a + o)
  else ∀ o, o < sd.rowB → ¬ touches ws (sd.byteAt (k * sd.rowB + o))

/-- The control-port requests among the commands: the offset that is written or read, and KCTL_PRIV. -/
def requestOf : Instr → Option (Nat × Bool)
  | .doorbell w q _ p => if 63 < q ∨ 16 < w then none else some (win w + 4 * q, p)
  | .queueEnable q _ p => if 63 < q then none else some (kq q + 0xC, p)
  | .queueHold q _ p => if 63 < q then none else some (kq q + 0xC, p)
  | .queueKill q _ p => if 63 < q then none else some (kq q + 0xC, p)
  | .teardownGo c _ p => if 15 < c then none else some (kctx c + 8, p)
  | .teardownClear c _ p => if 15 < c then none else some (kctx c + 8, p)
  | .contextSave c _ p => if 15 < c then none else some (kctx c + 0xC, p)
  | .contextRestore c _ p => if 15 < c then none else some (kctx c + 0xC, p)
  | .genFloorWrite c _ p => if 15 < c then none else some (win c + 0x508, p)
  | .casRequest c _ p => if 16 < c then none else some (win c + 0xA00, p)
  | .casFree c _ p => if 16 < c then none else some (win c + 0xA14, p)
  | .casRef c _ p => if 16 < c then none else some (win c + 0xA18, p)
  | .reclaim _ p => some (0xA0400, p)
  | .eventQueueEnable e _ p => if 16 < e then none else some (kevq e + 8, p)
  | .eventRdWrite e window _ p => if 16 < e then none else some (if window then win e + 0xB10 else kevq e + 0x10, p)
  | .readClear off p => if off % 4 = 0 then some (off, p) else none
  | .counterLoRead off p => if off % 4 = 0 then some (off, p) else none
  | .registerWrite off _ p => if off % 4 = 0 then some (off, p) else none
  | .paceWrite _ p => some (0x10008, p)
  | .bootGo _ p => some (0x204, p)
  | .bootData _ p => some (0x210, p)
  | .bootAccept _ p => some (0x204, p)
  | .bootReject _ p => some (0x204, p)
  | .logPop _ p => some (0x100C, p)
  | .firstClear _ p => some (0x1010, p)
  | .errorInject _ p => some (0x1014, p)
  | .freezeClear _ p => some (0x1A028, p)
  | .traceEnable _ p => some (0x1A040, p)
  | .dump _ p => some (0x1A060, p)
  | _ => none

/-- Two ranges of device memory, inside the address space, that do not meet: n bytes at a, m bytes at b. -/
def apart (a n b m : Nat) : Prop := a + n ≤ 2 ^ 48 ∧ b + m ≤ 2 ^ 48 ∧ (a + n ≤ b ∨ b + m ≤ a)

/-- Frame g has been sent on a VC of some Pier, or waits there for credit. -/
def State.Sends (t : State) (vc : Nat) (g : Frame) : Prop :=
  ∃ p, (p, vc, g) ∈ t.net.sent ∨ (p, vc, g) ∈ t.net.queued

/-- A DP2 slab of a kind passes the checks 1 to 6 of R114 at Pier p. -/
structure Admits (s : State) (p k : Nat) (f : Frame) : Prop where
  pier  : s.pierUp p = true
  hdr   : f.hdrBad = false
  ver   : fVer f = 2
  kind  : fKind f = k
  fab   : s.rbit (win (fCtx f) + 0x500) 0 = true
  ctx   : s.rbit (kctx (fCtx f)) 0 = true
  key   : fKey f = s.reg (win (fCtx f) + 0x504)
  order : k = 1 ∨ k = 2 ∨ k = 3 ∨ k = 5 → s.seqCheck f = .inOrder
  tag   : k = 4 ∨ k = 7 ∨ k = 8 ∨ s.retired (fCtx f) (fGen f) = false

/-- A ring frame of a kind passes the checks 1 to 4 of R200 at Pier p. -/
structure RingAdmits (s : State) (p k : Nat) (f : Frame) : Prop where
  pier : s.pierUp p = true
  hdr  : f.hdrBad = false
  ok   : ringKindOk f = true
  kind : fKind f = k
  fab  : s.rbit (win (fCtx f) + 0x500) 0 = true
  ctx  : s.rbit (kctx (fCtx f)) 0 = true
  key  : fKey f = s.reg (win (fCtx f) + 0x504)

/-- A Catwalk frame of a kind is taken at Pier p (R371). -/
structure CatwalkAdmits (s : State) (p k : Nat) (f : Frame) : Prop where
  pier : s.pierUp p = true
  hdr  : f.hdrBad = false
  ok   : s.cwOk f = true
  kind : fKind f = k

end Sys2Proof.Machine
end

