-- ==== Sys2Proof/Certificates/Slice0/Obligations.lean ====
section
/-! DEFINITION. The statements for the provers. -/
section
open Sys2Proof Sys2Proof.Machine

-- the machine as a whole

/-- The model's queue: a step takes the command at the front and is exec of it on the state with the queue's rest. With nothing
waiting the block idles, which is the model's choice (log entry 4). -/
def Obligations.StepRunsTheFrontCommand : Prop :=
  (∀ (s : State) (c : Instr) (rest : List Instr),
      step { s with pending := c :: rest } = exec c { s with pending := rest })
  ∧ (∀ s : State, s.pending = [] → step s = .next s)

/-- After reset every store is in canonical form. -/
def Obligations.ResetStoresAreCanonical : Prop := State.reset.Canon

/-- Every step keeps every store in canonical form, so that equal contents stay equal data: memory lists 48-bit
addresses only, rising, and no byte that reads as an unlisted one; the same of the register words and the counters. -/
def Obligations.StepKeepsStoresCanonical : Prop :=
  ∀ s t : State, s.Canon → step s = .next t → t.Canon

/-- No command writes the model's queue or what is fixed in the part (R386 to R388), and none gives back a free number:
each undefined value is drawn from a number that was never used (log entry 7). -/
def Obligations.CommandsLeaveQueueAndPart : Prop :=
  ∀ (c : Instr) (s t : State), exec c s = .next t → t.pending = s.pending ∧ t.part = s.part ∧ s.free ≤ t.free

/-- The words that are not 0 at power-on, by R390; every other stored word is 0. The straps (KPACE, KRSTCAUSE) are 0b11
(log entry 1). No counter counts, no queue holds a command, the block is not ready, and device memory lists nothing. -/
def Obligations.ResetWords : Prop :=
  (∀ off, State.reset.reg off =
    if off = 0x100 then 0xF801
    else if off = 0x1000 then 0x00186400
    else if off = 0x10008 then 0x60000400
    else if off = 0x40000 ∨ off = 0x40040 ∨ off = 0x40080 ∨ off = 0x400C0 then 0x221C688F
    else if off = 0x60004 then 0xFFF
    else if (List.range 16).any (fun c => off == kctx c) then 0x00FF0000
    else if (List.range 17).any (fun c => off == win c + 0x10C) then 6
    else if (List.range 16).any (fun c => off == win c + 0x520) then 0x2000
    else if (List.range 16).any (fun c => off == win c + 0x800) then 0x7D0
    else if (List.range 17).any (fun c => off == win c + 0xA08) then 1
    else 0)
  ∧ (∀ off, State.reset.cnt off = 0) ∧ (∀ q, (State.reset.queue q).cmds = [])
  ∧ State.reset.rst.posted = false ∧ State.reset.mem = []

/-- What is stored reads back. A register word reads as it was last written, modulo 2^32; a 48-bit counter advances modulo
2^48 (R364); neither write reaches another word, another counter, or memory. Bytes written to memory read back, every other
byte reads as before, and addresses are taken modulo 2^48 (section Memory ports of 13_boundary_ports). -/
def Obligations.StoresReadBack : Prop :=
  (∀ (s : State) (a b v : Nat),
      (s.setReg a v).reg b = (if b = a then v % 2 ^ 32 else s.reg b)
      ∧ (s.setReg a v).cnt b = s.cnt b ∧ (s.setReg a v).rd8 b = s.rd8 b
      ∧ (s.cntAdd a v).cnt b = (if b = a then (s.cnt a + v) % 2 ^ 48 else s.cnt b)
      ∧ (s.cntAdd a v).reg b = s.reg b ∧ (s.cntAdd a v).rd8 b = s.rd8 b)
  ∧ (∀ (s : State) (a b : Nat) (bs : List Byte), bs.length ≤ 2 ^ 48 →
      (∀ k x, bs[k]? = some x → (s.wr a bs).rd8 (a + k) = x)
      ∧ ((∀ k, k < bs.length → (a + k) % 2 ^ 48 ≠ b % 2 ^ 48) → (s.wr a bs).rd8 b = s.rd8 b))


/-- What every request on the control port meets: before domain 1 is released nothing answers (R335); a request without
privilege that reaches no context window and no alias is counted in system counter 5 and has no other effect (R307); before
the block is ready only the registers that R337 names answer. Of any request the words are received in array 0x0B, where an
injection may be armed (R363); the answer and the packets of the one before are over. -/
def Obligations.ControlPortRefuses : Prop :=
  (∀ s : State, Injected s s.asked ∧ s.asked = { s with ctl := {}, evNew := [], regs := s.asked.regs, err := s.asked.err })
  ∧ ∀ (c : Instr) (off : Nat) (priv : Bool) (s : State), requestOf c = some (off, priv) →
    (s.ctlUp = false → exec c s = .next s)
    ∧ (s.ctlUp = true → priv = false → openTo off = false → exec c s = .next (s.asked.sysCount 5))
    ∧ (s.ctlUp = true → (priv = true ∨ openTo off = true) → s.rst.posted = false → earlyReg off = false →
        exec c s = .next s.asked)

-- commands of the queues: control commands and data movers

/-- What the completion of a command changes: that command alone, which waits for its commit with its effects (R33). Its
output bytes are undefined until the commit (R34): no byte outside its output regions changes, and the commit will write
what they held, or what the command has kept of them while they were undefined; the GOT of a FEED_ARM stands. -/
def Obligations.CompletionTouchesOneCommand : Prop :=
  ∀ (s t : State) (q : Nat) (i : U32) (acts : List Act) (c : Cmd), t = s.complete q i acts → s.findCmd q i = some c →
    OnlyMemory s t ∧ t.ftime = s.ftime
    ∧ (∃ hs kept, t.findCmd q i = some { c with phase := .complete, ran := true, acts := c.acts ++ hs ++ acts, saved := kept }
        ∧ (c.op ≠ 0x29 → c.saved = [] → hs = c.wrote.map (fun x => Act.write x.1 (s.rd x.1 x.2)))
        ∧ (c.op ≠ 0x29 → c.saved ≠ [] → c.wrote ≠ [] → hs = c.saved.map (fun x => Act.write x.1 x.2) ∧ kept = [] ∧ t.mem = s.mem)
        ∧ (c.op = 0x29 ∨ c.wrote = [] → hs = [] ∧ kept = c.saved ∧ t.mem = s.mem))
    ∧ (∀ a, (∀ x ∈ c.wrote, ∀ k, k < x.2 → (x.1 + k) % addrMod ≠ a % addrMod) → t.rd8 a = s.rd8 a)
    ∧ (∀ j, j ≠ i → t.findCmd q j = s.findCmd q j) ∧ (∀ p, p ≠ q → t.queue p = s.queue p)

/-- NOP, WAIT and SIGNAL are complete at once, FENCE once every command that it fences has committed, SKIP_IF once TAIL
has passed its window (R41 to R43); MARK and TRIGGER leave their record and trigger to their commit, a lead of 0 counting
as 10 (R378, R379). -/
def Obligations.ControlCommandsComplete : Prop :=
  ∀ (s : State) (q : Nat) (i : U32) (c : Cmd),
    (Runs s q i 0x00 c → exec (.nop q i) s = .next (s.complete q i []))
    ∧ (Runs s q i 0x01 c → exec (.wait q i) s = .next (s.complete q i []))
    ∧ (Runs s q i 0x02 c → exec (.signal q i) s = .next (s.complete q i []))
    ∧ (Runs s q i 0x03 c → (∀ p ∈ c.fence, s.committed p.1 p.2 = true) → exec (.fence q i) s = .next (s.complete q i []))
    ∧ (Runs s q i 0x04 c → fld (c.s 1) 15 8 < (u32 (s.reg (kq q + 0x14)) - c.idx).toNat →
        exec (.skipIf q i) s = .next (s.complete q i []))
    ∧ (Runs s q i 0x06 c → exec (.mark q i) s = .next (s.complete q i [.mark (c.s 0) (bitOf (c.s 1) 0)]))
    ∧ (Runs s q i 0x07 c → exec (.trigger q i) s = .next (s.complete q i
        [.trigger (fld (c.s 0) 15 0) (if fld (c.s 1) 9 0 = 0 then 10 else fld (c.s 1) 9 0) (bitOf (c.s 0) 16)]))

/-- COPY writes S0 rows of DST, each the source bytes that R217 and R219 name, converted (R221) or passed through function
S5 (R237), and nothing else of memory. What it reads and writes in place stands in memory again while it runs (R34). -/
def Obligations.CopyWritesItsRows : Prop :=
  ∀ (s v : State) (q : Nat) (i : U32) (c : Cmd) (sd dd : Desc) (row : Nat → List Byte), Runs s q i 0x30 c →
    v = s.shown q i c → sd = v.dsc (s.owner q) c 1 → dd = v.dsc (s.owner q) c 2 →
    (row = fun r => if c.s 5 = 0 then (convAny sd.fmt dd.fmt dd.d0 (v.copyRow sd dd (c.s 3) (c.s 4) r)).1
      else (v.fuRow (c.fuB.getD 0) (c.s 5) sd.fmt dd.fmt dd.d0 (v.copyRow sd dd (c.s 3) (c.s 4) r)).1) →
    ∃ (u : State) (acts : List Act), exec (.copy q i) s = .next (u.complete q i acts) ∧ OnlyMemory v u ∧ u.queues = v.queues
      ∧ (∀ a, ¬ touches (dd.rowsPut (c.s 0) row) a → u.rd8 a = v.rd8 a) ∧ HoldsRows u dd (c.s 0) row

/-- GATHER and PAGED_GATHER write S0 rows of DST: the source row that each index names, or FILL for an index out of
bounds or a page that is not valid, converted (R223, R224, R228); nothing else of memory but what they keep, which
stands there again (R34). -/
def Obligations.GatherWritesItsRows : Prop :=
  ∀ (s v : State) (q : Nat) (i : U32) (c : Cmd) (op : Nat) (k : Instr) (sd dd : Desc) (ix : List (Option Nat))
    (row : Nat → List Byte), (op = 0x31 ∧ k = .gather q i ∨ op = 0x34 ∧ k = .pagedGather q i) → Runs s q i op c →
    v = s.shown q i c → sd = v.dsc (s.owner q) c 1 → dd = v.dsc (s.owner q) c 3 →
    ix = v.indices (v.dsc (s.owner q) c 2) (c.s 0) sd.rows →
    (row = fun r => v.gatherRow (s.owner q) sd dd (ix.getD r none)) →
    (∀ x, some x ∈ ix → v.rowClear (s.owner q) sd (dd.rowsPut (c.s 0) row) x) →
    ∃ (u : State) (acts : List Act), exec k s = .next (u.complete q i acts) ∧ OnlyMemory v u ∧ u.queues = v.queues
      ∧ (∀ a, ¬ touches (dd.rowsPut (c.s 0) row) a → u.rd8 a = v.rd8 a) ∧ HoldsRows u dd (c.s 0) row

/-- SCATTER writes, for each index in bounds, the converted source row j to the row it names, and the last j that names a
row wins (R223, R225). SCATTER_ACC stores to the rows that its indices in bounds name; with one index alone in bounds, each
element there is the sum of what stood and of the source's (R226). Neither writes anything else of memory, where what it keeps
stands again (R34). -/
def Obligations.ScattersStoreNamedRows : Prop :=
  (∀ (s v : State) (q : Nat) (i : U32) (c : Cmd) (sd dd : Desc) (ix : List (Option Nat)) (row : Nat → List Byte),
      Runs s q i 0x32 c → v = s.shown q i c → sd = v.dsc (s.owner q) c 1 → dd = v.dsc (s.owner q) c 3 →
      ix = v.indices (v.dsc (s.owner q) c 2) (c.s 0) dd.rows →
      (row = fun j => (convAny sd.fmt dd.fmt sd.d0 (v.strRd sd (j * sd.rowB) sd.rowB)).1) →
      ∃ (u : State) (acts : List Act), exec (.scatter q i) s = .next (u.complete q i acts) ∧ OnlyMemory v u ∧ u.queues = v.queues
        ∧ (∀ a, ¬ touches ((scatterPairs ix).flatMap (fun p => dd.put (p.2 * dd.rowB) (row p.1))) a → u.rd8 a = v.rd8 a)
        ∧ ((∀ j, (row j).length = dd.rowB) → ∀ j x o b, ix[j]? = some (some x) → (row j)[o]? = some b →
            (∀ j', j < j' → ix[j']? ≠ some (some x)) →
            (∀ y o', some y ∈ ix → o' < dd.rowB → (y, o') ≠ (x, o) →
              dd.byteAt (y * dd.rowB + o') % addrMod ≠ dd.byteAt (x * dd.rowB + o) % addrMod) →
            u.rd8 (dd.byteAt (x * dd.rowB + o)) = b))
  ∧ (∀ (s v : State) (q : Nat) (i : U32) (c : Cmd) (sd dd : Desc) (ps : List (Nat × Nat)) (n : Nat), Runs s q i 0x33 c →
      v = s.shown q i c → sd = v.dsc (s.owner q) c 1 → dd = v.dsc (s.owner q) c 3 → n = dd.d0 * ebOf dd.fmt →
      ps = scatterPairs (v.indices (v.dsc (s.owner q) c 2) (c.s 0) dd.rows) →
      ∃ (u : State) (acts : List Act), exec (.scatterAcc q i) s = .next (u.complete q i acts) ∧ OnlyMemory v u ∧ u.queues = v.queues
        ∧ (∀ a, ¬ touches (ps.flatMap (fun p => dd.put (p.2 * dd.rowB) (List.replicate n 0))) a → u.rd8 a = v.rd8 a)
        ∧ (∀ j x, ps = [(j, x)] → u.mem = (v.strWr dd (x * dd.rowB) ((List.range dd.d0).flatMap (fun e =>
            natLe (ebOf dd.fmt) (accEl dd.fmt ((rowEls dd.fmt dd.d0 (v.strRd dd (x * dd.rowB) dd.rowB)).getD e 0)
              ((rowEls sd.fmt sd.d0 (v.strRd sd (j * sd.rowB) sd.rowB)).getD e 0))))).mem))

/-- FU_APPLY writes S0 rows of DST, each the source row passed through function S3 of the bank bound at its start and
rounded to DST's format (R237, R249), and nothing else of memory. -/
def Obligations.FuApplyWritesItsRows : Prop :=
  ∀ (s : State) (q : Nat) (i : U32) (c : Cmd) (sd dd : Desc) (row : Nat → List Byte), Runs s q i 0x4D c →
    sd = s.dsc (s.owner q) c 1 → dd = s.dsc (s.owner q) c 2 →
    (row = fun r => (s.fuRow (c.fuB.getD 0) (c.s 3) sd.fmt dd.fmt dd.d0 (s.strRd sd (r * sd.rowB) sd.rowB)).1) →
    ∃ (u : State) (acts : List Act), exec (.fuApply q i) s = .next (u.complete q i acts) ∧ OnlyMemory s u ∧ u.queues = s.queues
      ∧ (∀ a, ¬ touches (dd.rowsPut (c.s 0) row) a → u.rd8 a = s.rd8 a) ∧ HoldsRows u dd (c.s 0) row

-- tables: maps, FU banks, descriptors, pools, digests

/-- MAP_LOAD stores a sound image's header and entries in the shadow bank of its slot and in nothing else, and leaves the
mark of a loaded bank to its commit; an image that breaks R91 or R92 faults (R93). FU_LOAD of sound seed words fills the
shadow bank from index S2 on and leaves the live bank (R243); a word that breaks R242 ends it with E_BAD_FIELD. FU_LOAD of
sound records does the same with its records, a record of zeros emptying its slot; one that breaks R240 to R242 ends it with
E_BAD_FIELD. -/
def Obligations.LoadsFillShadowBanks : Prop :=
  (∀ (s : State) (q : Nat) (i : U32) (c : Cmd) (sl sh : Nat) (d : Desc), Runs s q i 0x4A c →
      s.layerSlot (s.owner q) (c.s 1) = some sl → sh = 1 - s.mapEpoch sl % 2 → d = s.dsc (s.owner q) c 2 →
      (s.mapImgChecks (s.owner q) c = none → ∃ u : State, exec (.mapLoad q i) s = .next (u.complete q i [.mapLoaded sl])
        ∧ OnlyMemory s u ∧ u.queues = s.queues
        ∧ (∀ a, ¬ touches [(s.mapLine sl sh, s.strRd d 0 64), (s.mapEnts sl sh, s.strRd d 64 (16 * c.s 0))] a → u.rd8 a = s.rd8 a)
        ∧ (∀ k, k < 16 * c.s 0 → 16 * c.s 0 ≤ 2 ^ 48 → u.rd8 (s.mapEnts sl sh + k) = s.rd8 (d.byteAt (64 + k))))
      ∧ (∀ f, s.mapImgChecks (s.owner q) c = some f → exec (.mapLoad q i) s = .next (s.fault q i 0x4A f)))
  ∧ (∀ (s : State) (q : Nat) (i : U32) (c : Cmd) (d : Desc), Runs s q i 0x4C c → d = s.dsc (s.owner q) c 3 →
      (bitOf (c.s 1) 0 = true → (∀ k, k < c.s 0 → fuSeedOk (leNat (s.strRd d (8 * k) 8)) = true) →
        ∃ u : State, exec (.fuLoad q i) s = .next (u.complete q i [.fuLoaded]) ∧ u.mem = s.mem
          ∧ u.fuBank u.fuLive = s.fuBank s.fuLive
          ∧ ∀ k, k < c.s 0 → FMap.get 0 (u.fuBank (1 - u.fuLive)).seed (c.s 2 + k) = BitVec.ofNat 36 (leNat (s.strRd d (8 * k) 8)))
      ∧ (bitOf (c.s 1) 0 = true → (∃ k, k < c.s 0 ∧ fuSeedOk (leNat (s.strRd d (8 * k) 8)) = false) →
        ∃ u : State, exec (.fuLoad q i) s = .next (u.fault q i 0x4C (flt eBadField 14)) ∧ u.fuBank u.fuLive = s.fuBank s.fuLive)
      ∧ (bitOf (c.s 1) 0 = false → (∀ k, k < c.s 0 → fuRecOk (s.strRd d (1024 * k) 1024) = true) →
        ∃ u : State, exec (.fuLoad q i) s = .next (u.complete q i [.fuLoaded]) ∧ u.mem = s.mem
          ∧ u.fuBank u.fuLive = s.fuBank s.fuLive
          ∧ ∀ k x, k < c.s 0 → x = s.strRd d (1024 * k) 1024 →
            FMap.get [] (u.fuBank (1 - u.fuLive)).recs (c.s 2 + k) = if x.all (fun b => b == 0) then [] else x)
      ∧ (bitOf (c.s 1) 0 = false → (∃ k, k < c.s 0 ∧ fuRecOk (s.strRd d (1024 * k) 1024) = false) →
        ∃ u : State, exec (.fuLoad q i) s = .next (u.fault q i 0x4C (flt eBadField 14)) ∧ u.fuBank u.fuLive = s.fuBank s.fuLive))


/-- PUBLISH is complete at once and flips at its commit (R95). The flip of a slot whose shadow map is loaded and not being
loaded makes its epoch one more and its map live, and clears the mark; the flip of the FU tables does the same for their
epoch and clears the mark of damage (R244, R248). What is not loaded stays. -/
def Obligations.PublishFlipsLoadedBanks : Prop :=
  ∀ (s : State) (q : Nat) (i : U32) (c : Cmd) (sl : Nat),
    (Runs s q i 0x4B c → exec (.publish q i) s = .next (s.complete q i [.publish (fld (c.s 0) 7 0) (fld (c.s 0) 16 8)
      (bitOf (c.s 1) 0) (bitOf (c.s 1) 1) (bitOf (c.s 1) 2)]))
    ∧ (sl < 256 → s.mapStat sl 1 = true → s.mapLoading sl = false →
        (s.flipSlot true false sl).mapEpoch sl = (s.mapEpoch sl + 1) % 2 ^ 32
        ∧ (s.flipSlot true false sl).mapStat sl 0 = true ∧ (s.flipSlot true false sl).mapStat sl 1 = false)
    ∧ (s.mapStat sl 1 = false → s.flipSlot true false sl = s)
    ∧ (s.rbit 0x80004 1 = true → s.anyStarted (fun _ x => x.op == 0x4C) = false →
        s.flipFu.reg 0x80000 = (s.reg 0x80000 + 1) % 2 ^ 32 ∧ s.flipFu.rbit 0x80004 1 = false
        ∧ s.flipFu.rbit 0x80004 3 = false ∧ s.flipFu.rbit 0x80004 0 = true)
    ∧ (s.rbit 0x80004 1 = false → s.flipFu = s)

/-- DESC_CREATE completes with the entry that its start prepared: words 0 to 13 of the image, then EXTENT, HALF and
VALID (R213, R214); the stored entry reads back as that descriptor, where the descriptor cache holds no earlier copy
(R208). DESC_RETIRE waits, changing nothing, while a command binds a handle of its range (R216); then it completes, and
its commit clears bit 31 of word 15 of each entry that it marked. -/
def Obligations.DescriptorsAreStoredAndRetired : Prop :=
  ((∀ (s : State) (q : Nat) (i : U32) (c : Cmd), Runs s q i 0x48 c → ∃ u : State,
      exec (.descCreate q i) s = .next (u.complete q i []) ∧ OnlyMemory s u ∧ u.queues = s.queues ∧ u.mem = s.mem)
    ∧ (∀ (s : State) (q : Nat) (c : Cmd) (a : Nat) (ws : List Nat) (d : Desc), a = c.s 1 + 2 ^ 32 * c.s 2 →
        ws = (List.range 16).map (fun k => s.rd32 (a + 4 * k)) → d = descOf (fun k => ws.getD k 0) →
        s.descChecks (s.owner q) c (fun k => ws.getD k 0) = none →
        startDescCreate s q c = .go s { c with acts := [.write (s.descAddr (s.owner q) (c.h 0))
          (wordsBytes (ws.take 14) ++ natLe 8 (d.extent % 2 ^ 48 + 2 ^ 62 * b2n d.isHalf + 2 ^ 63)), .descSync (c.h 0) 1] })
    ∧ (∀ (s : State) (own h x : Nat) (half : Bool) (ws : List Nat), ws.length = 14 → (∀ w ∈ ws, w < 2 ^ 32) → x < 2 ^ 48 →
        (∀ y ∈ s.dcache, y.own = own → y.h ≠ h) →
        (s.wr (s.descAddr own h) (wordsBytes ws ++ natLe 8 (x + 2 ^ 62 * b2n half + 2 ^ 63))).desc own h
          = { descOf (fun k => ws.getD k 0) with ext := x, half := half, valid := true }))
  ∧ (∀ (s : State) (q : Nat) (i : U32) (c : Cmd) (hs : List Nat), Runs s q i 0x49 c →
      hs = (List.range (min (c.s 1) (s.reg (kdsc (s.owner q) + 8) - c.h 0))).map (fun k => c.h 0 + k) →
      (s.anyBinds (s.owner q) hs = true → exec (.descRetire q i) s = .next s)
      ∧ (s.anyBinds (s.owner q) hs = false → exec (.descRetire q i) s = .next (s.complete q i (c.retire.flatMap (fun h =>
          [.write (s.descAddr (s.owner q) h + 60) (natLe 4 (putFld (s.rd32 (s.descAddr (s.owner q) h + 60)) 31 31 0)),
            .descSync h 1])))))

/-- POOL_CONFIG writes the metadata of n buffers, each free and unreferenced, with buffer 0 on top of the free stack, and
nothing else of memory; the pool's registers change at its commit (R264, R265). DIGEST_BEGIN hashes its regions and leaves
the session's opening to its commit; DIGEST_END of an open session writes the digest record to its region, to nothing else,
and leaves the closing to its commit (R173, R174). GROUP_TABLE of an expert table writes the header and one entry for each
feed-list entry (R135 to R137), and nothing else of memory. -/
def Obligations.TableCommandsWriteTheirTables : Prop :=
  (∀ (s : State) (q : Nat) (i : U32) (c : Cmd) (n mt : Nat), Runs s q i 0x4E c → n = c.s 0 → mt = c.s 4 + 2 ^ 32 * c.s 5 →
      ∃ u : State, exec (.poolConfig q i) s = .next (u.complete q i [.pool (fld (c.s 1) 2 0)
          (u32 (n + fld (c.s 1) 12 8 * 2 ^ 21 + b2n (bitOf (c.s 1) 16) * 2 ^ 26)) (u32 (c.s 2)) (u32 (c.s 3)) (u32 (c.s 4))
          (u32 (c.s 5)) (u32 (c.s 6)) (u32 n)])
        ∧ OnlyMemory s u ∧ u.queues = s.queues
        ∧ (∀ k, k < n → u.rd32 (mt + 4 * k) = 0 ∧ u.rd32 (mt + 4 * n + 4 * k) = n - 1 - k)
        ∧ (∀ a, (∀ k, k < 8 * n → (mt + k) % addrMod ≠ a % addrMod) → u.rd8 a = s.rd8 a))
  ∧ (∀ (s : State) (q : Nat) (i : U32) (c : Cmd) (str : Nat → List Byte),
      (str = fun h => s.strRd (s.desc (s.owner q) h) 0 (s.desc (s.owner q) h).len) →
      (Runs s q i 0x50 c → ∃ u : State, exec (.digestBegin q i) s = .next (u.complete q i [.digestOpen (fld (c.s 1) 1 0)
          ((c.regions 2).map (fun h => regionDigest (str h))) (((c.regions 2).map (fun h => (str h).length)).sum)])
        ∧ OnlyMemory s u ∧ u.queues = s.queues ∧ u.mem = s.mem)
      ∧ (∀ d, Runs s q i 0x51 c →
          s.digests.find? (fun d => d.ctx == s.owner q && d.sid == fld (c.s 1) 1 0 && d.q == q) = some d →
          ∃ u : State, exec (.digestEnd q i) s = .next (u.complete q i [.digestClose (fld (c.s 1) 1 0)])
            ∧ OnlyMemory s u ∧ u.queues = s.queues
            ∧ u.mem = (s.strWr (s.dsc (s.owner q) c 2) 0 (s.digestRecord (s.owner q) d ((c.regions 3).map str))).mem))
  ∧ (∀ (s : State) (q : Nat) (i : U32) (c : Cmd) (fl got : Desc) (ent : Nat → List Byte), Runs s q i 0x28 c →
      fl = s.dsc (s.owner q) c 1 → got = s.dsc (s.owner q) c 2 → bitOf (c.s 3) 0 = false →
      (ent = fun k => gotEntry (fun j => s.flWord fl k j) false 0
        (pitchOf (rowBytes (wireFmt (fld (s.flWord fl k 2) 19 17)) (elemsOf (s.flWord fl k 2))))
        ((s.desc (s.owner q) (fld (s.flWord fl k 6) 19 0)).p1 % 2 ^ 32) 0
        (s.desc (s.owner q) (fld (s.flWord fl k 6) 19 0)).base 0) →
      ∃ u : State, exec (.groupTable q i) s = .next (u.complete q i []) ∧ OnlyMemory s u ∧ u.queues = s.queues
        ∧ u.mem = ((s.strWr got 0 (wordsBytes ([c.s 0] ++ List.replicate 15 0))).puts
            ((List.range (c.s 0)).flatMap (fun k => got.put (64 + 64 * k) (ent k)))).mem
        ∧ (∀ a, ¬ touches (got.put 0 (wordsBytes ([c.s 0] ++ List.replicate 15 0))
            ++ (List.range (c.s 0)).flatMap (fun k => got.put (64 + 64 * k) (ent k))) a → u.rd8 a = s.rd8 a))

-- the units: group tables, Camber, the Ledger, routing


/-- CAMBER_ACCUM completes in every state in which it runs, with the addition for its commit, and writes no memory
itself; at commit every count of the slot is the sum, held at 2^32 - 1 (R203). CAMBER_UPDATE (R204): one that loads
(mode 2) stores the biases of its buffer in the shadow bias banks of its slots and completes; one that is local copies
the counts to its buffer, writes the new biases of them to the shadow bias banks, and completes, with the counts cleared
at its commit. Neither touches anything but memory and what the command keeps of its outputs (R34). One that reduces
over a group of one chip, whose segments are all final, completes at its own run, shown with the trace off. -/
def Obligations.CamberCommandsComplete : Prop :=
  ((∀ (s : State) (q : Nat) (i : U32) (c : Cmd) (d : Desc), Runs s q i 0x3C c → d = s.dsc (s.owner q) c 1 →
        ∃ u : State, exec (.camberAccum q i) s = .next (u.complete q i (match s.accumSlot (s.owner q) c with
            | some sl => [.camberAdd sl (if (s.destHdr d).t = 0 then []
                else (List.range (s.destHdr d).e).map (fun j => s.str32 d (destEcnt + 4 * j)))]
            | none => []))
          ∧ OnlyMemory s u ∧ u.queues = s.queues ∧ u.mem = s.mem)
    ∧ (∀ (s : State) (own sl : Nat) (cs : List Nat) (j : Nat), cs.length ≤ 65536 → j < cs.length →
        (s.camberAddAct own sl cs).rd32 (s.cmbSlot sl + 4 * j)
          = min (s.rd32 (s.cmbSlot sl + 4 * j) + cs.getD j 0) 0xFFFFFFFF))
  ∧ (∀ (s : State) (q : Nat) (i : U32) (c : Cmd), Runs s q i 0x3D c →
      (fld (c.s 1) 1 0 = 2 → ∃ u : State, exec (.camberUpdate q i) s = .next (u.complete q i
          ((s.camberSlots (s.owner q) c).map (fun x => .biasWritten x.1))) ∧ OnlyMemory s u ∧ u.queues = s.queues
        ∧ (∀ sl e, s.camberSlots (s.owner q) c = [(sl, e)] →
            u.mem = (s.wr (s.shadowBias sl) (s.strRd (s.dsc (s.owner q) c 6) 0 (4 * e))).mem))
      ∧ (∀ sl buf b, fld (c.s 1) 1 0 ≠ 2 → bitOf (c.s 1) 2 = true → sl = s.camberSlots (s.owner q) c →
          buf = s.dsc (s.owner q) c 6 → b = (s.strWr buf 0 (s.camberCounts sl)).unhide q i → b.camberSlots (s.owner q) c = sl →
          b.dsc (s.owner q) c 6 = buf →
          ∃ u : State, exec (.camberUpdate q i) s = .next (u.complete q i (sl.flatMap (fun p =>
              [.write (b.cmbSlot p.1) (List.replicate (4 * p.2) 0), .biasWritten p.1])))
            ∧ OnlyMemory b u ∧ u.queues = b.queues
            ∧ u.mem = (b.biasPass (fld (c.s 1) 1 0) (kOf32 (c.s 4)) (kOf32 (c.s 5))
                ((List.range ((sl.map (fun p => p.2)).sum)).map (fun k => b.str32 buf (4 * k))) 0 sl).mem)
      ∧ (∀ slot r, fld (c.s 1) 1 0 ≠ 2 → bitOf (c.s 1) 2 = false → s.rings = [(slot, r)] → r.q = q → r.idx = i →
          r.started = true → r.reported = none → r.decided = none → r.finals = r.want → r.tx = [] →
          r.members = [s.chip] → s.group r.ctx r.gid = .ok [s.chip] →
          s.findLead r.ctx r.gid r.gseq r.attempt = none → s.rbit 0x1A040 0 = false →
          ∃ (t : State) (y : Cmd), exec (.camberUpdate q i) s = .next t ∧ t.findCmd q i = some y ∧ y.phase = .complete))

/-- A LEDGER_STEP build never selects more tokens than its budget B, and the best-effort ones among them leave the
reserve free for latency-critical requests (R293). The Ledger commands complete, with the table entries for their
commit: LEDGER_ADMIT writes nothing before it, then the entry of each record that it takes, in the lowest free slots,
with UNDO_OK cleared and REFUSED grown (R292), and beside the table only its intake slot; a build writes only its work
list and the two index lists it names, and at commit every active entry with its U_ fields saved (R295); an undo writes
nothing before its commit, which restores the saved entries, takes one from SSEQ and clears UNDO_OK (R297);
LEDGER_RETIRE writes only OUT, and its commit zeroes the entries that it frees, recounts, and clears UNDO_OK (R298). -/
def Obligations.LedgerCommandsComplete : Prop :=
  (∀ (ents : List (Nat × List Nat)) (b res smax : Nat),
      (build ents b res smax).2.used ≤ b
      ∧ (build ents b res smax).2.used = ((build ents b res smax).2.sel.map (fun p => lTok p.2.1)).sum
      ∧ (build ents b res smax).2.beu ≤ b - res
      ∧ (∀ p ∈ (build ents b res smax).2.sel, (p.1, p.2.1) ∈ ents))
  ∧ (∀ (s : State) (q : Nat) (i : U32) (c : Cmd) (own : Nat) (used : List (Nat × List Nat)) (act done : List (Nat × List Nat) → Nat),
      own = s.owner q → used = s.ldgUsed own →
      (act = fun l => (l.filter (fun p => lState p.2 == 1)).length) → (done = fun l => (l.filter (fun p => lState p.2 == 2)).length) →
      (∀ (d : Desc) (x : AdmitSt), Runs s q i 0x40 c → d = s.dsc own c 1 →
        x = (List.range (c.s 0)).foldl (fun x k => x.take ((List.range 8).map (fun j => s.str32 d (64 + 32 * k + 4 * j))))
          { rids := used.map (fun p => lRid p.2), free := (List.range 4096).filter (fun e => !(used.map (fun p => p.1)).contains e),
            aseq := s.ldgHdr own 1 } →
        ∃ (u : State) (rest : List Act) (full : Nat), exec (.ledgerAdmit q i) s = .next (u.complete q i
            (x.ents.map (fun p => s.ldgPut own p.1 p.2) ++ [s.ldgHdrPut own 1 [x.aseq, act used + x.ents.length],
              s.ldgHdrPut own 4 [0, min (s.ldgHdr own 5 + full) 0xFFFFFFFF], .stick 0xD08 (b2n (full != 0))] ++ rest))
          ∧ full = (x.ans.filter (fun a => a.2 == 1)).length
          ∧ (∀ y ∈ rest, ∃ k bs p, p ∈ d.put k bs ∧ y = .write p.1 p.2)
          ∧ OnlyMemory s u ∧ u.queues = s.queues ∧ u.mem = s.mem)
      ∧ (∀ (saved : Nat × List Nat → Bool) (left : List (Nat × List Nat)), Runs s q i 0x41 c → bitOf (c.s 5) 16 = true →
        (saved = fun p => lState p.2 == 1 || (lState p.2 == 2 && p.2.getD 7 0 == s.ldgHdr own 0)) →
        left = (used.filter saved).map (fun p => (p.1, ldgUndone p.2)) ++ used.filter (fun p => !saved p) →
        ∃ u : State, exec (.ledgerStep q i) s = .next (u.complete q i
            ((used.filter saved).map (fun p => s.ldgPut own p.1 (ldgUndone p.2))
              ++ [s.ldgHdrPut own 0 [(s.ldgHdr own 0 + 2 ^ 32 - 1) % 2 ^ 32], s.ldgHdrPut own 2 [act left, done left, 0],
                .stick 0xD08 8]))
          ∧ OnlyMemory s u ∧ u.queues = s.queues ∧ u.mem = s.mem)
      ∧ (∀ r sseq, Runs s q i 0x41 c → bitOf (c.s 5) 16 = false → r = build used (c.s 0) (c.s 4) (fld (c.s 5) 15 0) →
        sseq = (s.ldgHdr own 0 + 1) % 2 ^ 32 →
        ∃ (u : State) (acts : List Act) (rest : List Nat), exec (.ledgerStep q i) s = .next (u.complete q i acts)
          ∧ OnlyMemory s u ∧ u.queues = s.queues ∧ rest.length = 10 + 8 * r.2.sel.length
          ∧ (∀ p ∈ r.2.sel, s.ldgPut own p.1 (ldgBuilt p.2.1 true sseq) ∈ acts)
          ∧ (∀ p ∈ r.2.pass, s.ldgPut own p.1 (ldgBuilt p.2 false sseq) ∈ acts) ∧ s.ldgHdrPut own 0 [sseq] ∈ acts
          ∧ u.mem = (let s1 := s.strWr (s.dsc own c 1) 0 (wordsBytes ([r.2.used, r.2.sel.length,
                sseq, r.1.used, r.2.beu, r.2.pass.length] ++ rest))
              let s2 := if c.h 2 = 0 then s1 else s1.strWr (s.dsc own c 2) 0 (r.2.sel.flatMap (fun p =>
                (List.range (lTok p.2.1)).flatMap (fun t => natLe 4 (p.2.1.getD 5 0 + t))))
              if c.h 3 = 0 then s2 else s2.strWr (s.dsc own c 3) 0 (r.2.sel.flatMap (fun p =>
                (List.range (lTok p.2.1)).flatMap (fun _ => natLe 4 (p.1 + (lDone p.2.1 + 1) * 2 ^ 12))))).mem)
      ∧ (∀ (hit : List (Nat × Option (Nat × List Nat))) (gone : List Nat) (left : List (Nat × List Nat)), Runs s q i 0x42 c →
        hit = (if fld (c.s 1) 1 0 = 1 then (List.range (c.s 0)).map (fun k => (s.str32 (s.dsc own c 2) (4 * k),
            used.find? (fun p => lRid p.2 == s.str32 (s.dsc own c 2) (4 * k))))
          else (used.filter (fun p => fld (c.s 1) 1 0 != 0 || lState p.2 == 2)).map (fun p => (lRid p.2, some p))) →
        gone = hit.flatMap (fun h => (h.2.map (fun p => p.1)).toList) → left = used.filter (fun p => !gone.contains p.1) →
        ∃ u : State, exec (.ledgerRetire q i) s = .next (u.complete q i (gone.map (fun e => s.ldgPut own e (List.replicate 16 0))
            ++ [s.ldgHdrPut own 2 [act left, done left, 0]]))
          ∧ OnlyMemory s u ∧ u.queues = s.queues
          ∧ u.mem = (s.strWr (s.dsc own c 3) 0 (wordsBytes ([hit.length, 0, 0, 0] ++ hit.flatMap (fun h =>
              h.2.elim [h.1, 0xFFFF, 0, 0] (fun p => [h.1, p.1, lSteps p.2 + lDone p.2 * 2 ^ 16, 0]))))).mem))


-- routing

/-- What the sort keeps and where (R82, R99): buckets in strictly rising key order, each with the first C records of its
key in token order and none empty; every other record is dropped, and no record is lost. -/
def Obligations.SortKeepsFirstOfEachBucket : Prop :=
  ∀ (c : Nat) (rs : List KRec),
    ((sortRecs c rs).buckets.map (fun b => b.key)).Pairwise (· < ·)
    ∧ (∀ b ∈ (sortRecs c rs).buckets, b.recs ≠ []
        ∧ b.recs = (rs.filter (fun r => !r.nolive && r.key == b.key)).take c)
    ∧ (∀ r ∈ rs, r.nolive = false → 0 < c → ∃ b ∈ (sortRecs c rs).buckets, b.key = r.key)
    ∧ (((sortRecs c rs).buckets.map (fun b => b.recs.length)).sum + (sortRecs c rs).dropped.length = rs.length)

/-- SCORE_SELECT, once every block of its job is placed and the columns before its own have come, scores its columns of
every row (R45, R73): the rows of its job grow by them, and nothing else changes but counters (an armed injection may be
applied, R363). SEAL, once every row has its columns, selects the experts of every row (R68, R74), keeps the selections
in its job and stores selection records or group records, as the command asks, and nothing else. ADMIT of a sealed job
takes its selections, gives each the replica of the bound map and fixes C (R79, R89, R103). SORT of an admitted job with
rows writes the route records and DEST of its selections and nothing else, and ends the job at its commit (R99 to R101,
R104). -/
def Obligations.SeparateFormFillsAndEndsTheJob : Prop :=
  ((∀ (s : State) (q : Nat) (i : U32) (c : Cmd) (j : Job) (own : Nat), Runs s q i 0x11 c → own = s.owner q →
        s.findJob own (c.s 2) = some j →
        (∀ b ∈ s.passBlocks j.t 0, s.placed { pipe := 0, ctx := own, job := true, q := j.q } b = true) →
        (∀ x ∈ j.rows, c.s 3 ≤ x.length) →
        ∃ (u : State) (acts : List Act), exec (.scoreSelect q i) s = .next (u.complete q i acts)
          ∧ u = { s with jobs := u.jobs, regWait := u.regWait, cnt48 := u.cnt48, energyRem := u.energyRem, ftime := u.ftime,
                         free := u.free, regs := u.regs, err := u.err } ∧ Injected s u
          ∧ u.findJob own (c.s 2) = some { j with rows := (List.range j.t).map (fun k =>
              if c.s 3 + c.s 4 ≤ (j.rows.getD k []).length then j.rows.getD k []
              else j.rows.getD k [] ++ (s.scoreRow (s.scoreEnv c.block j.stage j.fuB j.biasB)
                ((s.gRecs j.stage (s.dsc own c 6) 0 j.t).getD k default) (s.dsc own c 5) k (c.s 3) (c.s 4)).drop
                  ((j.rows.getD k []).length - c.s 3)) })
    ∧ (∀ (s : State) (q : Nat) (i : U32) (c : Cmd) (j : Job) (own : Nat) (sels : List Sel), Runs s q i 0x12 c →
        own = s.owner q → s.findJob own (c.s 0) = some j → (∀ x ∈ j.rows, j.block.cols j.stage ≤ x.length) →
        (sels = (List.range j.t).map (fun k => j.block.seal j.stage (s.fuBank (j.fuB.getD 0))
          ((if j.block.mulgw then s.gRecs j.stage (s.dsc own c 2) 0 j.t else []).getD k default) (j.rows.getD k []))) →
        ∃ (u : State) (acts : List Act), exec (.seal q i) s = .next (u.complete q i acts)
          ∧ u = { s with mem := u.mem, jobs := u.jobs, cnt48 := u.cnt48, energyRem := u.energyRem, ftime := u.ftime,
                         free := u.free, regs := u.regs, err := u.err } ∧ Injected s u
          ∧ u.findJob own (c.s 0) = some { j with sel := sels }
          ∧ u.mem = (s.puts (if j.stage = 1 then (List.range j.t).flatMap (fun k => (s.dsc own c 2).put (64 * k) (sels.getD k {}).gbytes)
              else if bitOf (c.s 1) 20 then (List.range j.t).flatMap (fun k => (s.dsc own c 1).put (64 * k) (sels.getD k {}).bytes)
              else [])).mem))
  ∧ ((∀ (s : State) (q : Nat) (i : U32) (c : Cmd) (j : Job) (own : Nat) (m : Nat × U32), Runs s q i 0x13 c →
        own = s.owner q → s.findJob own (c.s 0) = some j → bitOf (c.s 1) 20 = false → j.sel.length = j.t →
        m = c.mapB.getD (0, 0) →
        ∃ u : State, exec (.admitJob q i) s = .next (u.complete q i [.jobAdmitted])
          ∧ u = { s with jobs := u.jobs, mapLines := u.mapLines, cnt48 := u.cnt48, energyRem := u.energyRem, ftime := u.ftime,
                         free := u.free, regs := u.regs, err := u.err } ∧ Injected s u
          ∧ u.findJob own (c.s 0) = some { j with
              asel := j.sel, krecs := s.allRecs m.1 (m.2.toNat % 2) j.block.repl j.sel,
              cap := s.capOf j.block j.t m.1 (m.2.toNat % 2) })
    ∧ (∀ (s : State) (q : Nat) (i : U32) (c : Cmd) (j : Job) (own : Nat) (o : Sorted) (ws : List (Nat × List Byte)),
        Runs s q i 0x14 c → own = s.owner q → s.findJob own (c.s 0) = some j → j.t ≠ 0 → o = sortRecs j.cap j.krecs →
        ws = sortWrites s.chip ((j.mapB.getD (0, 0)).2.toNat) j.cap j.t j.block.e j.block.layer (s.dsc own c 1)
          (s.dsc own c 2) j.asel o →
        ∃ u : State, exec (.sort q i) s = .next (u.complete q i [.count 4 o.dropped.length, .jobEnd])
          ∧ OnlyMemory s u ∧ u.queues = s.queues ∧ u.mem = (s.puts ws).mem ∧ (∀ a, ¬ touches ws a → u.rd8 a = s.rd8 a)))


/-- ROUTE from memory, without group selection and in one pass, once every block has its region, scores, selects and sorts
at once: it writes the route records and DEST of its rows, frees its regions, and completes (R45, R60), shown where the
descriptor cache holds no entry that differs from memory (R208). -/
def Obligations.RouteWritesRecordsAndDest : Prop :=
  ∀ (s : State) (q : Nat) (i : U32) (c : Cmd) (own : Nat) (r : Rpb) (rows : List (List Score)) (sels : List Sel)
    (m : Nat × U32) (o : Sorted) (ws : List (Nat × List Byte)), Runs s q i 0x10 c → own = s.owner q →
    s.findRun q i = some { q := q, idx := i, ctx := own, stream := none, rows := List.replicate (c.s 0) [] } →
    c.stage = 0 → c.lmode = 2 → c.s 0 ≠ 0 → s.multiPass (c.s 0) = false → r = c.block →
    (∀ b ∈ s.passBlocks (c.s 0) 0, s.placed (c.region own q) b = true) →
    (∀ y ∈ s.dcache, y.own = own → y.words = s.descWords own y.h) →
    (rows = (List.range (c.s 0)).map (fun k => s.scoreRow (s.scoreEnv r 0 c.fuB c.biasB) default (s.dsc own c 4) k 0 (r.cols 0))) →
    (sels = (List.range (c.s 0)).map (fun k => r.seal 0 (s.scoreEnv r 0 c.fuB c.biasB).fu default (rows.getD k []))) →
    m = c.mapB.getD (0, 0) → o = sortRecs (s.capOf r (c.s 0) m.1 (m.2.toNat % 2)) (s.allRecs m.1 (m.2.toNat % 2) r.repl sels) →
    ws = sortWrites s.chip m.2.toNat (s.capOf r (c.s 0) m.1 (m.2.toNat % 2)) (c.s 0) r.e r.layer (s.dsc own c 2)
      (s.dsc own c 3) sels o →
    ∃ u : State, exec (.route q i) s = .next (u.complete q i (rowActs rows sels ++ [.count 4 o.dropped.length]))
      ∧ u = { s with mem := u.mem, cnt48 := u.cnt48, energyRem := u.energyRem, ftime := u.ftime, free := u.free,
                     mapLines := u.mapLines, tapRuns := u.tapRuns, regs := u.regs, err := u.err,
                     regions := s.regions.filter (fun x => x.job || !(x.q == q && x.idx == i)),
                     regWait := s.regWait.filter (fun x => x.job || !(x.q == q && x.idx == i)) } ∧ Injected s u
      ∧ u.mem = (s.puts ws).mem ∧ (∀ a, ¬ touches ws a → u.rd8 a = s.rd8 a)

-- exchanges, feeds, collectives

/-- COUNT_XCHG, its phase 0 sent, answered by every member without a mismatch and its slabs acknowledged, completes with the
offset table as its output; its commit counts the drops, marks the exchange, and admits the first a records of each bucket
from the owner's base row on (R85, R165). -/
def Obligations.CountXchgFixesRows : Prop :=
  ∀ (s : State) (q : Nat) (i : U32) (c : Cmd) (own : Nat) (e : Exch) (bs : List (Nat × Nat × Nat × Nat × Nat × Nat))
    (ans : List ((Nat × Nat) × Nat × Nat)) (ups : List RecUpd), Runs s q i 0x15 c → own = s.owner q →
    s.findExch own c.gen c.xid = some e → e.cx0 = true →
    (∀ m ∈ (s.readXb (s.dsc own c 3)).members, ∃ p ∈ e.ph1, p.src = m) → s.txBusy q i = false →
    (∀ p ∈ e.ph1, p.mis = false) → bs = s.bucketsOf (s.dsc own c 2) (s.destHdr (s.dsc own c 2)) →
    (∀ b ∈ bs, (bucketAnswer e.ph1 b.1 b.2.1).isSome = true) →
    (ans = bs.map (fun b => (b.2.2.2.2, (bucketAnswer e.ph1 b.1 b.2.1).getD (0, 0)))) →
    (ups = ans.flatMap (fun p => bucketUpd p.1.1 p.1.2 p.2.1 p.2.2)) →
    ∃ u : State, exec (.countXchg q i) s = .next (u.complete q i [.count 4 (ups.filter (fun u => !u.adm)).length,
        .xchgDone c.gen c.xid]) ∧ OnlyMemory s u ∧ u.findCmd q i = some { c with recs := ups }
      ∧ u.mem = (s.strWr (s.dsc own c 5) 0 (ans.flatMap (fun p => wordsBytes [p.2.1, min p.2.2 p.1.2]))).mem

/-- DISPATCH is complete once its reservations are answered, its local rows have landed and its slabs are acknowledged: its
route records change at its commit as the answers said (R121). -/
def Obligations.DispatchCompletesWhenAnswered : Prop :=
  ∀ (s : State) (q : Nat) (i : U32) (c : Cmd) (own : Nat) (e : Exch), Runs s q i 0x20 c → own = s.owner q →
    s.findExch own c.gen c.xid = some e → e.listed = true → e.todo = [] → e.asked = [] → s.ordOf own = false →
    s.txBusy q i = false → (fld (c.s 5) 26 24 = 0 ∨ fld (c.s 5) 26 24 = 2
      ∨ ∀ m ∈ dspDests (s.bucketsOf (s.dsc own c 2) (s.destHdr (s.dsc own c 2))), m = s.chip ∨ s.peerVer m ≠ 1) →
    ∃ (u : State) (n : Nat), exec (.dispatch q i) s = .next (u.complete q i [.count 4 (e.upd.filter (fun x => !x.adm)).length,
        .count 12 n, .stick 0x524 (if n = 0 then 0 else 8)])
      ∧ u.mem = s.mem ∧ u.findCmd q i = some { c with recs := e.upd }
      ∧ (isMx (wireFmt (fld (c.s 5) 26 24)) = false → n = 0)

/-- RETURN with every landing of every Bay final and handed on, and every slab acknowledged, is complete and writes nothing
more (R122). -/
def Obligations.ReturnCompletesWhenHandedOn : Prop :=
  ∀ (s : State) (q : Nat) (i : U32) (c : Cmd) (own gen xid : Nat) (r : RetRun) (pitch : RetBay → Nat), Runs s q i 0x21 c →
    own = s.owner q → gen = fld (c.s 3) 15 0 → xid = fld (c.s 3) 23 16 → s.findRet own gen xid = some r →
    (pitch = fun b => pitchOf (rowBytes (s.readXb (s.dsc own c 2)).rfmt b.elems)) →
    s.retDone r pitch = true → s.txBusy q i = false →
    ∃ u : State, exec (.ret q i) s = .next (u.complete q i [.dropRets gen xid]) ∧ OnlyMemory s u ∧ u.queues = s.queues
      ∧ u.mem = s.mem

/-- COMBINE, once its prefetch wait has been met or with no token, completes, stores to no byte outside its output rows,
and gives a single token without an answer a row of zeros (R154 to R158). Where its output stands clear of the token
statuses and the planes, and each token has one answer at most, or the mode is ordered, row t holds the sum, from 0 and
in ascending k, of weight times answer over the token's answers, rounded to its format; NaN for a token whose row was
NaN (R155 to R157). COMBINE_PREFETCH evaluates the wait and changes nothing else (R153). -/
def Obligations.CombineWritesItsRows : Prop :=
  (∀ (s : State) (q : Nat) (i : U32) (c : Cmd) (own : Nat) (out : Desc), Runs s q i 0x2A c → own = s.owner q →
      out = s.dsc own c 4 → c.pre = true ∨ c.s 0 = 0 → isFloat out.fmt = true →
      ∃ (u : State) (acts : List Act), exec (.combine q i) s = .next (u.complete q i acts) ∧ OnlyMemory s u
        ∧ u.queues = s.queues ∧ Act.unbindExch c.gen c.xid ∈ acts ∧ Act.dropPlanes c.gen c.xid ∈ acts
        ∧ (∀ a, ¬ touches (out.rowsPut (c.s 0) (fun _ => List.replicate (out.d0 * ebOf out.fmt) 0)) a → u.rd8 a = s.rd8 a)
        ∧ (c.s 0 = 1 → s.weightTab (s.dsc own c 1) (s.destHdr (s.dsc own c 2)).akept = [] →
            bitOf (s.strLe (s.dsc own c 2) (destTstat (s.destHdr (s.dsc own c 2)).e) 1) 4 = false →
            u.mem = (s.strWr out 0 (rowPack out.fmt (List.replicate out.d0 0)).1).mem)
        ∧ (∀ (d : Desc) (b : Xb) (ts : Nat) (ps : List Desc) (wrs : List (Nat × List Byte)) (tab : List (Nat × Nat × Nat))
            (ans : Nat → List (K36 × List K36)) (row : Nat → List Byte), d = s.dsc own c 2 → b = s.readXb (s.dsc own c 3) →
            ts = destTstat (s.destHdr d).e → ps = b.planes.map (fun p => s.desc own p) →
            wrs = out.rowsPut (c.s 0) (fun _ => List.replicate (out.d0 * ebOf out.fmt) 0) →
            tab = s.weightTab (s.dsc own c 1) (s.destHdr d).akept →
            (ans = fun t => (List.range ps.length).flatMap (fun k =>
              ((tab.filter (fun x => x.1 == t && x.2.1 == k)).getLast?.map (fun x => (kOf32 x.2.2, rowVals b.rfmt out.d0
                (s.strRd (ps.getD k default) (t * (ps.getD k default).rowB) (out.d0 * ebOf b.rfmt))))).toList)) →
            (row = fun t => (rowPack out.fmt (if bitOf (s.strLe d (ts + t) 1) 4 then List.replicate out.d0 kNaN
              else (List.range out.d0).map (fun x => (ans t).foldl (fun a p => kFma p.1 (p.2.getD x 0) a) 0))).1) →
            (∀ t, t < c.s 0 → ¬ touches wrs (d.byteAt (ts + t))) →
            (∀ t pd o, t < c.s 0 → pd ∈ ps → o < out.d0 * ebOf b.rfmt → ¬ touches wrs (pd.byteAt (t * pd.rowB + o))) →
            (s.rbit (win own + 0x700) 0 = true ∨ ∀ t, t < c.s 0 → (ans t).length ≤ 1) → HoldsRows u out (c.s 0) row))
  ∧ (∀ (s : State) (q : Nat) (i : U32) (c : Cmd), s.findCmd q i = some c → s.live = true → c.op = 0x2A →
      s.ctxRuns (s.owner q) = true →
      exec (.combinePrefetch q i) s = .next (s.updCmd q i (fun y => { y with pre := y.pre || s.preMet (s.owner q) y })))

/-- DRAIN completes once no slab, landing or retired holding of its tag remains, and until then waits (R126). BARRIER: with no
other member the coordinator releases at its first run. Fabric time reaching TREL
releases a member (R171, R172). -/
def Obligations.DrainAndBarrierComplete : Prop :=
  (∀ (s : State) (q : Nat) (i : U32) (c : Cmd), Runs s q i 0x22 c →
      (s.drained (s.owner q) (fld (c.s 0) 15 0) (bitOf (c.s 0) 16) = true → exec (.drain q i) s = .next (s.complete q i []))
      ∧ (s.drained (s.owner q) (fld (c.s 0) 15 0) (bitOf (c.s 0) 16) = false → exec (.drain q i) s = .next (s.markRan q i)))
  ∧ ((∀ (s : State) (q : Nat) (i : U32) (c : Cmd) (b : Barrier), Runs s q i 0x05 c → c.ran = false →
        s.findBar (s.owner q) (fld (c.s 2) 15 0) (fld (c.s 2) 23 16) = some b → b.q = q → b.idx = i →
        b.members = [s.chip] → b.trel = none → b.mis = false → b.released = false →
        ∃ (t : State) (y : Cmd), exec (.barrier q i) s = .next t ∧ t.findCmd q i = some y
          ∧ y.phase = .complete ∧ Act.barrierEnd ∈ y.acts)
    ∧ (∀ (s : State) (c gen bid : Nat) (b : Barrier) (tr : U64), s.findBar c gen bid = some b → b.trel = some tr →
        s.live = true → b.released = false → b.mis = false →
        ∃ t : State, exec (.barrierRelease c gen bid) s = .next (t.complete b.q b.idx [.barrierEnd])
          ∧ t.findBar c gen bid = some { b with released := true, late := false }
          ∧ s.ftime.toNat ≤ t.ftime.toNat ∧ tr.toNat ≤ t.ftime.toNat))

/-- FEED_ARM of a gate table opens a feed: its first message leaves, and the feed stands under the command (R150, R314).
That of an expert table arms every Bay first: a Bay takes a buffer of S bytes, its control block holds every field of
R111, and the feed opens with every local slot of the table; without a buffer it faults with E_POOL_EMPTY (R140). A
Bay's ready count is 128 times its leading full tiles (R141). With every entry complete, a feed completes (R145). A DONE
that obeys R315 is recorded with its entry and in the table (R144); an ABORT_ACK of a killed feed ends it and keeps it
for the rerun (R146); the timeout of an abort sets FAIL and ends the feed, shown with no FEED_ARM running (R316). -/
def Obligations.FeedsOpenAndEnd : Prop :=
  (∀ (s : State) (q : Nat) (i : U32) (c : Cmd) (own : Nat) (d : Desc), Runs s q i 0x29 c → own = s.owner q →
      d = s.dsc own c 1 →
      (s.feeds.any (fun f => f.q == q && f.idx == i && !f.ended) = false → c.h 2 = 0 → s.gotGate d = true →
        s.oldFeed q i = none → ∃ t : State, exec (.feedArm q i) s = .next t ∧ (∃ f ∈ t.feeds, f.q = q ∧ f.idx = i
          ∧ f.gate = true ∧ f.ctx = own ∧ f.got = c.h 1 ∧ f.ents.length = s.gotL d)
          ∧ (∃ k ws, t.feedOut = s.feedOut ++ [(List.range 16).map (fun j =>
              u32 ([1 + k * 2 ^ 16, s.gotL d, 0, 1].getD j 0))] ++ ws))
      ∧ (∀ (gen xid : Nat) (ps : List Nat) (u : State), s.feeds.any (fun f => f.q == q && f.idx == i && !f.ended) = false →
        gen = fld (c.s 3) 15 0 → xid = fld (c.s 3) 23 16 → (c.h 2 = 0 ∨ s.retired own gen = false) → s.gotGate d = false →
        s.oldFeed q i = none → (ps = (List.range (min 8 (fld (s.str32 (s.dsc own c 2) 0) 7 4))).map (fun k =>
          (s.desc own (fld (s.str32 (s.dsc own c 2) (16 + 4 * k)) 19 0)).base)) →
        (∀ v, s.armBays own gen xid d 0 (s.gotL d) = (none, u) → u.cmdTakes own gen xid 10 .plane ps = (none, v) →
          ∃ t : State, exec (.feedArm q i) s = .next t ∧ (own, gen, xid) ∈ t.fed ∧ (∃ f ∈ t.feeds, f.q = q ∧ f.idx = i
            ∧ f.gate = false ∧ f.ctx = own ∧ f.gen = gen ∧ f.xid = xid ∧ f.got = c.h 1 ∧ f.ents.map (fun x => x.lslot) = s.gotSlots d)
            ∧ (∃ k ws, t.feedOut = s.feedOut ++ [(List.range 16).map (fun j =>
                u32 ([1 + k * 2 ^ 16, (s.gotSlots d).length, 0, 0].getD j 0))] ++ ws))
        ∧ (∀ f, s.armBays own gen xid d 0 (s.gotL d) = (some f, u) → exec (.feedArm q i) s = .next (u.fault q i 0x29 f)))
      ∧ (∀ f, s.feeds = [f] → f.q = q → f.idx = i → f.ended = false → f.abort = none → f.gate = true →
        (∀ e ∈ f.ents, e.complete = true) →
        ∃ acts, exec (.feedArm q i) s = .next (s.complete q i acts) ∧ Act.feedShut ∈ acts))
  ∧ ((∀ (s : State) (own gen xid e o cap w5 pitch n b : Nat) (d : Desc), o = 64 + 64 * e → cap = s.str32 d (o + 4) →
        w5 = s.str32 d (o + 20) → pitch = pitchOf (rowBytes (wireFmt (fld w5 19 17)) (elemsOf w5)) →
        n = 256 * ((cap * pitch + 8 * cap + cap / 128 + 255) / 256) → b = s.bcb own (fld (s.str32 d o) 11 0) →
        (s.alloc own n false false = none → s.armBay own gen xid d e = .error (flt ePoolEmpty 0x10, s.allocFail own n))
        ∧ (∀ h a v land, s.alloc own n false false = some (h, a, v) → land = a + 256 * ((cap * pitch + 255) / 256) →
          ∃ u : State, s.armBay own gen xid d e = .ok u
            ∧ u.refs = v.refs ++ [{ ctx := own, gen := gen, xid := xid, kind := .bay, handle := u32 h }]
            ∧ u.arms = v.arms ++ [{ ctx := own, gen := gen, xid := xid, lslot := fld (s.str32 d o) 11 0 }]
            ∧ (b + 64 ≤ 2 ^ 48 → (∀ k, k < 64 → ¬ touches (d.put o (List.replicate 64 0)) (b + k)) →
              u.rd b 64 = wordsBytes [1 + gen * 2 ^ 16, cap, fld w5 19 0, pitch, 0, 0, 0, 0] ++ natLe 8 a ++ natLe 8 land
                ++ natLe 4 0 ++ natLe 8 (land + 8 * cap) ++ natLe 4 0)))
    ∧ (∀ (s : State) (c b : Nat) (x : FeedEnt), x.closed = false → s.rf 0x10000 3 0 ≠ 1 → b = s.bcb c x.lslot →
        ∃ p, s.readyOf c x = 128 * p ∧ x.ready / 128 ≤ p
          ∧ (∀ k, x.ready / 128 ≤ k → k < p → 128 ≤ (s.rd8 (s.bayTiles b + k)).toNat ∧ s.tileOpen b k = false)
          ∧ (p < s.bayCap b / 128 → (s.rd8 (s.bayTiles b + p)).toNat < 128 ∨ s.tileOpen b p = true)))
  ∧ ((∀ (s : State) (r : FeedResp) (f : Feed) (x : FeedEnt), s.live = true → s.findFeed r.feed = some f → r.parity = false →
        ((∀ g ∈ s.feeds, ∀ y, s.findCmd g.q g.idx = some y → y.op = 0x29) → r.type = 1 → f.ents[r.entry]? = some x → s.doneOk x r.count = true →
          ∃ t : State, exec (.feedDone r) s = .next t
            ∧ t.feeds = (s.updFeed f.id (fun g => { g with ents := g.ents.set r.entry { x with done := r.count } })).feeds
            ∧ t.mem = (s.strWr32 (s.desc f.ctx f.got) (64 + 64 * r.entry + 16) r.count).mem)
        ∧ (r.type = 2 → f.abort = some .kill → s.rst.iso = false →
          exec (.feedAbortAck r) s = .next ((s.arrayWrite 0xB).updFeed f.id (fun g => { g with ended := true }))))
    ∧ (∀ (s : State) (n : Nat) (f : Feed), s.findFeed n = some f → s.live = true → s.refclk = true → f.abort = some .kill →
        (∀ y ∈ s.started, y.2.op ≠ 0x29 ∨ y.2.phase ≠ .started) →
        ∃ t : State, exec (.feedAbortTimeout n) s = .next t ∧ t.rbit 0x10004 1 = true
          ∧ t.feeds = (s.updFeed f.id (fun g => { g with ended := true })).feeds ∧ t.queues = s.queues))

/-- A collective's command: its first run begins the attempt (R186, R190, R191); the leader of a group of one, once
every segment is final, decides at once and the command is complete (R193), shown with its trace off; a member that is
not the leader then reports to it. -/
def Obligations.CollectivesBeginAndDecide : Prop :=
  ∀ (s : State) (q : Nat) (i : U32) (c : Cmd) (op : Nat) (k : Instr) (slot : Nat) (r : RingSlot),
    (op = 0x38 ∧ k = .ringReduce q i ∨ op = 0x39 ∧ k = .ringGather q i ∨ op = 0x3A ∧ k = .shift q i
      ∨ op = 0x3B ∧ k = .permute q i) → Runs s q i op c → s.rings = [(slot, r)] → r.q = q → r.idx = i →
    (r.started = false → exec k s = .next (((((s.ringBegin slot r).charge r.ctx [6]).chargeReads r.ctx
        ((s.desc r.ctx r.src).headReads (r.count * r.eb) ++ (if r.op = 4 then (s.dsc r.ctx c 6).headReads (2 * r.n) else []))).ringSeen
          slot none).ringCheck slot))
    ∧ (r.started = true → r.reported = none → r.decided = none → r.finals = r.want → r.tx = [] → r.members = [s.chip] →
        s.group r.ctx r.gid = .ok [s.chip] → s.findLead r.ctx r.gid r.gseq r.attempt = none → s.rbit 0x1A040 0 = false →
        ∃ (t : State) (y : Cmd), exec k s = .next t ∧ t.findCmd q i = some y ∧ y.phase = .complete ∧ (∀ a ∈ r.acts, a ∈ y.acts))
    ∧ (∀ l, r.started = true → r.reported = none → r.decided = none → r.finals = r.want → r.tx = [] → r.members.head? = some l → l ≠ s.chip →
        ∃ (t : State) (f : Frame), exec k s = .next t ∧ t.ringCtl = s.ringCtl ++ [⟨r.ctx, r.gid, r.gseq, l, f⟩]
          ∧ fKind f = 4 ∧ t.findCmd q i = some c)

-- queues

/-- R22, from a port that may write the window: a doorbell of the queue's owner moves TAIL to a value beyond it that leaves
at most the queue size from HEAD, and re-evaluates the context's waits (R30); any other value, and every value while the
queue is disabled, sets DB_REJ and nothing else; one in another context's window is only counted there. A later enable sets
HEAD and TAIL to 0. -/
def Obligations.DoorbellMovesTail : Prop :=
  ∀ (s : State) (w q : Nat) (v : U32) (priv : Bool), q < 64 → w ≤ 16 → s.rst.low = false → 2 ≤ s.rst.rel →
    s.rst.posted = true → (w ≠ 16 ∨ priv = true) →
    (s.owner q ≠ w → exec (.doorbell w q v priv) s = .next (s.asked.ctxCount w 17 1))
    ∧ (s.owner q = w → s.rbit (kq q + 0xC) 0 = false →
        exec (.doorbell w q v priv) s = .next (s.asked.setRbit (kq q + 0x18) 3 true))
    ∧ (s.owner q = w → s.rbit (kq q + 0xC) 0 = true →
        0 < (v - u32 (s.reg (kq q + 0x14))).toInt → (v - u32 (s.reg (kq q + 0x10))).toNat ≤ s.qSize q →
        exec (.doorbell w q v priv) s = .next (((s.asked.setReg (kq q + 0x14) v.toNat).arrayWrite 9).pollOwner w)
        ∧ (((s.asked.setReg (kq q + 0x14) v.toNat).arrayWrite 9).pollOwner w).reg (kq q + 0x14) = v.toNat)
    ∧ (s.owner q = w → s.rbit (kq q + 0xC) 0 = true →
        ¬(0 < (v - u32 (s.reg (kq q + 0x14))).toInt ∧ (v - u32 (s.reg (kq q + 0x10))).toNat ≤ s.qSize q) →
        exec (.doorbell w q v priv) s = .next (s.asked.setRbit (kq q + 0x18) 3 true)
        ∧ (s.asked.setRbit (kq q + 0x18) 3 true).reg (kq q + 0x14) = s.reg (kq q + 0x14)
        ∧ (s.asked.setRbit (kq q + 0x18) 3 true).rbit (kq q + 0x18) 3 = true)
    ∧ (∀ hold, 6 ≤ s.rf (kq q + 8) 4 0 → s.rf (kq q + 8) 4 0 ≤ 20 → (s.owner q = 16 ∨ s.rbit (kctx (s.owner q)) 0 = true) →
        (s.enableQueue q hold).reg (kq q + 0x10) = 0 ∧ (s.enableQueue q hold).reg (kq q + 0x14) = 0)

/-- COMMAND_DECODE of the queue whose turn it is: the next slot joins the queue with its handles bound when every check of R51
passes; a slot whose SEQ is not the low half of its index faults with E_BAD_SEQ as check 1; where a handle awaits an earlier
DESC_CREATE of the queue, nothing happens yet (R215). Nothing is decoded beyond TAIL, nor out of turn. The turn goes to a queue
that can decode: of system and communication queues first (R201), then of latency-critical contexts, then of best-effort ones,
which come first where fifteen decodes have passed a ready one by; within a class it goes round by queue number (R50). -/
def Obligations.DecodeTakesTheNextSlot : Prop :=
  ∀ (s : State) (q : Nat) (x : Queue) (c : Cmd), x = s.queue q → c = { idx := x.dec, words := s.slotWords q x.dec } →
    (i32diff (s.reg (kq q + 0x14)) x.dec.toNat ≤ 0 ∨ s.decodeTurn ≠ some q → exec (.commandDecode q) s = .next s)
    ∧ (s.decodeChecks q x c = .later → exec (.commandDecode q) s = .next s)
    ∧ (s.decodeTurn = some q → s.serves q = true → x.killing = false → 0 < i32diff (s.reg (kq q + 0x14)) x.dec.toNat →
      (∀ bs u, s.decodeChecks q x c = .ok bs →
        u = ((({ s with arb := s.arbAfter q } : State).setQueue q (x.push { c with binds := bs })).descFills (s.owner q) bs).arrayWrite 8 →
        exec (.commandDecode q) s = .next ((((if bs = [] then u else u.arrayWrite 5).chargeReads (s.owner q)
          [(1, 64, false)]).chargeFills (s.owner q) bs.length).energy (s.owner q) 7 1)
        ∧ (x.push { c with binds := bs }).dec = x.dec + 1
        ∧ (x.push { c with binds := bs }).cmds = x.cmds ++ [{ c with binds := bs, skip := x.skipOf x.dec }])
      ∧ (fld (c.w 0) 31 16 ≠ x.dec.toNat % 65536 → exec (.commandDecode q) s = .next
          ((({ s with arb := s.arbAfter q } : State).setQueue q { x with dec := x.dec + 1, cmds := x.cmds ++ [c] }).fault q
            x.dec c.op (flt eBadSeq 1 1))))
    ∧ (∀ p, s.decodeTurn = some p → s.canDecode p = true
      ∧ (s.decClass p ≠ 0 → s.arb.n < 15 → ∀ r, r < 64 → s.decClass r = 0 → s.canDecode r = false)
      ∧ (s.decClass p = 2 → s.arb.n < 15 → ∀ r, r < 64 → s.decClass r = 1 → s.canDecode r = false)
      ∧ (15 ≤ s.arb.n → (∃ r, r < 64 ∧ s.decClass r = 2 ∧ s.canDecode r = true) → s.decClass p = 2))
    ∧ (∀ k l p r, s.turnOf k l = some p → r < 64 → s.decClass r = k → s.canDecode r = true →
      p < 64 ∧ s.decClass p = k ∧ (p + 63 - l % 64) % 64 ≤ (r + 63 - l % 64) % 64)

/-- COMMAND_START takes the oldest waiting command of a served queue that is not held, whose waits are met (R30, R33,
section Commit): with its indirect slots read (R39) it makes the checks of its opcode and becomes started, with what its
start prepares; it faults where they fail, and waits where its opcode waits. A NOP with met waits and direct slots
becomes started; with a wait that is not met, or a queue on HOLD, nothing changes. -/
def Obligations.StartTakesTheOldestReady : Prop :=
  ∀ (s : State) (q : Nat) (x : Queue) (c : Cmd), x = s.queue q →
    x.cmds.find? (fun y => y.phase == .waiting && y.skip == .run) = some c →
    (s.rbit (kq q + 0xC) 2 = true → exec (.commandStart q) s = .next s)
    ∧ (c.ready = false → s.waitsMet (s.owner q) c = false → exec (.commandStart q) s = .next s)
    ∧ (c.op = 0x00 → c.ready = false → c.bad = none → fld (c.w 2) 31 24 = 0 → s.serves q = true → x.killing = false → s.rbit (kq q + 0xC) 2 = false →
      x.undecided c.idx = false → x.fenced c = false → x.inflight < 8 → s.started.length < 256 →
      s.waitsMet (s.owner q) c = true →
      s.indChecks (s.owner q) { c with slots := (List.range 8).map (fun k => u32 (c.w (8 + k))) } = none →
      ∃ t : State, exec (.commandStart q) s = .next t
        ∧ (∃ y, t.findCmd q c.idx = some y ∧ y.phase = .started ∧ y.ready = true ∧ y.words = c.words
            ∧ y.slots = (List.range 8).map (fun k => u32 (c.w (8 + k)))))
    ∧ (∀ (y : Cmd) (u : State), (c.ready = true ∨ s.waitsMet (s.owner q) c = true) → s.serves q = true → x.killing = false →
      s.rbit (kq q + 0xC) 2 = false → x.undecided c.idx = false → x.fenced c = false → x.inflight < 8 → s.started.length < 256 →
      y = s.waitsOver (s.owner q) q c → y.bad = none →
      u = (if s.findCmd q y.idx = some y then s
        else ({ s.updCmd q y.idx (fun _ => y) with ticks := s.ticks + 1 } : State).waitRecs (s.owner q) q y) →
      u.indChecks (s.owner q) y = none → u.yields q y = false →
      (∀ v z, u.startOp q y = .go v z → u.regionFlt (u.owner q) y = none →
        exec (.commandStart q) s = .next ((v.named q y).startGo q y z))
      ∧ (∀ f, u.startOp q y = .flt f → exec (.commandStart q) s = .next ((u.named q y).fault q y.idx y.op f))
      ∧ (u.startOp q y = .wait → exec (.commandStart q) s = .next u))
    ∧ (∀ (v : State) (y z : Cmd), (∃ w, v.findCmd q y.idx = some w) → z.idx = y.idx → z.phase = .waiting →
      ∃ w, (v.startGo q y z).findCmd q y.idx = some w ∧ w.phase = .started ∧ w.words = z.words ∧ w.slots = z.slots
        ∧ w.acts = z.acts ∧ w.wrote = z.wrote)

/-- WAIT_POLL re-evaluates the waits of one owner and, where no restore of it waits for regions and the trace is off,
changes no more than that (R30): the oldest waiting command of each of its enabled queues becomes ready when both its
waits are met, and its indirect slots are read then, once (R39). A wait is met when its counter has passed its target as
an i32, or equals it (R28). -/
def Obligations.WaitPollFindsMetWaits : Prop :=
  (∀ (s : State) (w : Nat), s.live = true → s.refclk = true → w ≤ 16 →
      exec (.waitPoll w) s = .next ((s.pollOwner w).restoreWaits w)
      ∧ (w = 16 ∨ s.rbit (kctx w + 0xC) 1 = false → (s.pollOwner w).restoreWaits w = s.pollOwner w)
      ∧ (s.rbit 0x1A040 0 = false → s.pollOwner w = { s with queues := (s.pollOwner w).queues, ticks := (s.pollOwner w).ticks }))
  ∧ (∀ (s : State) (q : Nat) (c y : Cmd), (s.queue q).cmds.find? (fun y => y.phase == .waiting && y.skip == .run) = some c →
      s.findCmd q c.idx = some c → y = (if s.waitsMet (s.owner q) c then s.waitsOver (s.owner q) q c else c) →
      (s.pollQueue q).findCmd q c.idx = some { y with pre := y.pre || s.preMet (s.owner q) y })
  ∧ (∀ (s : State) (q : Nat) (c : Cmd), (s.waitsOver (s.owner q) q c).ready = true
      ∧ (c.ready = true → s.waitsOver (s.owner q) q c = c)
      ∧ (∀ vs, c.ready = false → s.slotsGo (s.owner q) c (List.range 8) = .ok vs → (s.waitsOver (s.owner q) q c).slots = vs))
  ∧ (∀ v target : Nat, (waitMet 0 v target = true)
      ∧ (waitMet 1 v target = true ↔ 0 ≤ (u32 v - u32 target).toInt) ∧ (waitMet 2 v target = true ↔ v = target))

/-- COMMAND_COMMIT of a complete command at the head of a served queue: it leaves the queue and HEAD passes it (R33 step
6). The output bytes that its completion held are written (R34), where no other uncommitted command's outputs meet them
(R36), and of a command without effects its one signal is done, modulo 2^32 (R31), both shown with the trace off and no
feed open. One that would drop a reference it does not have faults with E_DOUBLE_FREE (R270). A command skipped in QUIET
mode passes likewise and writes no memory (R43). -/
def Obligations.CommitSignalsAndPasses : Prop :=
  ∀ (s : State) (q : Nat) (c : Cmd) (rest : List Cmd) (own : Nat), q < 64 → own = s.owner q → s.serves q = true →
    (s.queue q).cmds = c :: rest →
    (c.phase = .complete → s.badDrop own q c = none → (c.op = 0x49 → s.rangeBound own c = false) → ∃ t : State, exec (.commandCommit q) s = .next t
      ∧ t.reg (kq q + 0x10) = (c.idx + 1).toNat ∧ t.findCmd q c.idx = none)
    ∧ (c.phase = .complete → c.acts = [] → c.recs = [] → c.op = 0x00 → c.flag 8 = false → c.flag 9 = false → s.feeds = [] →
        s.rbit 0x1A040 0 = false → ∃ t : State, exec (.commandCommit q) s = .next t
        ∧ t.ctr own (fld (c.w 6) 19 0) = (match fld (c.w 6) 21 20 with
          | 0 => s.ctr own (fld (c.w 6) 19 0)
          | 1 => (s.ctr own (fld (c.w 6) 19 0) + c.w 7) % 2 ^ 32
          | _ => c.w 7)
        ∧ (∀ a, (∀ k, k < 4 → (s.ctrAddr own (fld (c.w 6) 19 0) + k) % addrMod ≠ a % addrMod) → t.rd8 a = s.rd8 a))
    ∧ (∀ ws : List (Nat × List Byte), c.phase = .complete → c.acts = ws.map (fun x => Act.write x.1 x.2) → c.recs = [] →
        c.op ∉ [0x02, 0x20, 0x21, 0x49] → fld (c.w 6) 21 20 = 0 → c.flag 8 = false → c.flag 9 = false → s.feeds = [] →
        c.mix = [] → (∀ x ∈ ws, s.meetsOf q c.idx [(x.1, x.2.length)] = []) →
        s.rbit 0x1A040 0 = false → ∃ t : State, exec (.commandCommit q) s = .next t ∧ t.mem = (s.puts ws).mem)
    ∧ (∀ h, c.phase = .complete → c.op ≠ 0x49 → s.badDrop own q c = some h →
        exec (.commandCommit q) s = .next (s.fault q c.idx c.op { flt eDoubleFree 0x10 with lo := h.toNat }))
    ∧ (c.phase = .waiting → c.skip = .quiet → s.rbit 0x1A040 0 = false → ∃ t : State,
        exec (.commandCommit q) s = .next t ∧ t.mem = s.mem ∧ t.reg (kq q + 0x10) = (c.idx + 1).toNat
        ∧ t.findCmd q c.idx = none)

/-- A write of KQ_CTL: EN 0 to 1 with a size from 2^6 to 2^20 and a queue that may run empties it, zeroes HEAD and TAIL
and sets STATE 0b01, or 0b10 with HOLD; another size only sets CFG_ERR (R21, R275). HOLD of an enabled queue stands in
STATE, and EN 1 to 0 with a command in flight leaves it enabled (tables KQ_CTL and KQ_STATUS of 02_command_set, section
Queue registers; log entry 35). -/
def Obligations.QueueControlWrites : Prop :=
  ∀ (s : State) (q : Nat) (w : U32) (priv : Bool) (k : Instr), q < 64 → Reaches s (kq q + 0xC) priv →
    (k = .queueEnable q w priv ∨ k = .queueHold q w priv ∨ k = .queueKill q w priv) →
    (bitOf w.toNat 0 = true → bitOf w.toNat 1 = false → s.rbit (kq q + 0xC) 0 = false →
      6 ≤ s.rf (kq q + 8) 4 0 → s.rf (kq q + 8) 4 0 ≤ 20 → (s.owner q = 16 ∨ s.rbit (kctx (s.owner q)) 0 = true) →
      ∃ t : State, exec k s = .next t ∧ t.queue q = {} ∧ t.reg (kq q + 0x10) = 0 ∧ t.reg (kq q + 0x14) = 0
        ∧ t.rbit (kq q + 0xC) 0 = true ∧ t.rf (kq q + 0x18) 1 0 = (if bitOf w.toNat 2 then 2 else 1) ∧ t.mem = s.mem)
    ∧ (bitOf w.toNat 0 = true → bitOf w.toNat 1 = false → s.rbit (kq q + 0xC) 0 = false →
      (s.rf (kq q + 8) 4 0 < 6 ∨ 20 < s.rf (kq q + 8) 4 0) →
      ∃ t : State, exec k s = .next t ∧ t.rbit (kq q + 0xC) 0 = false ∧ t.rbit (kq q + 0x18) 2 = true ∧ t.queues = s.queues)
    ∧ (bitOf w.toNat 0 = true → bitOf w.toNat 1 = false → s.rbit (kq q + 0xC) 0 = true → s.rf (kq q + 0x18) 1 0 ≠ 3 →
      ∃ t : State, exec k s = .next t ∧ t.rbit (kq q + 0xC) 2 = bitOf w.toNat 2 ∧ t.rbit (kq q + 0xC) 0 = true
        ∧ t.rf (kq q + 0x18) 1 0 = (if bitOf w.toNat 2 then 2 else 1) ∧ t.queues = s.queues ∧ t.mem = s.mem)
    ∧ (bitOf w.toNat 0 = false → bitOf w.toNat 1 = false → s.rbit (kq q + 0xC) 0 = true → s.qBusy q = true →
      ∃ t : State, exec k s = .next t ∧ t.rbit (kq q + 0xC) 0 = true ∧ t.queues = s.queues)

/-- QUEUE_KILL of a running queue whose commands all wait: they leave the queue, keeping their bindings for the rerun;
KILL stands until KILL_COMPLETE, which rewinds fetch to HEAD (R35, R215). A killed DISPATCH whose RESERVE stays
unanswered for 20 µs is marked broken, and holds the kill no longer (R127). -/
def Obligations.KillRewindsToHead : Prop :=
  (∀ (s : State) (q : Nat) (w : U32) (priv : Bool), q < 64 → Reaches s (kq q + 0xC) priv → bitOf w.toNat 0 = true →
      bitOf w.toNat 1 = true → bitOf w.toNat 2 = false → s.rbit (kq q + 0xC) 0 = true → s.rbit (kq q + 0xC) 2 = false →
      s.rf (kq q + 0x18) 1 0 = 1 → (s.queue q).killing = false → (∀ c ∈ (s.queue q).cmds, c.phase = .waiting) →
      ∃ t : State, exec (.queueKill q w priv) s = .next t ∧ (t.queue q).cmds = [] ∧ (t.queue q).killing = true
        ∧ t.rbit (kq q + 0xC) 1 = true ∧ t.mem = s.mem
        ∧ (∀ c ∈ (s.queue q).cmds, ∃ k ∈ (t.queue q).kept, k.idx = c.idx ∧ k.binds = c.binds))
  ∧ (∀ (s : State) (q : Nat), q < 64 → s.live = true → (s.queue q).killing = true → (s.queue q).cmds = [] →
      s.killHeld q = false → ∃ t : State, exec (.killComplete q) s = .next t
        ∧ (t.queue q).dec = u32 (s.reg (kq q + 0x10)) ∧ (t.queue q).killing = false ∧ (t.queue q).cmds = []
        ∧ (t.queue q).kept = (s.queue q).kept ∧ t.rbit (kq q + 0xC) 1 = false ∧ t.mem = s.mem)
  ∧ (∀ (s : State) (q g x : Nat) (i : U32), q < 64 → s.live = true → s.refclk = true → (s.queue q).killing = true →
      (s.queue q).killX = some (g, x, i) → s.killAsks q = true →
      ∃ t : State, exec (.exchangeBroken q i) s = .next t ∧ (t.queue q).killX = none
        ∧ (∀ k ∈ (s.queue q).kept, k.idx = i → { k with broken := true } ∈ (t.queue q).kept)
        ∧ (∀ e, t.findExch (s.owner q) g x = some e → e.asked = []) ∧ t.mem = s.mem)

/-- The timeouts of waiting commands end in faults with E_TIMEOUT, or change nothing where what was awaited has come: of
a WAIT whose waits are not met, wherever it stands in its queue (R41; of several, one with no older such WAIT of a
timeout as short, by a free pick: DEDUCED, log entry 54), a BARRIER that has no release time (R172), a DRAIN that may
not complete (R126), and a COUNT_XCHG that some member has not answered (R167). -/
def Obligations.TimeoutsFault : Prop :=
  (∀ (s : State) (q : Nat) (first : Option Cmd), s.serves q = true → s.refclk = true →
      first = (s.queue q).cmds.find? (fun y => y.phase == .waiting && y.skip == .run) →
      (∀ c, c ∈ s.timedWaits q ↔ c ∈ (s.queue q).cmds ∧ c.timedWait = true ∧ c.ready = false
        ∧ (first ≠ some c ∨ s.waitsMet (s.owner q) c = false))
      ∧ (s.timedWaits q = [] → exec (.waitTimeout q) s = .next s)
      ∧ (∀ c ∈ s.timedWaits q, (∀ y ∈ s.timedWaits q, y = c) →
        exec (.waitTimeout q) s = .next (s.fault q c.idx 0x01 (flt eTimeout 1)))
      ∧ (s.timedWaits q ≠ [] → ∃ c ∈ s.timedWaits q, ∃ n : Nat,
        exec (.waitTimeout q) s = .next ({ s with free := n }.fault q c.idx 0x01 (flt eTimeout 1))
        ∧ (∀ y ∈ (s.queue q).cmds.takeWhile (fun y => y.idx != c.idx), y ∈ s.timedWaits q → c.s 0 < y.s 0)))
  ∧ (∀ (s : State) (q : Nat) (i : U32) (c : Cmd) (b : Barrier), Runs s q i 0x05 c → s.refclk = true →
      s.findBar (s.owner q) (fld (c.s 2) 15 0) (fld (c.s 2) 23 16) = some b → b.released = false →
      (b.trel = none → exec (.barrierTimeout q i) s = .next (s.fault q i 0x05 (flt eTimeout 1)))
      ∧ (b.trel.isSome = true → exec (.barrierTimeout q i) s = .next s))
  ∧ (∀ (s : State) (q : Nat) (i : U32) (c : Cmd), Runs s q i 0x22 c → s.refclk = true →
      (s.drained (s.owner q) (fld (c.s 0) 15 0) (bitOf (c.s 0) 16) = false →
        exec (.drainTimeout q i) s = .next (s.fault q i 0x22 (flt eTimeout 8)))
      ∧ (s.drained (s.owner q) (fld (c.s 0) 15 0) (bitOf (c.s 0) 16) = true → exec (.drainTimeout q i) s = .next s))
  ∧ (∀ (s : State) (q : Nat) (i : U32) (c : Cmd) (e : Exch), Runs s q i 0x15 c → s.refclk = true →
      s.findExch (s.owner q) c.gen c.xid = some e →
      ((∃ m ∈ (s.readXb (s.dsc (s.owner q) c 3)).members, ∀ p ∈ e.ph1, p.src ≠ m) →
        exec (.countXchgTimeout q i) s = .next (s.fault q i 0x15 (flt eTimeout 8)))
      ∧ ((∀ m ∈ (s.readXb (s.dsc (s.owner q) c 3)).members, ∃ p ∈ e.ph1, p.src = m) →
        exec (.countXchgTimeout q i) s = .next s))

-- contexts, pools, event queues, registers

/-- The commands that end a context. TEARDOWN_GO of a running context with no landing in progress takes its jobs,
regions, exchange slots and streams away, and what a save of it holds (log entry 15), posts STATE 0b11 with FIRSTFAULT
E_HOST_TEARDOWN, and leaves the jobs of others (R286, R357). TEARDOWN_CLEAR returns STATE to 0b00 and clears EN where no
queue of the context is enabled. GEN_FLOOR_WRITE raises the floor only where the i16 difference is positive, and then
drops the exchange slots of retired tags (R124, R125). -/
def Obligations.ContextControlWrites : Prop :=
  ∀ (s : State) (c : Nat) (w : U32) (priv : Bool), c < 16 →
    (Reaches s (kctx c + 8) priv → bitOf w.toNat 0 = true → bitOf w.toNat 1 = false → s.rf (kctx c + 4) 1 0 = 1 →
      s.rbit 0x1004 0 = false → (∀ l ∈ s.landings, l.ctx ≠ c) →
      ∃ t : State, exec (.teardownGo c w priv) s = .next t ∧ t.rf (kctx c + 4) 1 0 = 3 ∧ t.rf (kctx c + 4) 23 16 = eHostTeardown
        ∧ t.rbit (kctx c + 8) 0 = false ∧ t.jobs = s.jobs.filter (fun j => j.ctx != c)
        ∧ t.regions = s.regions.filter (fun r => r.ctx != c) ∧ (∀ e ∈ t.exch, e.ctx ≠ c) ∧ (∀ x ∈ t.tx, x.ctx ≠ c)
        ∧ (∀ v ∈ t.saves, v.ctx ≠ c) ∧ t.rbit (kctx c + 4) 4 = false)
    ∧ (Reaches s (kctx c + 8) priv → bitOf w.toNat 0 = false → bitOf w.toNat 1 = true → s.rf (kctx c + 4) 1 0 = 3 →
      s.anyEnabled c = false →
      ∃ t : State, exec (.teardownClear c w priv) s = .next t ∧ t.rf (kctx c + 4) 1 0 = 0 ∧ t.rbit (kctx c) 0 = false
        ∧ t = { s.asked with regs := t.regs } ∧ (∀ a, a ≠ kctx c → a ≠ kctx c + 4 → t.reg a = s.asked.reg a))
    ∧ (Reaches s (win c + 0x508) priv → i16diff (w.toNat % 2 ^ 16) (s.reg (win c + 0x508)) ≤ 0 →
      exec (.genFloorWrite c w priv) s = .next s.asked)
    ∧ (Reaches s (win c + 0x508) priv → 0 < i16diff (w.toNat % 2 ^ 16) (s.reg (win c + 0x508)) → s.refs = [] →
      ∃ t : State, exec (.genFloorWrite c w priv) s = .next t ∧ t.reg (win c + 0x508) = w.toNat % 2 ^ 16
        ∧ t.exch = s.exch.filter (fun e => !(e.ctx == c && decide (i16diff e.gen (w.toNat % 2 ^ 16) < 0))))

/-- A save is refused with ERR unless every queue of the context is on HOLD; accepted, it kills its queues. Once they
are killed and nothing is outstanding, the image is written at KCTX_SAVE as it stood at the SAVE (R389; the named header
fields, at places that are the model's, and free bytes, log entry 15), the job and its regions leave the state with it,
beside what an earlier save of the context holds (log entry 15), and SAVED and DONE are set; memory outside the area is
untouched; a save area beyond 2^48 sets ERR (R284). RESTORE of a saved context whose image still answers to the live
state begins, and with no region to place brings the job back at once and clears SAVED; of an image that does not answer
it sets ERR and is an error of the context, E_RESTORE_STALE (R285). -/
def Obligations.SaveAndRestoreMoveTheJob : Prop :=
  ∀ (s : State) (c k : Nat) (w : U32) (priv : Bool), c < 16 → k = kctx c + 0xC →
    (Reaches s k priv → bitOf w.toNat 0 = true → bitOf w.toNat 1 = false → s.rbit k 0 = false →
      ((∃ q, q < 64 ∧ s.owner q = c ∧ s.rbit (kq q + 0xC) 2 = false) →
        exec (.contextSave c w priv) s = .next ((s.asked.setRbit k 3 true).setRbit k 2 false))
      ∧ ((∀ q, q < 64 → s.owner q = c → s.rbit (kq q + 0xC) 2 = true) →
        ∃ t : State, exec (.contextSave c w priv) s = .next t ∧ t.rbit k 0 = true ∧ t.rbit k 3 = false
          ∧ (∃ v ∈ t.saves, v.ctx = c ∧ v.open_ = true)
          ∧ (∀ q, q < 64 → s.owner q = c → s.rbit (kq q + 0xC) 0 = true → s.rf (kq q + 0x18) 1 0 ≠ 3 →
              (t.queue q).killing = true)))
    ∧ (∀ (a : Nat) (old : List Save), a = s.lpair (kctx c + 0x10) → old = s.saves.filter (fun v => v.ctx == c && !v.open_) →
      s.live = true → (∃ v ∈ s.saves, v.ctx = c ∧ v.open_ = true) → s.outstanding c = 0 →
      (∀ q, q < 64 → s.owner q = c → s.qBusy q = false) →
      (a + saveArea ≤ 2 ^ 48 → (s.regions.filter (fun r => r.ctx == c)).length ≤ 64 →
        ∃ t : State, exec (.saveImageWrite c) s = .next t
          ∧ (∃ v ∈ t.saves, v.ctx = c ∧ v.open_ = false ∧ v.jobs = old.flatMap (fun v => v.jobs) ++ s.jobs.filter (fun j => j.ctx == c)
              ∧ v.regions = old.flatMap (fun v => v.regions) ++ s.regions.filter (fun r => r.ctx == c)
              ∧ ∀ j, j < 11 → t.rd32 (a + 4 * j) = (s.saveHdr v).getD j 0 % 2 ^ 32)
          ∧ t.jobs = s.jobs.filter (fun j => j.ctx != c) ∧ t.regions = s.regions.filter (fun r => r.ctx != c)
          ∧ t.rbit (kctx c + 4) 4 = true ∧ t.rbit k 2 = true ∧ t.rbit k 0 = false
          ∧ (∀ x, x < 2 ^ 48 → x < a ∨ a + saveArea ≤ x → t.rd8 x = s.rd8 x))
      ∧ (2 ^ 48 < a + saveArea → ∃ t : State, exec (.saveImageWrite c) s = .next t
          ∧ t.rbit k 3 = true ∧ t.rbit k 0 = false ∧ t.jobs = s.jobs ∧ t.regions = s.regions ∧ t.mem = s.mem))
    ∧ (Reaches s k priv → bitOf w.toNat 0 = false → bitOf w.toNat 1 = true →
      (s.saves.find? (fun v => v.ctx == c && !v.open_) = none →
        exec (.contextRestore c w priv) s = .next ((s.asked.setRbit k 3 true).setRbit k 2 false))
      ∧ (∀ v, s.saves.find? (fun v => v.ctx == c && !v.open_) = some v → s.rbit (kctx c + 4) 4 = true → s.rbit k 0 = false →
        (s.imageLives v = true → exec (.contextRestore c w priv) s
          = .next (((((s.asked.latch (kctx c + 0x10)).setRbit k 3 false).setRbit k 2 false).setRbit k 1 true).restoreTry c))
        ∧ (s.imageLives v = false → exec (.contextRestore c w priv) s
          = .next (((s.asked.setRbit k 3 true).setRbit k 2 false).ctxError c { code := eRestoreStale, unit := 1 }))
        ∧ (s.imageLives v = true → v.regions = [] →
          ∃ t : State, exec (.contextRestore c w priv) s = .next t ∧ t.jobs = s.jobs ++ v.jobs
            ∧ t.rbit (kctx c + 4) 4 = false ∧ (v.jobs ≠ [] → t.rbit (kctx c + 4) 3 = false)
            ∧ t.rbit k 2 = true ∧ t.rbit k 1 = false ∧ t.mem = s.mem)))

/-- CAS_REQUEST (R266, R267, R272): one whose size is 0 or above 2^20 units of 256 bytes only sets STICKY; one that
finds the request before it not yet seen DONE is ignored with STICKY bit 3, or served like any other (log entry 33);
where no candidate has a buffer, RES is 0 and FAIL is set; else RES holds the handle of the buffer on top of the stack
of the first candidate, whose state word becomes REF 1, GEN + 1 and the requester, shown where nothing is zeroed and no
low mark is set. CAS_FREE and CAS_REF (R267, R269, R270): a good handle loses or gains one reference, and the buffer
whose last one goes, with no landing into it, returns to the top of its pool's stack; a handle of another owner sets
STICKY bit 2 and changes nothing else. RECLAIM of a context with an enabled queue sets REFUSED, and leaves a reclaim
that waits alone; one accepted waits for the context's landings, and then sets DONE (R273). -/
def Obligations.CaissonRequestsAct : Prop :=
  (∀ (s : State) (c : Nat) (w : U32) (priv : Bool), c ≤ 16 → Reaches s (win c + 0xA00) priv →
      (s.casPend.contains c = true → fld w.toNat 20 0 ≠ 0 → fld w.toNat 20 0 ≤ 1048576 →
        exec (.casRequest c w priv) s = .next (({ s.asked with free := s.free + 1 } : State).casStick c 3)
        ∨ exec (.casRequest c w priv) s
          = exec (.casRequest c w priv) { s with free := s.free + 1, casPend := s.casPend.filter (fun x => x != c) })
      ∧ (s.casPend.contains c = true → (fld w.toNat 20 0 = 0 ∨ 1048576 < fld w.toNat 20 0) →
        ∃ b, (b = 3 ∨ b = 4) ∧ exec (.casRequest c w priv) s = .next (({ s.asked with free := s.free + 1 } : State).casStick c b))
      ∧ (s.casPend.contains c = false → (fld w.toNat 20 0 = 0 ∨ 1048576 < fld w.toNat 20 0) →
        exec (.casRequest c w priv) s = .next (s.asked.casStick c 4))
      ∧ (s.casPend.contains c = false → fld w.toNat 20 0 ≠ 0 → fld w.toNat 20 0 ≤ 1048576 →
        (c = 16 ∨ s.rbit (kctx c) 0 = true) →
        ((∀ p ∈ s.candidates c (256 * fld w.toNat 20 0), s.poolFree p = 0) →
          ∃ t : State, exec (.casRequest c w priv) s = .next t ∧ t.reg (win c + 0xA04) = 0 ∧ t.rbit (win c + 0xA08) 0 = true
            ∧ t.rbit (win c + 0xA08) 1 = true ∧ t.rf (win c + 0xA08) 31 28 = fld w.toNat 31 28
            ∧ t.rbit (win c + 0xA1C) 1 = true ∧ t.mem = s.mem)
        ∧ (∀ p ps i gen, s.candidates c (256 * fld w.toNat 20 0) = p :: ps → s.poolFree p ≠ 0 → bitOf w.toNat 22 = false →
          s.poolIso p = false → s.reg (kcas p + 0x1C) = 0 →
          i = s.rd32 (s.poolMeta p + 4 * s.poolCount p + 4 * (s.poolFree p - 1)) →
          gen = (fld (s.bufWord p i) 15 8 + 1) % 256 →
          ∃ t : State, exec (.casRequest c w priv) s = .next t ∧ t.reg (win c + 0xA04) = bufHandle p i gen % 2 ^ 32
            ∧ t.rbit (win c + 0xA08) 0 = true ∧ t.rbit (win c + 0xA08) 1 = false
            ∧ t.rf (win c + 0xA08) 31 28 = fld w.toNat 31 28
            ∧ t.reg (win c + 0xA0C) = s.bufAddr p i % 2 ^ 32 ∧ t.reg (kcas p + 0x18) = s.poolFree p - 1
            ∧ fld (t.bufWord p i) 7 0 = 1 ∧ fld (t.bufWord p i) 15 8 = gen
            ∧ (if c = 16 then bitOf (t.bufWord p i) 20 = true
               else fld (t.bufWord p i) 19 16 = c ∧ bitOf (t.bufWord p i) 20 = false)
            ∧ bitOf (t.bufWord p i) 21 = false ∧ bitOf (t.bufWord p i) 23 = true)))
  ∧ ((∀ (s : State) (c : Nat) (w : U32) (priv : Bool) (p i : Nat), c ≤ 16 → p = hPool w.toNat → i = hIdx w.toNat →
      (Reaches s (win c + 0xA14) priv →
        (s.casTest c w.toNat false = .ok → fld (s.bufWord p i) 7 0 = 1 → s.landingIn p i = false → s.poolFree p < s.poolCount p →
          ∃ t : State, exec (.casFree c w priv) s = .next t ∧ t.reg (kcas p + 0x18) = s.poolFree p + 1
            ∧ t.rd32 (s.poolMeta p + 4 * s.poolCount p + 4 * s.poolFree p) = i
            ∧ fld (t.bufWord p i) 7 0 = 0 ∧ fld (t.bufWord p i) 31 8 = fld (s.bufWord p i) 31 8)
        ∧ (s.casTest c w.toNat false = .ok → fld (s.bufWord p i) 7 0 ≠ 1 →
          ∃ t : State, exec (.casFree c w priv) s = .next t ∧ t.bufWord p i = s.bufWord p i - 1 ∧ t.regs = s.asked.regs)
        ∧ (s.casTest c w.toNat false = .foreign → exec (.casFree c w priv) s = .next (s.asked.casStick c 2)))
      ∧ (Reaches s (win c + 0xA18) priv →
        (s.casTest c w.toNat true = .ok →
          ∃ t : State, exec (.casRef c w priv) s = .next t ∧ t.bufWord p i = s.bufWord p i + 1 ∧ t.regs = s.asked.regs)
        ∧ (s.casTest c w.toNat true = .foreign → exec (.casRef c w priv) s = .next (s.asked.casStick c 2))))
    ∧ (∀ (s : State) (w : U32) (priv : Bool), Reaches s 0xA0400 priv →
      (bitOf w.toNat 31 = false → exec (.reclaim w priv) s = .next (s.asked.setRf 0xA0400 3 0 (fld w.toNat 3 0)))
      ∧ (bitOf w.toNat 31 = true → s.anyEnabled (fld w.toNat 3 0) = true →
        ∃ t : State, exec (.reclaim w priv) s = .next t ∧ t.rbit 0xA0400 29 = true ∧ t.rf 0xA0400 3 0 = fld w.toNat 3 0
          ∧ t.reclaims = s.reclaims ∧ t.mem = s.mem)
      ∧ (bitOf w.toNat 31 = true → s.anyEnabled (fld w.toNat 3 0) = false →
        (∃ l ∈ s.landings, l.ctx = fld w.toNat 3 0) →
        ∃ t : State, exec (.reclaim w priv) s = .next t ∧ fld w.toNat 3 0 ∈ t.reclaims ∧ t.rf 0xA0400 3 0 = fld w.toNat 3 0
          ∧ t.rbit 0xA0400 30 = false ∧ t.rbit 0xA0400 29 = false ∧ t.mem = s.mem)
      ∧ (bitOf w.toNat 31 = true → s.anyEnabled (fld w.toNat 3 0) = false → (∀ l ∈ s.landings, l.ctx ≠ fld w.toNat 3 0) →
        s.rf (kctx (fld w.toNat 3 0) + 4) 1 0 ≠ 2 →
        ∃ t : State, exec (.reclaim w priv) s = .next t ∧ t.reclaims = s.reclaims.filter (fun x => x != fld w.toNat 3 0)
          ∧ t.rbit 0xA0400 29 = false ∧ t.rbit 0xA0400 30 = true)))


/-- R261, from a port that may write the register: KEVQ_RD takes a value that lies from RD to WR as i32 differences, at both
of its offsets, and ignores any other. -/
def Obligations.EventReadIndexMoves : Prop :=
  ∀ (s : State) (e : Nat) (window : Bool) (w : U32) (priv : Bool), e ≤ 16 →
    Reaches s (if window then win e + 0xB10 else kevq e + 0x10) priv →
    (0 ≤ (w - u32 (s.reg (kevq e + 0x10))).toInt → 0 ≤ (u32 (s.reg (kevq e + 0xC)) - w).toInt →
      ∃ t : State, exec (.eventRdWrite e window w priv) s = .next t ∧ t.reg (kevq e + 0x10) = w.toNat
        ∧ t = { s.asked with regs := t.regs, evHeld := t.evHeld } ∧ (∀ a, a ≠ kevq e + 0x10 → t.reg a = s.asked.reg a))
    ∧ (¬(0 ≤ (w - u32 (s.reg (kevq e + 0x10))).toInt ∧ 0 ≤ (u32 (s.reg (kevq e + 0xC)) - w).toInt) →
      exec (.eventRdWrite e window w priv) s = .next s.asked)

/-- An event queue is enabled with a size from 2^8 to 2^15 records and a ring inside the Deck, which zeroes WR, RD and PKTS;
any other enable sets CFG_ERR and leaves it disabled (R256). Unread records that stand for TMO set PEND, again after a
write that clears it while they still stand (R262). -/
def Obligations.EventQueueEnableAndCoalesce : Prop :=
  ∀ (s : State) (e : Nat) (w : U32) (priv : Bool) (k n : Nat), e ≤ 16 → k = kevq e → n = s.rf (k + 4) 4 0 →
    (Reaches s (k + 8) priv → s.rbit (k + 8) 0 = false → bitOf w.toNat 0 = true →
      (8 ≤ n → n ≤ 15 → s.reg k + 16 * 2 ^ n ≤ s.reg 0x90008 * 2 ^ 21 →
        ∃ t : State, exec (.eventQueueEnable e w priv) s = .next t ∧ t.rbit (k + 8) 0 = true ∧ t.reg (k + 0xC) = 0
          ∧ t.reg (k + 0x10) = 0 ∧ t.reg (k + 0x18) = 0 ∧ t.evUnread e = 0 ∧ t.mem = s.mem)
      ∧ ((n < 8 ∨ 15 < n ∨ s.reg 0x90008 * 2 ^ 21 < s.reg k + 16 * 2 ^ n) →
        ∃ t : State, exec (.eventQueueEnable e w priv) s = .next t ∧ t.rbit (k + 8) 0 = false ∧ t.rbit (k + 0x1C) 3 = true
          ∧ t.mem = s.mem))
    ∧ (s.refclk = true → s.rst.level = none → s.rbit (k + 8) 0 = true → s.rf (k + 4) 31 24 ≠ 0 → s.evUnread e ≠ 0 →
      ∃ t : State, exec (.eventCoalesceTimeout e) s = .next t ∧ t.rbit (k + 0x1C) 0 = true
        ∧ t = { s with regs := t.regs, evHeld := t.evHeld } ∧ (∀ a, a ≠ k + 0x1C → t.reg a = s.reg a)
        ∧ ∀ v, (t.writeEvStatus e v).rbit (k + 0x1C) 0 = true)
    ∧ (s.evUnread e = 0 → exec (.eventCoalesceTimeout e) s = .next s)

/-- R282: the LO word of a counter reads the low half of its 48 bits, and the HI word that a later read returns is the high
half as it was at that read, whatever the counter does in between. -/
def Obligations.CounterPairsReadWhole : Prop :=
  ∀ (s : State) (off n : Nat) (priv : Bool), Reaches s off priv → counterLo off = true →
    ∃ t : State, exec (.counterLoRead off priv) s = .next t ∧ t.ctl.rdata.toNat = s.cnt off % 2 ^ 32
      ∧ t.cnt48 = s.cnt48 ∧ t.regs = s.asked.regs ∧ t.mem = s.mem
      ∧ (t.cntAdd off n).view (off + 4) = s.cnt off / 2 ^ 32

/-- Register access by code (R8, R9): a read of an RC register returns its word and leaves it 0; a write stores the RW words
shown (KPIER_VCW, and KACCT_COEF of the classes 0 to 7 of R281), clears the W1C bits that are written as 1 (of KCTX_CWY_STICKY,
as reached through the own window), and leaves a read-only word as it was (KCW_TR_WR, KMAP_EPOCH). -/
def Obligations.RegisterCodesHold : Prop :=
  (∀ (s : State) (off : Nat) (priv : Bool), Reaches s off priv →
      (off = 0x1008 ∨ off = 0x1000C ∨ (∃ i, i < 24 ∧ off = 0x1100 + 4 * i) ∨ (∃ p, p < 8 ∧ (off = kcas p + 0x20 ∨ off = kcas p + 0x24))
        ∨ (∃ e, e ≤ 16 ∧ off = kevq e + 0x14)) →
      ∃ t : State, exec (.readClear off priv) s = .next t ∧ t.ctl.rdata.toNat = s.reg off ∧ t.reg off = 0
        ∧ (∀ a, a ≠ off → t.reg a = s.asked.reg a) ∧ t.mem = s.mem)
  ∧ (∀ (s : State) (w : U32) (priv : Bool), s.ctlUp = true → s.rst.posted = true →
      (∀ i, i < 8 → exec (.registerWrite (0xB0800 + 4 * i) w true) s = .next (s.asked.setReg (0xB0800 + 4 * i) w.toNat))
      ∧ (∀ p, p < 4 → s.part.pier p = true →
          exec (.registerWrite (0x40000 + 0x40 * p) w true) s = .next (s.asked.setReg (0x40000 + 0x40 * p) w.toNat))
      ∧ (∀ c, c < 16 → ∃ t : State, exec (.registerWrite (win c + 0x600) w priv) s = .next t
          ∧ u32 (t.reg (win c + 0x600)) = u32 (s.reg (win c + 0x600)) &&& ~~~(w &&& 0xF)
          ∧ (∀ a, a ≠ win c + 0x600 → t.reg a = s.asked.reg a))
      ∧ (∀ i, i < 256 → ∃ t : State, exec (.registerWrite (0x31000 + 8 * i) w true) s = .next t ∧ ∀ a, t.reg a = s.asked.reg a)
      ∧ (∃ t : State, exec (.registerWrite 0x1A050 w true) s = .next t ∧ ∀ a, t.reg a = s.asked.reg a))

-- clocks, boot, resets, Piers

/-- A write of KPACE takes effect at the end of the current window: it changes the register, a BPW of 0 keeping the old one,
and not the pace of this window; a window that delivered too few beats counts a slip; REFLOST is set when KREFCLK returns,
and no timer or poll period shown passes while it stands (R326, R327, R329). -/
def Obligations.PaceAndReferenceClock : Prop :=
  (∀ (s : State) (w : U32) (priv : Bool), Reaches s 0x10008 priv →
      ∃ t : State, exec (.paceWrite w priv) s = .next t ∧ t.pace = s.pace ∧ t.rbit 0x10008 31 = bitOf w.toNat 31
        ∧ t.rf 0x10008 10 0 = (if fld w.toNat 10 0 = 0 then s.rf 0x10008 10 0 else fld w.toNat 10 0)
        ∧ t.rbit 0x10008 27 = (s.rbit 0x10008 27 && !bitOf w.toNat 27) ∧ t.rbit 0x10008 28 = (s.rbit 0x10008 28 && !bitOf w.toNat 28)
        ∧ t.rf 0x10008 30 29 = s.rf 0x10008 30 29)
  ∧ (∀ (s : State) (beats : Nat), s.refclk = true → s.rst.low = false →
      ∃ t : State, exec (.paceWindow beats) s = .next t
        ∧ t.pace = { en := s.rbit 0x10008 31, bpw := s.rf 0x10008 10 0 }
        ∧ t.reg 0x1000C = (if s.pace.en = true ∧ beats < s.pace.bpw ∧ s.rf 0x10008 30 29 ≠ 1
            then min (s.reg 0x1000C + 1) 0xFFFFFFFF else s.reg 0x1000C)
        ∧ t.rbit 0x10008 28 = (s.rbit 0x10008 28 || decide (s.pace.en = true ∧ beats < s.pace.bpw ∧ s.rf 0x10008 30 29 ≠ 1)))
  ∧ (∀ s : State, ∃ t u : State, exec .refclkStop s = .next t ∧ t.refclk = false ∧ t.regs = s.regs
      ∧ exec .refclkReturn t = .next u ∧ u.refclk = true ∧ u.rbit 0x10008 27 = true
      ∧ (∀ q, exec (.waitTimeout q) t = .next t) ∧ (∀ e, exec (.eventCoalesceTimeout e) t = .next t)
      ∧ (∀ c d vc, exec (.streamTimeout c d vc) t = .next t) ∧ (∀ w, exec (.waitPoll w) t = .next t)
      ∧ exec .isolationTimeout t = .next t)

/-- The microcode boot (R340, R341): GO starts the fetch from device memory, KBOOT_DATA appends a word on the debug
path; an image that passes its checks is stored, its SHA-256 stands in KBOOT_DIG and STATE is LOADED, and one that fails
leaves FAILED with its ERR; ACCEPT leads on, REJECT fails with ERR 0x06, and a GO in LOADED sets ERR 0x08, alone or
beside ACCEPT (R345). Bring-up (R2, R247, R335, R342): the domains are released one per gap; with the last, the boot
begins by its strap, or after a core reset goes on with the stored microcode; once the arrays are written and the boot
accepted, the block posts ready with the built-in FU image live in bank 0. -/
def Obligations.BootReachesReady : Prop :=
  ((∀ (s : State) (w : U32) (priv : Bool), Reaches s 0x204 priv →
        (s.rf 0x200 3 0 = 4 → bitOf w.toNat 1 = true → bitOf w.toNat 2 = false →
          ∃ t : State, exec (.bootAccept w priv) s = .next t ∧ t.rf 0x200 3 0 = 5 ∧ t.boot = s.boot
            ∧ t.rf 0x200 15 8 = (if bitOf w.toNat 0 = true ∧ s.rf 0x200 15 8 = 0 then 8 else s.rf 0x200 15 8))
        ∧ (s.rf 0x200 3 0 = 4 → w.toNat % 8 = 1 →
          ∃ t : State, exec (.bootGo w priv) s = .next t ∧ t.rf 0x200 3 0 = 4 ∧ t.boot = s.boot
            ∧ t.rf 0x200 15 8 = (if s.rf 0x200 15 8 = 0 then 8 else s.rf 0x200 15 8))
        ∧ (s.rf 0x200 3 0 = 4 → bitOf w.toNat 2 = true →
          ∃ t : State, exec (.bootReject w priv) s = .next t ∧ t.rf 0x200 3 0 = 7 ∧ t.boot = s.boot
            ∧ (s.rf 0x200 15 8 = 0 → t.rf 0x200 15 8 = 6))
        ∧ (s.rf 0x200 3 0 = 2 → s.boot.src = 2 → bitOf w.toNat 0 = true →
          ∃ t : State, exec (.bootGo w priv) s = .next t ∧ t.rf 0x200 3 0 = 3 ∧ t.boot = s.boot))
    ∧ (∀ (s : State) (w : U32) (priv : Bool), Reaches s 0x210 priv → s.rf 0x200 3 0 = 2 → s.boot.src = 1 →
        (s.boot.dbg.length < 4 ∨ s.boot.dbg.length < imgLen s.boot.dbg) →
        ∃ t : State, exec (.bootData w priv) s = .next t ∧ t.boot.dbg = s.boot.dbg ++ natLe 4 w.toNat ∧ t.regs = s.asked.regs)
    ∧ (∀ (s : State) (rom im : List Byte), im = s.imgOf rom → s.rst.low = false → s.refclk = true → s.rst.arrays = true →
        s.imgHere im = true →
        (s.imgCheck im = 0 → ∃ t : State, exec (.microcodeLoaded rom) s = .next t ∧ t.boot.store = im.take (imgLen im)
          ∧ t.rf 0x200 3 0 = 4 ∧ t.mem = s.mem
          ∧ (∀ i, i < 8 → t.reg (0x220 + 4 * i) = leNat (((sha256 (im.take (imgLen im))).drop (4 * i)).take 4)))
        ∧ (s.imgCheck im ≠ 0 → ∃ t : State, exec (.microcodeLoaded rom) s = .next t ∧ t.rf 0x200 3 0 = 7 ∧ t.boot = s.boot
          ∧ (s.rf 0x200 15 8 = 0 → t.rf 0x200 15 8 = s.imgCheck im))))
  ∧ ((∀ s : State, s.rst.low = true → exec .resetDeassert s = .next { s with rst := { s.rst with low := false } })
    ∧ (∀ s : State, s.rst.low = false → s.rst.iso = false → s.rst.level ≠ none → s.refclk = true → s.rbit 0x100 10 = false →
        (s.rst.rel < 11 → exec .domainRelease s = .next { s with rst := { s.rst with rel := s.rst.rel + 1 } })
        ∧ (s.rst.rel = 11 → ∃ t : State, exec .domainRelease s = .next t ∧ t.rst.rel = 12 ∧ t.mem = s.mem
          ∧ t.rf 0x200 3 0 = (if s.rst.level = some .core then 5 else match s.rst.straps.boot.toNat with
            | 3 => 3
            | 0 => 1
            | _ => 2))
        ∧ (s.rst.rel = 12 → exec .domainRelease s = .next s
          ∧ exec .arrayInitDone s = .next { s with rst := { s.rst with arrays := true } }))
    ∧ (∀ s : State, s.rf 0x200 3 0 = 5 → s.rst.low = false → s.rst.level ≠ none → s.rst.rel = 12 → s.rst.arrays = true →
        s.refclk = true → (s.rst.level ≠ some .core ∨ s.rbit 0x10004 1 = false) → s.rbit (kevq 16 + 8) 0 = false →
        ∃ t : State, exec .postReady s = .next t ∧ t.rst.posted = true ∧ t.rst.level = none ∧ t.rbit 0x200 4 = true
          ∧ t.rf 0x200 3 0 = 6 ∧ t.reg 0x80000 = 0 ∧ t.reg 0x80004 = 1 ∧ t.mem = s.mem ∧ t.queues = s.queues
          ∧ t.rf 0x50004 15 0 = leNat ((s.boot.store.drop 4).take 2)
          ∧ t.fu.bank0 = builtinBank ((s.boot.store.drop (leNat ((s.boot.store.drop 12).take 4))).take 154624)))


/-- Every reset completes (R330 to R332, R338, R360), for every state of the block: with nothing to wait for at its boundary it
clears what its level clears and spares the rest, and device memory where no output and no packet was unfinished; else it
waits in the isolation wrapper, with the domains untouched, as it may for a tag that may be outstanding (log entry 61). A
power-on reset is always taken; a system reset is absorbed only by a power-on reset in progress, and a core reset by either
in progress. A core reset that finds a longer reset's bring-up unfinished, KERR_STATUS.NEEDSYS or STRAP_BAD (R334, log entry
61) acts as a system reset. The response to a tag that the wrapper awaits may be the last, and where it times out, KRSTCAUSE
bit 5 is set and the reset touches the domains. The command queue of the model is its own and stays. -/
def Obligations.ResetsClearAndSpare : Prop :=
  ((∀ (s : State) (st : Straps), ∃ t : State, exec (.powerOnReset st) s = .next t ∧ ResetTaken s t .power
      ∧ (t.rst.iso = false → ∀ i, i < 8 → t.reg (0xB0800 + 4 * i) = (s.part.coef.getD i 0).toNat))
    ∧ (∀ (s : State) (st : Straps),
      (s.resetRuns = true → s.rst.level = some .power → exec (.systemReset st) s = .next s)
      ∧ (s.resetRuns = false ∨ s.rst.level ≠ some .power →
        ∃ t : State, exec (.systemReset st) s = .next t ∧ ResetTaken s t .system))
    ∧ (∀ (s : State) (st : Straps) (long : Bool), long = decide (s.rst.level = some .power ∨ s.rst.level = some .system) →
      (s.resetRuns = true → long = true → exec (.coreReset st) s = .next s)
      ∧ (s.resetRuns = false ∨ long = false → ∃ t : State, exec (.coreReset st) s = .next t
        ∧ ResetTaken s t (if long = true ∨ s.rbit 0x1004 2 = true ∨ s.rbit 0x100 10 = true then .system else .core))))
  ∧ (∀ (s : State) (l : Level), s.rst.level = some l → s.refclk = true → s.rst.iso = true →
      ∃ t : State, exec .isolationTimeout s = .next t ∧ t.rst.level = some l ∧ t.rst.rel = 0 ∧ t.rst.iso = false
        ∧ t.queues = [] ∧ t.tx = [] ∧ t.landings = [] ∧ t.feeds = [] ∧ t.rbit 0x100 5 = true ∧ t.pending = s.pending)
  ∧ (∀ (s : State) (l : Level) (q : Nat) (i : U32) (a : Nat) (st : MemStatus), s.rst.level = some l → s.rst.iso = true →
      s.rst.tags = true → s.landings = [] → (∀ f ∈ s.feeds, f.ended = true) →
      ∃ t : State, exec (.memoryReadResponse (.command q i a) st) s = .next t
        ∧ (t.rst.iso = true → t.rst.tags = true ∧ t.queues = s.queues ∧ t.regs = s.regs ∧ t.mem = s.mem)
        ∧ (t.rst.iso = false → Cleared s t l))

/-- The Piers (R106, R319, R321): a credit grant sends the frame at the head of a VC where it then suffices for the
flits that the frame takes beyond the room in the last one (log entry 17), and is kept where it does not; a change of
link state stands in KPIER_STATUS and sends no frame twice. -/
def Obligations.PiersMoveUnderCredit : Prop :=
  (∀ (s : State) (p vc n have_ need_ : Nat) (f : Frame), s.live = true → s.part.pier p = true → vc ≤ 7 →
      have_ = FMap.get 0 s.net.credit (8 * p + vc) → s.net.queued = [(p, vc, f)] →
      need_ = flitsFor (FMap.get 0 s.net.room (8 * p + vc)) f.bytes →
      (need_ ≤ have_ + n → ∃ t : State, exec (.pierCredit p vc n) s = .next t ∧ t.net.queued = []
        ∧ t.net.sent = s.net.sent ++ [(p, vc, f)] ∧ FMap.get 0 t.net.credit (8 * p + vc) = have_ + n - need_
        ∧ t.mem = s.mem ∧ t.regs = s.regs)
      ∧ (have_ + n < need_ → ∃ t : State, exec (.pierCredit p vc n) s = .next t ∧ t.net.queued = s.net.queued
        ∧ t.net.sent = s.net.sent ∧ FMap.get 0 t.net.credit (8 * p + vc) = have_ + n ∧ t.mem = s.mem ∧ t.regs = s.regs))
  ∧ (∀ (s : State) (p : Nat) (up : Bool), s.part.pier p = true → (4 < s.rst.rel ∨ s.rst.level = some .core) → s.rbit (0x40004 + 0x40 * p) 0 ≠ up →
      s.net.queued = [] → ∃ t : State, exec (.pierLinkChange p up) s = .next t ∧ t.rbit (0x40004 + 0x40 * p) 0 = up
        ∧ t.net.sent = s.net.sent ∧ t.tx = s.tx ∧ t.net.credit = s.net.credit)
  ∧ (∀ (s : State) (p vc n : Nat) (up : Bool), s.part.pier p = false →
      exec (.pierCredit p vc n) s = .next s ∧ exec (.pierLinkChange p up) s = .next s)

/-- Memory responses (R115, R269, R317, R341, R351, R353, R357): of OK on a read the words are only received, in array
0x0B (R363); a bad one faults the command that issued the transfer, started or not, a write's transfer with UNCORR
leaving its line undefined; where a teardown has abandoned that command it joins the teardown; it fails the fetch of the
microcode with ERR 0x04 or 0x05. A landing whose writes are acknowledged ends, and its answer leaves, behind a HELLO
where the chip's version is unknown (R130), shown with no older landing of its stream, no Caisson pool, and nothing that
awaits the end. -/
def Obligations.MemoryResponsesAct : Prop :=
  (∀ (s : State) (t : MemTarget), s.rst.iso = false → exec (.memoryReadResponse t .ok) s = .next (s.arrayWrite 0xB))
  ∧ (∀ (s : State) (q : Nat) (i : U32) (a : Nat) (c : Cmd) (st : MemStatus), st ≠ .ok → s.live = true → s.rst.iso = false →
      s.findCmd q i = some c → s.ringOf q i = none →
      exec (.memoryReadResponse (.command q i a) st) s = .next ((s.arrayWrite 0xB).fault q i c.op
        { flt (if st = .uncorr then eUncorrectable else eMemDecode) (unitOf c.op) with
          lo := a % 2 ^ 32, hi := a / 2 ^ 32, inst := s.memPort (s.owner q) a })
      ∧ exec (.memoryWriteAck (.command q i a) st) s
        = .next ((if st = .uncorr then (s.arrayWrite 0xB).scramble [(a / 256 * 256, 256)] else s.arrayWrite 0xB).fault q i c.op
        { flt (if st = .uncorr then eUncorrectable else eMemDecode) (unitOf c.op) with
          lo := a % 2 ^ 32, hi := a / 2 ^ 32, inst := s.memPort (s.owner q) a }))
  ∧ (∀ (s : State) (q : Nat) (i : U32) (a op : Nat) (st : MemStatus), st ≠ .ok → s.live = true → s.rst.iso = false →
      s.findCmd q i = none → (s.queue q).gone = [(i, op)] → s.owner q < 16 → 2 ≤ s.rf (kctx (s.owner q) + 4) 1 0 →
      exec (.memoryReadResponse (.command q i a) st) s = .next ((s.arrayWrite 0xB).ctxError (s.owner q)
        { code := if st = .uncorr then eUncorrectable else eMemDecode, unit := unitOf op, q := q, qidx := i.toNat,
          lo := a % 2 ^ 32, hi := a / 2 ^ 32, inst := s.memPort (s.owner q) a }))
  ∧ (∀ (s : State) (st : MemStatus), st ≠ .ok → s.rst.iso = false → s.rf 0x200 3 0 = 3 → s.rf 0x200 15 8 = 0 →
      ∃ t : State, exec (.memoryReadResponse .microcode st) s = .next t ∧ t.rf 0x200 3 0 = 7
        ∧ t.rf 0x200 15 8 = (if st = .uncorr then 5 else 4) ∧ t.mem = s.mem)
  ∧ (∀ (s : State) (l : Landing) (d : Nat) (f : Frame), s.live = true → s.rst.iso = false →
      s.landings.find? (fun x => x.n == l.n) = some l → l.ack = some (d, f) →
      (∀ m ∈ s.landings, m.n ≠ l.n → m.before l = false) → (∀ p, p < 8 → s.poolCount p = 0) →
      (16 ≤ l.ctx ∨ s.rf (kctx l.ctx + 4) 1 0 ≠ 2) → l.ctx ∉ s.reclaims → (∀ g ∈ s.feeds, g.ctx ≠ l.ctx) →
      exec (.memoryWriteAck (.landing l.n) .ok) s
        = .next (({ s.arrayWrite 0xB with landings := s.landings.filter (fun m => m.n != l.n) } : State).answer d f)
      ∧ (s.peerVer d ≠ 0 → ({ s with landings := s.landings.filter (fun m => m.n != l.n) } : State).answer d f
        = ({ s with landings := s.landings.filter (fun m => m.n != l.n) } : State).emit d 0 f))

-- slabs on the Piers

/-- Checks 1, 3 and 4 of R114 on a slab of each kind that has one row (the COUNT kind has three), once its chip's
version is known (R130): a bad header is only counted, a context that is not enabled is answered NO_CONTEXT and a wrong
key KEY where the kind is answered; a NACK that answers a HELLO in flight is not among them (R130). A DISPATCH slab that
passes every check lands (R112): the landing waits for its writes with its ACK, and where the ranges do not meet, its
rows stand in the Bay, FILL has grown by them, and one landing-list entry is appended. A RETURN slab's rows go to their
planes (R123). -/
def Obligations.SlabsPassChecksAndLand : Prop :=
  (∀ (s u : State) (p k : Nat) (f : Frame) (i : Instr), u = s.dp1Seen f → s.pierUp p = true → kindOk f = true → fKind f = k →
      (k, i) ∈ [(1, Instr.dispatchSlabRx p f), (2, .returnSlabRx p f), (3, .reserveRx p f), (4, .grantRx p f),
        (6, .markerRx p f), (7, .ackRx p f), (8, .nackRx p f)] →
      (k = 8 → fld (f.w 8) 15 8 ≠ 4 ∨ s.hellos.any (fun h => h.chip == fSrc f) = false) →
      (f.hdrBad = true → exec i s = .next ((s.chargeIn 16 f).sysCount 0))
      ∧ (fVer f = 2 ∨ s.peerVer (fSrc f) ≠ 0 → u = s)
      ∧ (f.hdrBad = false → u.rbit (win (fCtx f) + 0x500) 0 = false ∨ u.rbit (kctx (fCtx f)) 0 = false →
        exec i s = .next (((u.chargeIn 16 f).sysCount 2).refuse f 2))
      ∧ (f.hdrBad = false → u.rbit (win (fCtx f) + 0x500) 0 = true → u.rbit (kctx (fCtx f)) 0 = true →
        fKey f ≠ u.reg (win (fCtx f) + 0x504) →
        exec i s = .next ((((u.chargeIn 16 f).ctxCount (fCtx f) 8 1).stick (fCtx f) 0x524 2).refuse f 3)))
  ∧ (∀ (s : State) (p : Nat) (f : Frame) (u : State) (b : Nat), Admits s p 1 f → s.dspTarget f = .ok →
      u = s.chargeIn (fCtx f) f → b = s.bcb (fCtx f) (fLslot f) →
      ∃ t : State, exec (.dispatchSlabRx p f) s = .next t ∧ t = u.dspLand f ∧ t.landNo = s.landNo + 1
        ∧ t.landings = s.landings ++ [{ n := s.landNo, ctx := fCtx f, gen := fGen f
                                        spans := [(s.bayRows b + s.bayPitch b * fRow f, f.payload.length)]
                                        seq := u32 (fSeq f)
                                        ack := some (fSrc f, s.answerFrame f 7 2 (fSeq f) 0 1 0) }])
  ∧ (∀ (u t : State) (c l src first n k b r tb le : Nat) (payload : List Byte), t = u.landRows c l src first n payload →
      b = u.bcb c l → k = u.rd32 (b + 48) → r = u.bayRows b + u.bayPitch b * first → tb = u.bayTiles b →
      le = u.bayLand b + 8 * k → src < 2 ^ 12 → first < 2 ^ 20 → n ≤ 256 →
      apart r payload.length b 64 → apart r payload.length tb (first / 128 + 3) → apart r payload.length le 8 →
      apart b 64 tb (first / 128 + 3) → apart b 64 le 8 → apart tb (first / 128 + 3) le 8 →
      (∀ i x, payload[i]? = some x → t.rd8 (r + i) = x) ∧ t.rd32 (b + 20) = (u.rd32 (b + 20) + n) % 2 ^ 32
        ∧ t.rd64 le = src + first * 2 ^ 12 + n * 2 ^ 32 ∧ t.rd32 (b + 48) = (k + 1) % 2 ^ 32
        ∧ (∀ a, a < 2 ^ 48 → (a < r ∨ r + payload.length ≤ a) → (a < b ∨ b + 64 ≤ a) → (a < tb ∨ tb + (first / 128 + 3) ≤ a) →
            (a < le ∨ le + 8 ≤ a) → t.rd8 a = u.rd8 a))
  ∧ (∀ (s : State) (p : Nat) (f : Frame) (e : Exch) (ts : List (Desc × Nat)) (brow : Nat), Admits s p 2 f →
      s.retTarget f = .ok → s.findExch (fCtx f) (fGen f) (fXid f) = some e →
      s.retTargets e (fSrc f) (fLslot f) (fRow f) (fRows f) = some ts →
      brow = rowBytes (s.readXb (s.desc e.ctx e.xb)).rfmt (fElems f) →
      ∃ t : State, exec (.returnSlabRx p f) s = .next t
        ∧ t.mem = ((s.rxAdvance f).placeRows brow (pitchOf brow) f.payload 0 ts).mem
        ∧ t.landings = s.landings ++ [{ n := s.landNo, ctx := fCtx f, gen := fGen f
                                        spans := ts.map (fun x => (x.1.byteAt (x.2 * x.1.rowB), brow))
                                        seq := u32 (fSeq f)
                                        ack := some (fSrc f, s.answerFrame f 7 2 (fSeq f) 0 2 0) }])

/-- A RESERVE at an armed Bay (R113, R116): RESV rises by N, saturating, REFUSED by what the capacity refuses, the GRANT with
FIRST_ROW and NROWS is sent and recorded with its SEQ, and the expected SEQ advances. A GRANT acknowledges its RESERVE and
what went before, and grants the exchange's chunk its rows (R113, R117), shown where no slab waits and no DISPATCH runs. -/
def Obligations.ReserveIsGranted : Prop :=
  (∀ (s : State) (p : Nat) (f : Frame) (b e n f0 rows : Nat), Admits s p 3 f → s.resTarget f = .ok →
      b = s.bcb (fCtx f) (fLslot f) → e = s.rpair (win (fCtx f) + 0x510) + 32 * fSrc f → n = fld (f.w 8) 8 0 →
      apart b 64 e 32 → f0 = s.rd32 (b + 16) →
      rows = (if f0 < min (f.w 9) (s.bayCap b) then min n (min (f.w 9) (s.bayCap b) - f0) else 0) →
      ∃ (t : State) (g : Frame), exec (.reserveRx p f) s = .next t ∧ t.rd32 (b + 16) = min (f0 + n) 0xFFFFFFFF
        ∧ t.rd32 (b + 24) = (s.rd32 (b + 24) + (n - rows)) % 2 ^ 32 ∧ t.rd32 (e + 24) = f0 % 2 ^ 20 + rows * 2 ^ 20
        ∧ t.rd32 (e + 28) = fSeq f ∧ t.rd32 (e + 20) = (fSeq f + 1) % 2 ^ 32 ∧ t.Sends 0 g ∧ fKind g = 4 ∧ fDst g = fSrc f
        ∧ fRow g = f0 % 2 ^ 20 ∧ fRows g = rows ∧ fSeq g = fSeq f)
  ∧ (∀ (s : State) (p : Nat) (f : Frame) (x : TxStream) (o : OutSlab), Admits s p 4 f → f.payload = [] →
      s.findTx (fCtx f) (fSrc f) 4 = some x → (∀ y ∈ s.tx, y.waiting = []) →
      x.unacked.find? (fun o => fKind o.f == 3 && fSeq o.f == fSeq f) = some o →
      ((s.findExch (fCtx f) (fGen o.f) (fXid o.f) = none →
        ∃ t : State, exec (.grantRx p f) s = .next t ∧ t.findTx (fCtx f) (fSrc f) 4
          = some (x.progress (x.unacked.filter (fun y => decide (0 < i32diff (fSeq y.f) (fSeq o.f))))))
      ∧ (∀ (e : Exch) (k : Chunk), s.findExch (fCtx f) (fGen o.f) (fXid o.f) = some e →
        e.asked.find? (fun k => k.dst == fSrc f) = some k → s.cmdsOf (fCtx f) = [] →
        ∃ (t : State) (e1 : Exch), exec (.grantRx p f) s = .next t ∧ t.findExch (fCtx f) (fGen o.f) (fXid o.f) = some e1
          ∧ e1.asked = e.asked.filter (fun y => !(y.dst == k.dst && y.rix == k.rix))
          ∧ e1.upd = e.upd ++ bucketUpd k.rix k.n (fRow f) (fRows f))))

/-- COUNT slabs of phases 0 and 1 reach their exchange (R165, R168) with what they carry of each slot, the kept records, or the
base row and the admitted count; an ARRIVE reaches its coordinator and a RELEASE its member, where one of a mismatch faults
it with E_EXCH_MISMATCH, also after its TREL (R171); and
a MARKER adds 1 to its counter (R12, R114) and writes no other byte, shown with no feed open and the trace off. -/
def Obligations.CountBarrierAndMarkerSlabs : Prop :=
  (∀ (s : State) (p : Nat) (f : Frame) (e : Exch), Admits s p 5 f → fPhase f ≤ 1 → s.cntTarget f = .ok →
      s.findExch (fCtx f) (fGen f) (fXid f) = some e →
      ∃ (t : State) (e1 : Exch), exec (.countSlabRx p f) s = .next t ∧ t.findExch (fCtx f) (fGen f) (fXid f) = some e1
        ∧ (∃ m ∈ (if fPhase f = 0 then e1.ph0 else e1.ph1), m.src = fSrc f
          ∧ ((∀ x ∈ (if fPhase f = 0 then e.ph0 else e.ph1), x.src ≠ fSrc f) →
            m.mis = bitOf (f.w 8) 2 ∧ m.epoch.toNat = f.w 9 ∧ m.cap.toNat = f.w 10 ∧ m.layer = fld (f.w 11) 7 0
              ∧ m.ents.length = fld (f.w 8) 28 16
              ∧ (∀ j y, m.ents[j]? = some y → y.lslot = fld (leNat ((f.payload.drop (16 * j)).take 4)) 11 0
                ∧ y.a = leNat ((f.payload.drop (16 * j + 8)).take 4) ∧ y.b = leNat ((f.payload.drop (16 * j + 12)).take 4)))))
  ∧ (∀ (s : State) (p : Nat) (f : Frame) (b : Barrier), Admits s p 5 f → fPhase f = 2 → s.barTarget f = .ok →
      s.findBar (fCtx f) (fGen f) (fXid f) = some b → f.w 9 = b.members.length →
      ∃ (t : State) (b1 : Barrier), exec (.barrierArriveRx p f) s = .next t ∧ t.findBar (fCtx f) (fGen f) (fXid f) = some b1
        ∧ fSrc f ∈ b1.arrived ∧ (∀ m ∈ b.arrived, m ∈ b1.arrived))
  ∧ (∀ (s : State) (p : Nat) (f : Frame) (b : Barrier), Admits s p 5 f → fPhase f = 3 → s.barTarget f = .ok →
      s.findBar (fCtx f) (fGen f) (fXid f) = some b → b.released = false →
      (b.trel = none → bitOf (f.w 8) 2 = false →
        ∃ (t : State) (b1 : Barrier), exec (.barrierReleaseRx p f) s = .next t ∧ t.findBar (fCtx f) (fGen f) (fXid f) = some b1
          ∧ b1.trel = some (BitVec.ofNat 64 (f.w 12 + 2 ^ 32 * f.w 13)))
      ∧ (bitOf (f.w 8) 2 = true → exec (.barrierReleaseRx p f) s
        = .next ((((s.chargeIn (fCtx f) f).rxAdvance f).ackNow f).fault b.q b.idx 0x05 (flt eExchMismatch 1))))
  ∧ (∀ (s : State) (p : Nat) (f : Frame) (c i : Nat), Admits s p 6 f → s.mrkTarget f = .ok → s.feeds = [] → c = fCtx f →
      i = fld (f.w 8) 19 0 → s.rbit 0x1A040 0 = false →
      ∃ t : State, exec (.markerRx p f) s = .next t ∧ t.ctr c i = (s.ctr c i + 1) % 2 ^ 32
        ∧ (∀ a, (∀ k, k < 4 → (s.ctrAddr c i + k) % addrMod ≠ a % addrMod) → t.rd8 a = s.rd8 a))

/-- Answers and timers of a sequenced stream (R115, R117), shown where no slab waits behind: an ACK takes away every
slab up to its SEQ but a RESERVE, and a resend that is due of a later one stays due; a first NACK NOT_READY schedules
the resend after 1 µs; NACK OUT_OF_SEQ, the 100 µs timer and the end of a back-off send again every unanswered slab from
the SEQ on, RESEND set, and nothing while KCTX_FAB_CTL.EN is 0 (R134); NACK KEY and FORMAT and the exchange timeout
fault the sending command. -/
def Obligations.AnswersMoveStreams : Prop :=
  (∀ (s : State) (p : Nat) (f : Frame) (x : TxStream), Admits s p 7 f → f.payload = [] →
      s.findTx (fCtx f) (fSrc f) (fld (f.w 8) 2 0) = some x → (∀ y ∈ s.tx, y.waiting = []) →
      ∃ (t : State) (y : TxStream), exec (.ackRx p f) s = .next t
        ∧ t.findTx (fCtx f) (fSrc f) (fld (f.w 8) 2 0) = some y
        ∧ y.unacked = x.unacked.filter (fun o => fKind o.f == 3 || decide (i32diff (fSeq f) (fSeq o.f) < 0))
        ∧ (∀ r o os, x.resend = some r → y.unacked = o :: os → 0 ≤ i32diff r.toNat (fSeq o.f) → y.resend = some r))
  ∧ (∀ (s : State) (p c d vc : Nat) (f : Frame) (x : TxStream) (o : OutSlab), Admits s p 8 f → f.payload = [] → c = fCtx f → d = fSrc f →
      vc = fld (f.w 8) 2 0 → s.findTx c d vc = some x → x.unacked.find? (fun o => fSeq o.f == fSeq f) = some o →
      (fld (f.w 8) 15 8 = 1 → x.backSeq = none → x.resend = none →
        ∃ t : State, exec (.nackRx p f) s = .next t
          ∧ t.findTx c d vc = some { x with backoff := 1, resend := some (u32 (fSeq f)), backSeq := none })
      ∧ (fld (f.w 8) 15 8 = 6 → x.backSeq = none → x.resend = none →
        ∃ t : State, exec (.nackRx p f) s = .next t
          ∧ (∀ y ∈ x.unacked, 0 ≤ i32diff (fSeq y.f) (f.w 9) → t.Sends vc (wireForm (s.peerVer d) (fResend y.f))))
      ∧ (fld (f.w 8) 15 8 = 9 → exec (.nackRx p f) s = .next ((s.chargeIn c f).slabFault o eSlabFormat 9 d))
      ∧ (fld (f.w 8) 15 8 = 3 → exec (.nackRx p f) s = .next (((s.chargeIn c f).stick c 0x524 1).slabFault o eStranger 3 d)))
  ∧ (∀ (s : State) (c d vc : Nat) (x : TxStream) (o : OutSlab) (os : List OutSlab), s.findTx c d vc = some x →
      s.live = true → s.refclk = true → x.unacked = o :: os →
      (s.rbit (win c + 0x500) 0 = true → ∃ t : State, exec (.slabResend c d vc) s = .next t
        ∧ (∀ y ∈ x.unacked, 0 ≤ i32diff (fSeq y.f) (fSeq o.f) → t.Sends vc (wireForm (s.peerVer d) (fResend y.f))))
      ∧ (s.rbit (win c + 0x500) 0 = false → exec (.slabResend c d vc) s = .next s ∧ exec (.backoffExpiry c d vc) s = .next s)
      ∧ (∀ r, s.rbit (win c + 0x500) 0 = true → x.resend = some r → ∃ t : State, exec (.backoffExpiry c d vc) s = .next t
        ∧ t.findTx c d vc = some { x with resend := none, backSeq := some r }
        ∧ (∀ y ∈ x.unacked, 0 ≤ i32diff (fSeq y.f) r.toNat → t.Sends vc (wireForm (s.peerVer d) (fResend y.f))))
      ∧ exec (.streamTimeout c d vc) s = .next (s.slabFault o eTimeout 0 d))

/-- HELLO (R130): one that allows version 2 or less is answered HELLO_ACK with the lower of its MAXVER and 2; a HELLO_ACK of
a HELLO in flight records version 2 and ends it; while something waits for the version, the HELLO is sent again. -/
def Obligations.VersionsAreLearned : Prop :=
  (∀ (s : State) (p : Nat) (f : Frame), s.pierUp p = true → f.hdrBad = false → fVer f = 2 → fKind f = 9 →
      fld (f.w 8) 7 4 ≤ 2 →
      ∃ (t : State) (g : Frame), exec (.hello p f) s = .next t ∧ t.Sends 0 g ∧ fKind g = 10 ∧ fDst g = fSrc f
        ∧ fld (g.w 8) 3 0 = min (fld (f.w 8) 3 0) 2 ∧ t.mem = s.mem)
  ∧ (∀ (s : State) (p : Nat) (f : Frame), s.pierUp p = true → f.hdrBad = false → fVer f = 2 → fKind f = 10 →
      (s.hellos.any (fun h => h.chip == fSrc f) = true → fld (f.w 8) 3 0 = 2 →
        ∃ t : State, exec (.helloAck p f) s = .next t ∧ t.peerVer (fSrc f) = 2 ∧ (∀ h ∈ t.hellos, h.chip ≠ fSrc f)
          ∧ (∀ d, d ≠ fSrc f → d < 4096 → t.peerVer d = s.peerVer d) ∧ t.mem = s.mem)
      ∧ (s.hellos.any (fun h => h.chip == fSrc f) = false → exec (.helloAck p f) s = .next (s.chargeIn 16 f)))
  ∧ (∀ (s : State) (d : Nat), s.live = true → s.refclk = true → s.hellos.any (fun h => h.chip == d) = true →
      (s.net.held.any (fun h => h.1 == d) = true ∨ s.versionWaiters d ≠ [] → exec (.helloResend d) s = .next (s.sayHello d true))
      ∧ (s.versionWaiters d = [] → s.net.held.any (fun h => h.1 == d) = false →
        exec (.helloResend d) s = .next { s with hellos := s.hellos.filter (fun h => h.chip != d) }))

-- rings, Tap, Feed, errors, Catwalk

/-- DATA and its answers on a ring (R190, R191, R198 to R200): a frame without a slot is answered NOT_READY; a duplicate
is acknowledged again, a gap answered OUT_OF_SEQ, and one in order of an earlier attempt discarded; one in order that
fits and agrees is taken, one that does not is reported as a mismatch, and in SHIFT and PERMUTE a full segment before
the end of the block is placed at its offset in DST, which is kept apart until the commit (R34). A RACK takes away every
DATA frame up to its SEQ, or the REPORT or DECIDE that is kept; a first RNACK NOT_READY schedules a resend and marks the
chip; an RNACK KEY is reported. -/
def Obligations.RingFramesAreTaken : Prop :=
  (∀ (s u : State) (p : Nat) (f : Frame), RingAdmits s p 1 f → u = s.chargeIn (fCtx f) f →
      (s.ringAt (fCtx f) (rGid f) (rSeq f) = none →
        exec (.ringDataRx p f) s = .next ((u.ctxCount (fCtx f) 10 1).ringAnswer f 3 (rSn f) 1 0))
      ∧ (∀ (slot : Nat) (r : RingSlot), s.ringAt (fCtx f) (rGid f) (rSeq f) = some (slot, r) → rAtt f ≤ r.attempt →
        (r.seqCheck f = .dup →
          exec (.ringDataRx p f) s = .next ((u.ctxCount (fCtx f) 9 1).ringAnswer f 2 (r.accepted f) 0 0))
        ∧ (∀ n, r.seqCheck f = .gap n →
          exec (.ringDataRx p f) s = .next ((u.ctxCount (fCtx f) 10 1).ringAnswer f 3 (rSn f) 6 n))
        ∧ (r.seqCheck f = .inOrder → rAtt f < r.attempt →
          exec (.ringDataRx p f) s = .next (u.ctxCount (fCtx f) 7 1))
        ∧ (r.seqCheck f = .inOrder → rAtt f = r.attempt → (r.fits f = false ∨ s.ringAgrees r f = false) →
          exec (.ringDataRx p f) s = .next ((u.ctxCount (fCtx f) 11 1).ringTell slot eExchMismatch))
        ∧ (r.seqCheck f = .inOrder → rAtt f = r.attempt → r.fits f = true → s.ringAgrees r f = true → f.payBad = false →
          exec (.ringDataRx p f) s = .next (u.ringTake slot r f)
          ∧ (3 ≤ r.op → r.finals ≠ r.want → s.findRing slot = some r → f.payload.length = segBytes →
              f.w 11 + segBytes < r.size → ∀ (ws : List (Nat × List Byte)) (c : Cmd), ws = (s.desc r.ctx r.dst).put (f.w 11) f.payload →
              s.findCmd r.q r.idx = some c →
              (c.saved = [] → (u.ringTake slot r f).mem = (s.puts ws).mem)
              ∧ (c.saved ≠ [] → (u.ringTake slot r f).mem = s.mem ∧ ∃ y, (u.ringTake slot r f).findCmd r.q r.idx = some y
                ∧ y.saved = c.saved.map (fun x => ws.foldl patch x))))))
  ∧ (∀ (s u : State) (p : Nat) (f : Frame), RingAdmits s p 2 f → u = s.chargeIn (fCtx f) f →
      (∀ k, s.ringAt (fCtx f) (rGid f) (rSeq f) = none → s.ringCtl.find? (ctlHit f) = some k →
        exec (.rackRx p f) s = .next { u with ringCtl := s.ringCtl.erase k })
      ∧ (∀ (slot : Nat) (r : RingSlot) (x : RingTx), s.ringAt (fCtx f) (rGid f) (rSeq f) = some (slot, r) →
        s.findRing slot = some r → s.ringCtlAgrees r f = true → s.ringStream f = some (slot, x) →
        (∀ y ∈ r.tx, y.waiting = []) → r.finals ≠ r.want → (∃ g ∈ x.unacked, 0 ≤ i32diff (rSn f) (rSn g)) →
        ∃ (t : State) (r1 : RingSlot), exec (.rackRx p f) s = .next t ∧ t.findRing slot = some r1
          ∧ (∀ y ∈ r1.tx, y.dst = x.dst → y.dir = x.dir → ∀ g ∈ y.unacked, i32diff (rSn f) (rSn g) < 0)))
  ∧ (∀ (s u : State) (p slot : Nat) (f : Frame) (r : RingSlot) (x : RingTx), RingAdmits s p 3 f → u = s.chargeIn (fCtx f) f →
      s.ringAt (fCtx f) (rGid f) (rSeq f) = some (slot, r) → s.findRing slot = some r → s.ringCtlAgrees r f = true →
      s.ringStream f = some (slot, x) → (∃ g ∈ x.unacked, rSn g = rSn f) →
      (rCode f = 1 → x.backSeq = none → x.resend = none →
        ∃ (t : State) (r1 : RingSlot), exec (.rnackRx p f) s = .next t ∧ t.findRing slot = some r1 ∧ x.dst ∈ r1.notrdy
          ∧ (∀ y ∈ r1.tx, y.dst = x.dst → y.dir = x.dir → y.resend = some (u32 (rSn f)) ∧ y.backoff = 1))
      ∧ (rCode f = 3 → exec (.rnackRx p f) s = .next ((u.stick (fCtx f) 0x524 1).ringTell slot eStranger)))

/-- Ends of collectives (R193 to R200): a REPORT of success is held by the leader until all have reported, one of a fault is
decided at once and held for a member without a slot, which faults where it waits to start; a DECIDE of success completes the
collective's command, and one of a fault that finds no slot is held; a REPORT or DECIDE of an attempt that the slot has left is
discarded without an answer; kept control frames are resent; the two timeouts report and fault. -/
def Obligations.CollectivesEnd : Prop :=
  (∀ (s : State) (p : Nat) (f : Frame) (ms : List Nat), RingAdmits s p 4 f → s.leads? (fCtx f) (rGid f) = true →
      s.ringAt (fCtx f) (rGid f) (rSeq f) = none → ringCodeOk f = true → s.findLead (fCtx f) (rGid f) (rSeq f) (rAtt f) = none →
      s.group (fCtx f) (rGid f) = .ok ms →
      (rCode f = 0 → (∃ m ∈ ms, m ≠ fSrc f) →
        ∃ (t : State) (l : RingLead), exec (.reportRx p f) s = .next t
          ∧ t.findLead (fCtx f) (rGid f) (rSeq f) (rAtt f) = some l ∧ l.done = [fSrc f] ∧ l.decided = false ∧ t.aborts = s.aborts)
      ∧ (rCode f ≠ 0 → s.aborts.length < 256 →
        ∃ (t : State) (l : RingLead), exec (.reportRx p f) s = .next t.abortWaiting
          ∧ t.findLead (fCtx f) (rGid f) (rSeq f) (rAtt f) = some l ∧ l.decided = true
          ∧ t.aborts = s.aborts ++ [{ ctx := fCtx f, gid := rGid f, gseq := rSeq f, attempt := rAtt f, code := rCode f,
                                      rerun := decide (rCode f = 0x1B) && decide (rAtt f < rRetry f) }]))
  ∧ (∀ (s : State) (p slot : Nat) (f : Frame) (r : RingSlot), s.ringAt (fCtx f) (rGid f) (rSeq f) = some (slot, r) →
      rAtt f < r.attempt →
      (RingAdmits s p 4 f → exec (.reportRx p f) s = .next ((s.chargeIn (fCtx f) f).ctxCount (fCtx f) 7 1))
      ∧ (RingAdmits s p 5 f → exec (.decideRx p f) s = .next ((s.chargeIn (fCtx f) f).ctxCount (fCtx f) 7 1)))
  ∧ (∀ (s : State) (p : Nat) (f : Frame), RingAdmits s p 5 f → ringCodeOk f = true →
      (s.ringAt (fCtx f) (rGid f) (rSeq f) = none → rCode f ≠ 0 → s.findLead (fCtx f) (rGid f) (rSeq f) (rAtt f) = none →
        s.aborts.length < 256 →
        ∃ t : State, exec (.decideRx p f) s = .next t.abortWaiting
          ∧ t.aborts = s.aborts ++ [{ ctx := fCtx f, gid := rGid f, gseq := rSeq f, attempt := rAtt f, code := rCode f,
                                      rerun := bitOf (f.w 9) 8 }])
      ∧ (∀ (slot : Nat) (r : RingSlot) (c : Cmd), s.ringAt (fCtx f) (rGid f) (rSeq f) = some (slot, r) →
        s.findRing slot = some r → r.attempt = rAtt f → r.decided = none → s.ringCtlAgrees r f = true → rCode f = 0 →
        s.findCmd r.q r.idx = some c → c.op ≠ 0x3D →
        ∃ (t : State) (y : Cmd), exec (.decideRx p f) s = .next t ∧ t.findCmd r.q r.idx = some y ∧ y.phase = .complete))
  ∧ (∀ (s : State) (c gid dst : Nat) (gseq : U32), s.live = true → s.refclk = true →
      ∃ t : State, exec (.ringResend c gid gseq dst) s = .next t
        ∧ (∀ k ∈ s.ringCtl, k.ctx = c → k.gid = gid → k.gseq = gseq → k.dst = dst → t.Sends 3 (fResend k.f)))
  ∧ (∀ (s : State) (slot : Nat) (r : RingSlot), s.findRing slot = some r → s.live = true → s.refclk = true → r.decided = none →
      (∀ l ms, r.reported = none → r.members = l :: ms → l ≠ s.chip →
        ∃ (t : State) (r1 : RingSlot), exec (.collectiveTimeout slot) s = .next t ∧ t.findRing slot = some r1
          ∧ r1.reported = some (if s.slotWaiters = 0 then eTimeout else eOrderSuspect))
      ∧ (r.reported.isSome = true →
        exec (.decideTimeout slot) s = .next
          ((s.updRing slot (fun r => { r with reported := some eTimeout })).ringFault slot r { flt eTimeout 12 with inst := slot })))

/-- The Tap (R54, R309, R311, R312): a good HELLO brings the link up at the lower version; a tile of a stopped stream is
discarded, one that no ROUTE takes is a breach on version 2; a broken message of a stream that a ROUTE consumes faults
that ROUTE; a tile that obeys R54 and R55 adds its scores to its rows, shown short of the last column with its blocks
placed; STOPPED ends the stream that was stopped, and so does the timeout, which marks it; STOPPED of a stream whose
ROUTE has rows to seal faults that ROUTE. The words of a message are received in array 0x0B, where an injection may be
armed (R363). -/
def Obligations.TapTakesTiles : Prop :=
  (∀ (s : State) (m : TapMsg), s.live = true → s.tapUp = false → m.parity = false → m.som = false → m.type = 1 →
      m.bare = true → m.stream = 0 → m.ver ≠ 0 →
      ∃ t : State, exec (.tapHello m) s = .next t ∧ t.tapUp = true ∧ t.tapVer = min m.ver 2 ∧ t.mem = s.mem ∧ t.queues = s.queues)
  ∧ (∀ (s : State) (m : TapMsg), s.live = true → s.tapUp = true → m.bad s.tapVer = false → m.type = 2 →
      (s.tap.stops.contains m.stream = true → exec (.tapTile m) s = .next (s.arrayWrite 0xB))
      ∧ (s.tap.stops.contains m.stream = false → s.tapVer = 2 → s.consumer m.stream = none →
        exec (.tapTile m) s = .next (((s.arrayWrite 0xB).tapBreach m).sysCount 6))
      ∧ (∀ (x : TapRun) (c : Cmd) (lo : Nat), s.tap.stops.contains m.stream = false → s.consumer m.stream = some (x, c) →
        x.done = false → x.pass * s.passRows ≤ m.row0 → lo = m.row0 - x.pass * s.passRows → lo + m.nrows ≤ x.rows.length →
        m.elem = logitFmt c.block.inFmt → m.col0 + m.ncol < c.block.cols c.stage → m.ncol % 64 = 0 →
        (∀ i, i < m.nrows → (x.rows.getD (lo + i) []).length = m.col0) →
        (∀ b ∈ s.tapBlocks m x, s.placed (c.region x.ctx x.q) b = true) →
        ∃ (t : State) (y : TapRun), exec (.tapTile m) s = .next t ∧ y ∈ t.tapRuns ∧ y.q = x.q ∧ y.idx = x.idx
          ∧ y.pass = x.pass ∧ (∀ i, i < m.nrows → (y.rows.getD (lo + i) []).length = m.col0 + m.ncol)))
  ∧ (∀ (s : State) (m : TapMsg) (x : TapRun) (c : Cmd), s.live = true → s.tapUp = true → s.tap.stops.contains m.stream = false →
      s.consumer m.stream = some (x, c) →
      (m.bad s.tapVer = true →
        exec (.tapTile m) s = .next (((s.arrayWrite 0xB).tapBreach m).fault x.q x.idx 0x10 (flt eTapStream 2)))
      ∧ (m.bad s.tapVer = false → m.type = 3 → x.done = false →
        exec (.tapStopped m) s = .next ((s.arrayWrite 0xB).fault x.q x.idx 0x10 (flt eTapStream 2))))
  ∧ (∀ (s : State) (m : TapMsg), s.live = true → s.tapUp = true → m.bad s.tapVer = false → m.type = 3 →
      s.tap.stops.contains m.stream = true →
      exec (.tapStopped m) s
        = .next { s.arrayWrite 0xB with tap := { s.tap with stops := s.tap.stops.filter (fun x => x != m.stream) } })
  ∧ (∀ (s : State) (n : Nat), s.live = true → s.refclk = true → s.tap.stops.contains n = true →
      ∃ t : State, exec (.tapStopTimeout n) s = .next t ∧ t.rbit 0x10000 7 = true
        ∧ t.tap.stops = s.tap.stops.filter (fun x => x != n) ∧ t.mem = s.mem)

/-- The error unit (R346 to R349, R354 to R356, R359, R363): a codeword read with one or two flips is corrected and
counted, one with three is uncorrectable and counted, and fatal in array 7, the microcode store (R346); one with four or
more is taken for either or passes unseen, by a free choice (log entry 61); a codeword may have an owner, and an
injection that has been applied is met by the next read of its array, the larger number of flips counting (log entry
26); the fatal timer drives the pin; the log pops, the first-error record clears, an injection is armed by its bits. -/
def Obligations.ErrorUnitActs : Prop :=
  (∀ (s : State) (a inst i n : Nat) (own : CodeOwner), s.rst.low = false → s.rst.arrays = true →
      (s.rbit 0x1000 20 = true ∨ own ≠ .none) → s.visitOk a inst i = true →
      (s.err.hurt.find? (fun x => x.1 == a) = none →
        (n = 0 → exec (.scrubVisit a inst i n own) s = .next s)
        ∧ (1 ≤ n → n ≤ 2 → s.rbit 0x1000 0 = false → s.rbit 0x1014 31 = false →
          exec (.scrubVisit a inst i n own) s = .next (s.satAdd (0x1100 + 8 * a) 1))
        ∧ (n = 3 → a ≤ 3 → own = .none → s.rbit 0x1000 0 = false → s.rbit 0x1014 31 = false →
          exec (.scrubVisit a inst i n own) s = .next (s.satAdd (0x1104 + 8 * a) 1))
        ∧ (n = 3 → a = 7 → ∃ t : State, exec (.scrubVisit a inst i n own) s = .next t ∧ t.rbit 0x1004 0 = true)
        ∧ (4 ≤ n → s.rbit 0x1000 0 = false → s.rbit 0x1014 31 = false →
          (Config.freePick s.free % 3 = 0 → exec (.scrubVisit a inst i n own) s = .next { s with free := s.free + 1 })
          ∧ (Config.freePick s.free % 3 = 1 →
            exec (.scrubVisit a inst i n own) s = .next (({ s with free := s.free + 1 } : State).satAdd (0x1100 + 8 * a) 1))))
      ∧ (∀ b, s.err.hurt.find? (fun x => x.1 == a) = some (a, b) → max n b = 1 ∨ max n b = 2 → s.rbit 0x1000 0 = false →
        s.rbit 0x1014 31 = false →
        exec (.scrubVisit a inst i n own) s = .next
          (({ s with err := { s.err with hurt := s.err.hurt.erase (a, b) } } : State).satAdd (0x1100 + 8 * a) 1)))
  ∧ (∀ s : State,
      (s.rbit 0x1004 0 = true → s.refclk = true → s.rst.low = false → s.rst.iso = false → s.halted = false →
        ∃ t : State, exec .fatalTimeout s = .next t ∧ t.fatalPin = true ∧ t.rbit 0x1004 4 = true
          ∧ t = { s with regs := t.regs, fatalPin := true })
      ∧ (s.rbit 0x1004 0 = false ∨ s.halted = true → exec .fatalTimeout s = .next s))
  ∧ (∀ (s : State) (w : U32) (priv : Bool),
      (Reaches s 0x100C priv → bitOf w.toNat 0 = true →
        ∃ t : State, exec (.logPop w priv) s = .next t ∧ t.err.fifo = s.err.fifo.drop 1 ∧ t.regs = s.asked.regs)
      ∧ (Reaches s 0x1010 priv → bitOf w.toNat 0 = true →
        ∃ t : State, exec (.firstClear w priv) s = .next t ∧ (∀ i, i < 8 → t.reg (0x1060 + 4 * i) = 0)
          ∧ t.rbit 0x1004 3 = false ∧ t.err = s.asked.err)
      ∧ (Reaches s 0x1014 priv →
        ∃ t : State, exec (.errorInject w priv) s = .next t ∧ t.rf 0x1014 9 0 = fld w.toNat 9 0
          ∧ t.rbit 0x1014 31 = ((s.asked.rbit 0x1014 31 || bitOf w.toNat 31) && fld w.toNat 9 8 != 0)))

/-- Triggers and the freeze (R368, R369, R371). Each row answers a next state: a pending fire, on a block that is up,
freezes the counters and leaves its id, source and time; a TRIG that is taken is answered TACK, a second copy changes
nothing more, one that comes while the chip is frozen or a fire is pending is remembered and counted, and any other
waits for its time or fires at once; a TACK ends its TRIG and changes nothing else; an unanswered TRIG is sent again up
to eight times and then marked NOACK; KCW_FREEZE_CLR ends the freeze (TRIGs of the ended freeze are forgotten, log entry
47). -/
def Obligations.TriggersFreeze : Prop :=
  (∀ (s : State) (f : Fire), s.cw.fire = some f → s.up = true →
      ∃ t : State, exec .triggerFire s = .next t ∧ t.rbit 0x1A000 0 = true ∧ t.cw.fire = none
        ∧ t.rf 0x1A01C 28 0 = (f.tid + f.src * 2 ^ 16) % 2 ^ 29 ∧ t.reg 0x1A020 = f.tfire.toNat % 2 ^ 32
        ∧ t.reg 0x1A024 = f.tfire.toNat / 2 ^ 32)
  ∧ (∀ (s u : State) (p tid : Nat) (f : Frame), CatwalkAdmits s p 2 f → tid = fld (f.w 3) 15 0 →
      u = (s.chargeIn 16 f).emit (fSrc f) 5 (s.cwFrame 3 (fSrc f) tid 0 0) →
      (s.cw.seen.contains (fSrc f, tid) = true → exec (.trigRx p f) s = .next u)
      ∧ (s.cw.seen.contains (fSrc f, tid) = false → (s.rbit 0x1A000 0 = true ∨ s.cw.fire.isSome = true) →
        exec (.trigRx p f) s = .next
          (({ u with cw := { u.cw with seen := u.cw.seen ++ [(fSrc f, tid)] } } : State).sysCount 9))
      ∧ (s.cw.seen.contains (fSrc f, tid) = false → s.rbit 0x1A000 0 = false → s.cw.fire = none →
        ∃ t : State, exec (.trigRx p f) s = .next t ∧ (fSrc f, tid) ∈ t.cw.seen
          ∧ (t.rbit 0x1A000 0 = true ∨ t.cw.fire = some { tid := tid, src := fSrc f,
                                                          tfire := BitVec.ofNat 64 (f.w 4 + 2 ^ 32 * f.w 5) })))
  ∧ (∀ (s : State) (p : Nat) (f : Frame), CatwalkAdmits s p 3 f →
      exec (.tackRx p f) s = .next { s.chargeIn 16 f with cw := { s.cw with
        trigs := s.cw.trigs.filter (fun x => !(x.dst == fSrc f && x.tid == fld (f.w 3) 15 0)) } })
  ∧ (∀ (s : State) (d tid : Nat) (x : Trig), s.cw.trigs.find? (fun y => y.dst == d && y.tid == tid) = some x →
      s.live = true → s.refclk = true →
      (x.tries < 8 → ∃ t : State, exec (.trigResend d tid) s = .next t ∧ t.Sends 5 x.f
        ∧ t.cw.trigs.find? (fun y => y.dst == d && y.tid == tid) = some { x with tries := x.tries + 1 })
      ∧ (8 ≤ x.tries → ∃ t : State, exec (.trigResend d tid) s = .next t ∧ t.rbit 0x1A01C 29 = true
        ∧ t.cw.trigs.find? (fun y => y.dst == d && y.tid == tid) = none))
  ∧ (∀ (s : State) (w : U32) (priv : Bool), Reaches s 0x1A028 priv →
      (bitOf w.toNat 0 = true →
        ∃ t : State, exec (.freezeClear w priv) s = .next t ∧ t.rbit 0x1A000 0 = false ∧ t.cw.seen = [] ∧ t.cnt48 = s.cnt48
          ∧ t.mem = s.mem)
      ∧ (bitOf w.toNat 0 = false → exec (.freezeClear w priv) s = .next s.asked))

/-- The trace and the dump (R375 to R377, R381). Each row answers a next state: a collector whose trace runs writes a
TRACE frame's record at WR in its ring, a LOSS record that is pending before it, one whose trace is off or stopped
writes nothing, and one over the limit of its window counts the records as lost; the 1 µs window begins anew. EN 0 to 1
with a size from 2^17 to 2^27 that exceeds POST zeroes the counts, another size sets CFG_ERR and stores nothing; the
ring's address is taken at the enable, and the slot's at GO (R389). A dump into a Deck slot handed to the device halts
the block; a slot elsewhere only sets ERR; once halted, the slot is handed back full, its contents partly free (log
entry 16), no byte outside it changes, DONE stands, and KEEP tells whether the block stays halted. -/
def Obligations.TraceAndDump : Prop :=
  (∀ (s : State) (p n : Nat) (f : Frame), CatwalkAdmits s p 1 f → fld (f.w 3) 15 0 = n →
      (s.rbit 0x1A040 0 = true → s.cw.stopped = false → n = 1 → f.payBad = false → f.payload.length = 32 → s.cw.local_ < 960 →
        s.cw.loss = none →
        ∃ t : State, exec (.traceRx p f) s = .next t ∧ t.reg 0x1A050 = (s.reg 0x1A050 + 1) % 2 ^ 32
          ∧ t.cw.local_ = s.cw.local_ + 1
          ∧ (∀ i x, f.payload[i]? = some x →
              t.rd8 (s.lpair 0x1A048 + 32 * (s.reg 0x1A050 % 2 ^ s.rf 0x1A040 8 4) + i) = x))
      ∧ (∀ k t0 chip a, s.rbit 0x1A040 0 = true → s.cw.stopped = false → n = 1 → f.payBad = false → f.payload.length = 32 →
        s.cw.local_ < 959 → s.cw.loss = some (k, t0, 3, chip) → s.cw.post = none → 1 ≤ s.rf 0x1A040 8 4 →
        a = s.lpair 0x1A048 + 32 * (s.reg 0x1A050 % 2 ^ s.rf 0x1A040 8 4) →
        ∃ t : State, exec (.traceRx p f) s = .next t ∧ t.reg 0x1A050 = (s.reg 0x1A050 + 2) % 2 ^ 32 ∧ t.cw.loss = none
          ∧ t.rd8 a = 0x0C ∧ t.rd32 (a + 12) = k % 2 ^ 32
          ∧ (∀ i x, f.payload[i]? = some x →
              t.rd8 (s.lpair 0x1A048 + 32 * ((s.reg 0x1A050 + 1) % 2 ^ s.rf 0x1A040 8 4) + i) = x))
      ∧ (s.rbit 0x1A040 0 = true → s.cw.stopped = false → 960 ≤ s.cw.local_ → 1 ≤ n →
        ∃ t : State, exec (.traceRx p f) s = .next t ∧ t.reg 0x1A058 = min (s.reg 0x1A058 + n) 0xFFFFFFFF ∧ t.mem = s.mem)
      ∧ (s.rbit 0x1A040 0 = false ∨ s.cw.stopped = true → exec (.traceRx p f) s = .next (s.chargeIn 16 f)))
  ∧ (∀ s : State, s.refclk = true →
      exec .traceRateWindow s = .next { s with cw := { s.cw with local_ := 0, remote := [] } })
  ∧ (∀ (s : State) (w : U32) (priv : Bool), Reaches s 0x1A040 priv →
      (s.rbit 0x1A040 0 = false → bitOf w.toNat 0 = true →
        (17 ≤ fld w.toNat 8 4 → fld w.toNat 8 4 ≤ 27 → s.reg 0x1A044 < 2 ^ fld w.toNat 8 4 →
          ∃ t : State, exec (.traceEnable w priv) s = .next t ∧ t.rbit 0x1A040 0 = true ∧ t.rf 0x1A040 8 4 = fld w.toNat 8 4
            ∧ t.reg 0x1A050 = 0 ∧ t.reg 0x1A054 = 0 ∧ t.reg 0x1A058 = 0 ∧ t.cw.stopped = false ∧ t.mem = s.mem
            ∧ t.lpair 0x1A048 = s.rpair 0x1A048)
        ∧ ((fld w.toNat 8 4 < 17 ∨ 27 < fld w.toNat 8 4 ∨ 2 ^ fld w.toNat 8 4 ≤ s.reg 0x1A044) →
          ∃ t : State, exec (.traceEnable w priv) s = .next t ∧ t.reg 0x1A040 = s.reg 0x1A040
            ∧ t.rbit 0x1A000 4 = true ∧ t.mem = s.mem))
      ∧ (bitOf w.toNat 0 = false →
        ∃ t : State, exec (.traceEnable w priv) s = .next t ∧ t.rbit 0x1A040 0 = false ∧ t.mem = s.mem))
  ∧ (∀ (s : State) (w : U32) (priv : Bool), Reaches s 0x1A060 priv → bitOf w.toNat 0 = true → s.cw.dumping = false →
      (s.dumpOk = true → ∃ t : State, exec (.dump w priv) s = .next t ∧ t.cw.dumping = true ∧ t.live = false
        ∧ t.rbit 0x1A060 0 = true ∧ t.mem = s.mem ∧ t.lpair 0x1A064 = s.rpair 0x1A064)
      ∧ (s.dumpOk = false → ∃ t : State, exec (.dump w priv) s = .next t ∧ t.cw.dumping = false ∧ t.rbit 0x1A060 3 = true
        ∧ t.mem = s.mem))
  ∧ (∀ s : State, s.cw.dumping = true → s.up = true → s.lpair 0x1A064 + dumpBytes ≤ 2 ^ 48 →
      (∀ e ∈ s.err.fifo, e.length = 8) →
      ∃ t : State, exec .dumpHalted s = .next t ∧ t.cw.dumping = false ∧ t.rbit 0x1A060 0 = false ∧ t.rbit 0x1A060 2 = true
        ∧ t.rbit 0x1A000 3 = (s.rbit 0x1A060 1 || s.rbit 0x1A000 3)
        ∧ fld (t.rd32 (s.lpair 0x1A064)) 3 0 = 2
        ∧ fld (t.rd32 (s.lpair 0x1A064)) 31 16 = (fld (s.rd32 (s.lpair 0x1A064)) 31 16 + 1) % 2 ^ 16
        ∧ (∀ a, a < 2 ^ 48 → a < s.lpair 0x1A064 ∨ s.lpair 0x1A064 + dumpBytes ≤ a → t.rd8 a = s.rd8 a))

end
end

