-- ==== Sys2Proof/Laws/FMap.lean ====
section
/-! SUPPORT. Sparse maps: reading after a write, every operation keeps the canonical form, and two maps in canonical
form that read alike are equal. -/
namespace Sys2Proof.Machine

variable {α : Type}

theorem FMap.get_del (d : α) (m : List (Nat × α)) (k j : Nat) :
    FMap.get d (FMap.del k m) j = if j = k then d else FMap.get d m j := by
  induction m with
  | nil => simp [FMap.del, FMap.get]
  | cons p m ih => obtain ⟨a, x⟩ := p; grind [FMap.del, FMap.get]

theorem FMap.get_ins (d : α) (m : List (Nat × α)) (k j : Nat) (v : α) (hm : ∀ p ∈ m, p.1 ≠ k) :
    FMap.get d (FMap.ins k v m) j = if j = k then v else FMap.get d m j := by
  induction m with
  | nil => grind [FMap.ins, FMap.get]
  | cons p m ih =>
    obtain ⟨a, x⟩ := p
    have ih := ih (fun p hp => hm p (List.mem_cons_of_mem _ hp))
    have ha : a ≠ k := hm (a, x) (by simp)
    grind [FMap.ins, FMap.get]

theorem FMap.mem_del (k : Nat) (m : List (Nat × α)) (p : Nat × α) : p ∈ FMap.del k m ↔ p ∈ m ∧ p.1 ≠ k := by
  induction m with
  | nil => simp [FMap.del]
  | cons q m ih => obtain ⟨a, x⟩ := q; grind [FMap.del]

theorem FMap.mem_ins (k : Nat) (v : α) (m : List (Nat × α)) (p : Nat × α) :
    p ∈ FMap.ins k v m ↔ p = (k, v) ∨ p ∈ m := by
  induction m with
  | nil => simp [FMap.ins]
  | cons q m ih => obtain ⟨a, x⟩ := q; grind [FMap.ins]

theorem FMap.get_below (d : α) (m : List (Nat × α)) (k : Nat) (h : ∀ p ∈ m, k < p.1) : FMap.get d m k = d := by
  induction m with
  | nil => rfl
  | cons p m ih =>
    obtain ⟨a, x⟩ := p
    have := h (a, x) (by simp)
    have ih := ih (fun p hp => h p (List.mem_cons_of_mem _ hp))
    grind [FMap.get]

variable [DecidableEq α]

/-- A read after a write: the value written at its key, the old value elsewhere. -/
theorem FMap.get_set (d : α) (m : List (Nat × α)) (k j : Nat) (v : α) :
    FMap.get d (FMap.set d m k v) j = if j = k then v else FMap.get d m j := by
  unfold FMap.set
  split
  · rw [FMap.get_del]; grind
  · rw [FMap.get_ins _ _ _ _ _ (fun p hp => ((FMap.mem_del k m p).1 hp).2), FMap.get_del]; grind

theorem FMap.wf_cons (d : α) (a : Nat) (v : α) (m : List (Nat × α)) :
    FMap.wf d ((a, v) :: m) = true ↔ v ≠ d ∧ (∀ p ∈ m, a < p.1) ∧ FMap.wf d m = true := by
  simp [FMap.wf, and_assoc]

theorem FMap.wf_del (d : α) (m : List (Nat × α)) (k : Nat) (h : FMap.wf d m = true) :
    FMap.wf d (FMap.del k m) = true := by
  induction m with
  | nil => rfl
  | cons p m ih =>
    obtain ⟨a, x⟩ := p
    obtain ⟨h1, h2, h3⟩ := (FMap.wf_cons ..).1 h
    simp only [FMap.del]
    split
    · exact ih h3
    · exact (FMap.wf_cons ..).2 ⟨h1, fun p hp => h2 p ((FMap.mem_del ..).1 hp).1, ih h3⟩

theorem FMap.wf_ins (d : α) (m : List (Nat × α)) (k : Nat) (v : α) (hv : v ≠ d) (hm : ∀ p ∈ m, p.1 ≠ k)
    (h : FMap.wf d m = true) : FMap.wf d (FMap.ins k v m) = true := by
  induction m with
  | nil => simp [FMap.ins, FMap.wf, hv]
  | cons p m ih =>
    obtain ⟨a, x⟩ := p
    obtain ⟨h1, h2, h3⟩ := (FMap.wf_cons ..).1 h
    have ha : a ≠ k := hm (a, x) (by simp)
    simp only [FMap.ins]
    split
    · refine (FMap.wf_cons ..).2 ⟨h1, fun p hp => ?_, ih (fun p hp => hm p (List.mem_cons_of_mem _ hp)) h3⟩
      rcases (FMap.mem_ins ..).1 hp with rfl | hp
      · assumption
      · exact h2 p hp
    · refine (FMap.wf_cons ..).2 ⟨hv, fun p hp => ?_, h⟩
      rcases List.mem_cons.1 hp with rfl | hp
      · simp only; omega
      · have := h2 p hp; omega

/-- A write keeps the canonical form. -/
theorem FMap.wf_set (d : α) (m : List (Nat × α)) (k : Nat) (v : α) (h : FMap.wf d m = true) :
    FMap.wf d (FMap.set d m k v) = true := by
  unfold FMap.set
  split
  · exact FMap.wf_del d m k h
  · exact FMap.wf_ins d _ k v ‹_› (fun p hp => ((FMap.mem_del k m p).1 hp).2) (FMap.wf_del d m k h)

theorem FMap.mem_set (d : α) (m : List (Nat × α)) (k : Nat) (v : α) (p : Nat × α) (h : p ∈ FMap.set d m k v) :
    p.1 = k ∨ p ∈ m := by
  unfold FMap.set at h
  split at h
  · exact .inr ((FMap.mem_del ..).1 h).1
  · rcases (FMap.mem_ins ..).1 h with rfl | h
    · exact .inl rfl
    · exact .inr ((FMap.mem_del ..).1 h).1

/-- Maps in canonical form that read alike at every key are equal. -/
theorem FMap.ext (d : α) (m n : List (Nat × α)) (hm : FMap.wf d m = true) (hn : FMap.wf d n = true)
    (h : ∀ k, FMap.get d m k = FMap.get d n k) : m = n := by
  induction m generalizing n with
  | nil =>
    cases n with
    | nil => rfl
    | cons q n =>
      obtain ⟨b, y⟩ := q
      have := ((FMap.wf_cons ..).1 hn).1
      have := h b
      simp_all [FMap.get]
  | cons p m ih =>
    obtain ⟨a, x⟩ := p
    obtain ⟨h1, h2, h3⟩ := (FMap.wf_cons ..).1 hm
    cases n with
    | nil => have := h a; simp_all [FMap.get]
    | cons q n =>
      obtain ⟨b, y⟩ := q
      obtain ⟨g1, g2, g3⟩ := (FMap.wf_cons ..).1 hn
      have hab : a = b := by
        rcases Nat.lt_trichotomy a b with hl | he | hg
        · have e := h a
          rw [FMap.get_below d ((b, y) :: n) a (by
            intro p hp; rcases List.mem_cons.1 hp with rfl | hp
            · exact hl
            · exact Nat.lt_trans hl (g2 p hp))] at e
          simp [FMap.get] at e; exact absurd e h1
        · exact he
        · have e := h b
          rw [FMap.get_below d ((a, x) :: m) b (by
            intro p hp; rcases List.mem_cons.1 hp with rfl | hp
            · exact hg
            · exact Nat.lt_trans hg (h2 p hp))] at e
          simp [FMap.get] at e; exact absurd e.symm g1
      subst hab
      have hxy : x = y := by have := h a; simpa [FMap.get] using this
      subst hxy
      congr 1
      refine ih n h3 g3 (fun k => ?_)
      by_cases hk : k = a
      · subst hk; rw [FMap.get_below d m k h2, FMap.get_below d n k g2]
      · have := h k; simpa [FMap.get, Ne.symm hk] using this

end Sys2Proof.Machine
end

