-- ==== Sys2Proof/Laws/Keeps.lean ====
section
/-! SUPPORT. The shared operations on memory, register words, counters and free values keep what Keeps says. -/
namespace Sys2Proof.Machine

variable {s0 s : State}

theorem Keeps.refl (s : State) : Keeps s s := ⟨rfl, rfl, Nat.le_refl _, id, id, id⟩

theorem Keeps.trans {a b c : State} (h : Keeps a b) (g : Keeps b c) : Keeps a c :=
  ⟨g.pending.trans h.pending, g.part.trans h.part, Nat.le_trans h.free g.free, g.mem ∘ h.mem, g.regs ∘ h.regs, g.cnt ∘ h.cnt⟩

/-- An update of the other fields. -/
@[simp] theorem Keeps.upd {fenergyRem fhiLatch flat fqueues fjobs fregions fregWait fmapLines ftapRuns fexch frets ffed frefs
      ftx fhellos fnet flandings flandNo ffeeds farms ffeedOut ftap frings fringCtl fleads faborts fbarriers fdigests
      ffu fbiasW fsaves ferr fcw fboot frst fpace fctl ffatalPin frefclk fftime farb fticks fdcache fevHeld fevNew
      fcasPend freclaims} (h : Keeps s0 s) : Keeps s0 ⟨s.pending, s.part, s.mem, s.regs, s.cnt48, fenergyRem, fhiLatch,
      flat, fqueues, fjobs, fregions, fregWait, fmapLines, ftapRuns, fexch, frets, ffed, frefs, ftx, fhellos, fnet, flandings,
      flandNo, ffeeds, farms, ffeedOut, ftap, frings, fringCtl, fleads, faborts, fbarriers, fdigests, ffu, fbiasW,
      fsaves, ferr, fcw, fboot, frst, fpace, fctl, ffatalPin, frefclk, fftime, farb, fticks, fdcache, fevHeld, fevNew,
      fcasPend, freclaims, s.free⟩ :=
  ⟨h.pending, h.part, h.free, h.mem, h.regs, h.cnt⟩

/-- Free numbers are taken. -/
@[simp] theorem Keeps.take {fenergyRem fhiLatch flat fqueues fjobs fregions fregWait fmapLines ftapRuns fexch frets ffed
      frefs ftx fhellos fnet flandings flandNo ffeeds farms ffeedOut ftap frings fringCtl fleads faborts fbarriers
      fdigests ffu fbiasW fsaves ferr fcw fboot frst fpace fctl ffatalPin frefclk fftime farb fticks fdcache fevHeld
      fevNew fcasPend freclaims n} (h : Keeps s0 s) : Keeps s0 ⟨s.pending, s.part, s.mem, s.regs, s.cnt48, fenergyRem,
      fhiLatch, flat, fqueues, fjobs, fregions, fregWait, fmapLines, ftapRuns, fexch, frets, ffed, frefs, ftx, fhellos, fnet,
      flandings, flandNo, ffeeds, farms, ffeedOut, ftap, frings, fringCtl, fleads, faborts, fbarriers, fdigests, ffu,
      fbiasW, fsaves, ferr, fcw, fboot, frst, fpace, fctl, ffatalPin, frefclk, fftime, farb, fticks, fdcache, fevHeld,
      fevNew, fcasPend, freclaims, s.free + n⟩ :=
  ⟨h.pending, h.part, Nat.le_trans h.free (Nat.le_add_right _ _), h.mem, h.regs, h.cnt⟩

/-- Free numbers are taken up to a later one. -/
theorem Keeps.takeTo {fenergyRem fhiLatch flat fqueues fjobs fregions fregWait fmapLines ftapRuns fexch frets ffed frefs ftx
      fhellos fnet flandings flandNo ffeeds farms ffeedOut ftap frings fringCtl fleads faborts fbarriers fdigests ffu
      fbiasW fsaves ferr fcw fboot frst fpace fctl ffatalPin frefclk fftime farb fticks fdcache fevHeld fevNew fcasPend
      freclaims n} (hn : s.free ≤ n) (h : Keeps s0 s) : Keeps s0 ⟨s.pending, s.part, s.mem, s.regs, s.cnt48, fenergyRem,
      fhiLatch, flat, fqueues, fjobs, fregions, fregWait, fmapLines, ftapRuns, fexch, frets, ffed, frefs, ftx, fhellos, fnet,
      flandings, flandNo, ffeeds, farms, ffeedOut, ftap, frings, fringCtl, fleads, faborts, fbarriers, fdigests, ffu,
      fbiasW, fsaves, ferr, fcw, fboot, frst, fpace, fctl, ffatalPin, frefclk, fftime, farb, fticks, fdcache, fevHeld,
      fevNew, fcasPend, freclaims, n⟩ :=
  ⟨h.pending, h.part, Nat.le_trans h.free hn, h.mem, h.regs, h.cnt⟩

@[simp] theorem Keeps.foldl {α : Type} {f : State → α → State} (hf : ∀ t a, Keeps s0 t → Keeps s0 (f t a)) (l : List α)
    (h : Keeps s0 s) : Keeps s0 (l.foldl f s) := by
  induction l generalizing s with
  | nil => exact h
  | cons a l ih => exact ih (hf s a h)

@[simp] theorem Keeps.foldl_snd {α β : Type} {f : β × State → α → β × State} {p : β × State}
    (hf : ∀ t a, Keeps s0 t.2 → Keeps s0 (f t a).2) (l : List α) (h : Keeps s0 p.2) : Keeps s0 (l.foldl f p).2 := by
  induction l generalizing p with
  | nil => exact h
  | cons a l ih => exact ih (hf p a h)

@[simp] theorem Keeps.ite {c : Prop} [Decidable c] {a b : State} (ha : c → Keeps s0 a) (hb : ¬c → Keeps s0 b) :
    Keeps s0 (if c then a else b) := by
  split
  · exact ha ‹_›
  · exact hb ‹_›

theorem State.wr8_memOk (a : Nat) (b : Byte) (h : s.memOk = true) : (s.wr8 a b).memOk = true := by
  simp only [State.memOk, Bool.and_eq_true, List.all_eq_true, decide_eq_true_eq] at h ⊢
  refine ⟨FMap.wf_set _ _ _ _ h.1, fun p hp => ?_⟩
  rcases FMap.mem_set _ _ _ _ p hp with hp | hp
  · rw [hp]; exact Nat.mod_lt _ (by decide)
  · exact h.2 p hp

@[simp] theorem keeps_wr8 (a : Nat) (b : Byte) (h : Keeps s0 s) : Keeps s0 (s.wr8 a b) :=
  ⟨h.pending, h.part, h.free, fun g => State.wr8_memOk a b (h.mem g), h.regs, h.cnt⟩

@[simp] theorem keeps_wr (a : Nat) (bs : List Byte) (h : Keeps s0 s) : Keeps s0 (s.wr a bs) := by
  induction bs generalizing s a with
  | nil => exact h
  | cons b bs ih => exact ih (a + 1) (keeps_wr8 a b h)

@[simp] theorem keeps_setReg (off v : Nat) (h : Keeps s0 s) : Keeps s0 (s.setReg off v) :=
  ⟨h.pending, h.part, h.free, h.mem, fun g => FMap.wf_set _ _ _ _ (h.regs g), h.cnt⟩

@[simp] theorem keeps_cntAdd (off n : Nat) (h : Keeps s0 s) : Keeps s0 (s.cntAdd off n) :=
  ⟨h.pending, h.part, h.free, h.mem, h.regs, fun g => FMap.wf_set _ _ _ _ (h.cnt g)⟩

theorem keeps_pair_snd {β : Type} {b : β} (h : Keeps s0 s) : Keeps s0 (b, s).2 := h

theorem keeps_pair_fst {β : Type} {b : β} (h : Keeps s0 s) : Keeps s0 (s, b).1 := h

/-- What the state in a run's outcome keeps. -/
def RunRes.Keeps (s0 : State) : RunRes → Prop
  | .busy t => Sys2Proof.Machine.Keeps s0 t
  | .done t _ => Sys2Proof.Machine.Keeps s0 t
  | .flt t _ => Sys2Proof.Machine.Keeps s0 t

/-- What the state in a start's outcome keeps. -/
def StartRes.Keeps (s0 : State) : StartRes → Prop
  | .wait => True
  | .hold t => Sys2Proof.Machine.Keeps s0 t
  | .fltS t _ => Sys2Proof.Machine.Keeps s0 t
  | .go t _ => Sys2Proof.Machine.Keeps s0 t
  | .flt _ => True

@[simp] theorem RunRes.keeps_busy (t : State) : RunRes.Keeps s0 (.busy t) = Sys2Proof.Machine.Keeps s0 t := rfl
@[simp] theorem RunRes.keeps_done (t : State) (a : List Act) : RunRes.Keeps s0 (.done t a) = Sys2Proof.Machine.Keeps s0 t := rfl
@[simp] theorem RunRes.keeps_flt (t : State) (f : Flt) : RunRes.Keeps s0 (.flt t f) = Sys2Proof.Machine.Keeps s0 t := rfl
@[simp] theorem StartRes.keeps_wait : StartRes.Keeps s0 .wait := trivial
@[simp] theorem StartRes.keeps_hold (t : State) : StartRes.Keeps s0 (.hold t) = Sys2Proof.Machine.Keeps s0 t := rfl
@[simp] theorem StartRes.keeps_fltS (t : State) (f : Flt) : StartRes.Keeps s0 (.fltS t f) = Sys2Proof.Machine.Keeps s0 t := rfl
@[simp] theorem StartRes.keeps_go (t : State) (c : Cmd) : StartRes.Keeps s0 (.go t c) = Sys2Proof.Machine.Keeps s0 t := rfl
@[simp] theorem StartRes.keeps_flt (f : Flt) : StartRes.Keeps s0 (.flt f) := trivial

@[simp] theorem RunRes.keeps_ite {c : Prop} [Decidable c] {a b : RunRes} (ha : c → a.Keeps s0) (hb : ¬c → b.Keeps s0) :
    (if c then a else b).Keeps s0 := by
  split
  · exact ha ‹_›
  · exact hb ‹_›

@[simp] theorem StartRes.keeps_ite {c : Prop} [Decidable c] {a b : StartRes} (ha : c → a.Keeps s0) (hb : ¬c → b.Keeps s0) :
    (if c then a else b).Keeps s0 := by
  split
  · exact ha ‹_›
  · exact hb ‹_›

end Sys2Proof.Machine
end

