-- ==== Sys2Proof/Laws/KeepsShared.lean ====
section
/-! SUPPORT. What Keeps says (pending, part, free numbers, canonical stores) holds of the shared operations: memory, boundary, Caissons, descriptors, waits, streams, teardown, starts, Bays: one lemma per
function on states, citing the lemmas of the functions it calls. -/
namespace Sys2Proof.Machine

-- Mem.lean

@[simp] theorem keeps_wr32 {s0 s : State} (a : Nat) (v : Nat) (hk : Keeps s0 s) :
    Keeps s0 (State.wr32 s a v) := by
  unfold State.wr32
  exact keeps_wr _ _ hk

@[simp] theorem keeps_wr64 {s0 s : State} (a : Nat) (v : Nat) (hk : Keeps s0 s) :
    Keeps s0 (State.wr64 s a v) := by
  unfold State.wr64
  exact keeps_wr _ _ hk

@[simp] theorem keeps_setRf {s0 s : State} (off : Nat) (hi : Nat) (lo : Nat) (x : Nat) (hk : Keeps s0 s) :
    Keeps s0 (State.setRf s off hi lo x) := by
  unfold State.setRf
  exact keeps_setReg _ _ hk

@[simp] theorem keeps_setRbit {s0 s : State} (off : Nat) (i : Nat) (b : Bool) (hk : Keeps s0 s) :
    Keeps s0 (State.setRbit s off i b) := by
  unfold State.setRbit
  exact keeps_setRf _ _ _ _ hk

@[simp] theorem keeps_satAdd {s0 s : State} (off : Nat) (n : Nat) (hk : Keeps s0 s) :
    Keeps s0 (State.satAdd s off n) := by
  unfold State.satAdd
  exact keeps_setReg _ _ hk

@[simp] theorem keeps_latch {s0 s : State} (off : Nat) (hk : Keeps s0 s) :
    Keeps s0 (State.latch s off) := by
  unfold State.latch
  exact Keeps.upd hk

@[simp] theorem keeps_arrayWrite {s0 s : State} (a : Nat) (hk : Keeps s0 s) :
    Keeps s0 (State.arrayWrite s a) := by
  unfold State.arrayWrite
  split
  · extract_lets s1 x
    have k_s1 : Keeps s0 s1 := keeps_setRbit _ _ _ hk
    exact Keeps.upd k_s1
  · exact hk

@[simp] theorem keeps_cwAdd {s0 s : State} (off : Nat) (n : Nat) (hk : Keeps s0 s) :
    Keeps s0 (State.cwAdd s off n) := by
  unfold State.cwAdd
  exact keeps_arrayWrite _ (keeps_cntAdd _ _ hk)

@[simp] theorem keeps_ctxCount {s0 s : State} (c : Nat) (k : Nat) (n : Nat) (hk : Keeps s0 s) :
    Keeps s0 (State.ctxCount s c k n) := by
  unfold State.ctxCount
  exact keeps_cwAdd _ _ hk

@[simp] theorem keeps_sysCount {s0 s : State} (k : Nat) (hk : Keeps s0 s) :
    Keeps s0 (State.sysCount s k) := by
  unfold State.sysCount
  exact keeps_cwAdd _ _ hk

@[simp] theorem keeps_acct {s0 s : State} (c : Nat) (k : Nat) (n : Nat) (hk : Keeps s0 s) :
    Keeps s0 (State.acct s c k n) := by
  unfold State.acct
  exact keeps_cntAdd _ _ hk

@[simp] theorem keeps_stick {s0 s : State} (c : Nat) (off : Nat) (m : Nat) (hk : Keeps s0 s) :
    Keeps s0 (State.stick s c off m) := by
  unfold State.stick
  split
  · exact keeps_setReg _ _ hk
  · exact hk

@[simp] theorem keeps_tick {s0 s : State} (hk : Keeps s0 s) :
    Keeps s0 (State.tick s).2 := by
  unfold State.tick
  exact Keeps.take hk

@[simp] theorem keeps_freeBytes {s0 s : State} (n : Nat) (hk : Keeps s0 s) :
    Keeps s0 (State.freeBytes s n).2 := by
  unfold State.freeBytes
  exact Keeps.take hk

@[simp] theorem keeps_scramble {s0 s : State} (x1 : List (Nat × Nat)) (hk : Keeps s0 s) :
    Keeps s0 (State.scramble s x1) := by
  fun_induction State.scramble s x1
  next s =>
    exact hk
  next s a n rs p ih1 =>
    have k_p : Keeps s0 p.snd := keeps_freeBytes _ hk
    exact ih1 (keeps_wr _ _ k_p)

@[simp] theorem keeps_readTime {s0 s : State} (hk : Keeps s0 s) :
    Keeps s0 (State.readTime s).2 := by
  unfold State.readTime
  extract_lets f t
  exact Keeps.take hk

@[simp] theorem keeps_energy {s0 s : State} (c : Nat) (i : Nat) (n : Nat) (hk : Keeps s0 s) :
    Keeps s0 (State.energy s c i n) := by
  unfold State.energy
  extract_lets e x
  have k_x : Keeps s0 x := keeps_acct _ _ _ hk
  exact Keeps.upd k_x

@[simp] theorem keeps_chargeRows {s0 s : State} (c : Nat) (k : Nat) (rows : Nat) (n : Nat) (half : Bool) (hk : Keeps s0 s) :
    Keeps s0 (State.chargeRows s c k rows n half) := by
  unfold State.chargeRows
  exact keeps_energy _ _ _ (keeps_acct _ _ _ hk)

@[simp] theorem keeps_chargeReads {s0 s : State} (c : Nat) (l : List (Nat × Nat × Bool)) (hk : Keeps s0 s) :
    Keeps s0 (State.chargeReads s c l) := by
  unfold State.chargeReads
  exact Keeps.foldl (fun t a kt => keeps_chargeRows _ _ _ _ _ kt) _ hk

@[simp] theorem keeps_chargeFills {s0 s : State} (c : Nat) (n : Nat) (hk : Keeps s0 s) :
    Keeps s0 (State.chargeFills s c n) := by
  unfold State.chargeFills
  exact keeps_chargeRows _ _ _ _ _ (Keeps.take hk)

@[simp] theorem keeps_charge {s0 s : State} (c : Nat) (x2 : List Nat) (hk : Keeps s0 s) :
    Keeps s0 (State.charge s c x2) := by
  fun_induction State.charge s c x2
  next s =>
    exact hk
  next s k ks n s1 ih1 =>
    have k_s1 : Keeps s0 s1 := keeps_energy _ _ _ (keeps_acct _ _ _ hk)
    exact ih1 (Keeps.take k_s1)

@[simp] theorem keeps_chargeWrites {s0 s : State} (c : Nat) (ns : List Nat) (hk : Keeps s0 s) :
    Keeps s0 (State.chargeWrites s c ns) := by
  unfold State.chargeWrites
  exact Keeps.foldl (fun t a kt => keeps_chargeRows _ _ _ _ _ kt) _ hk

@[simp] theorem keeps_chargeKilled {s0 s : State} (c : Nat) (hk : Keeps s0 s) :
    Keeps s0 (State.chargeKilled s c) := by
  unfold State.chargeKilled
  extract_lets f x
  have k_x : Keeps s0 x := keeps_energy _ _ _ (keeps_acct _ _ _ (keeps_acct _ _ _ hk))
  exact Keeps.take k_x

@[simp] theorem keeps_opCount {s0 s : State} (op : Nat) (fmt : Nat) (n : Nat) (hk : Keeps s0 s) :
    Keeps s0 (State.opCount s op fmt n) := by
  unfold State.opCount
  extract_lets k
  split
  · exact hk
  · split
    · exact keeps_cwAdd _ _ hk
    · split
      · exact keeps_cwAdd _ _ (keeps_readTime hk)
      · exact keeps_readTime hk

-- Net.lean

@[simp] theorem keeps_chargeOut {s0 s : State} (x1 : List (Nat × Nat × Frame × Nat)) (hk : Keeps s0 s) :
    Keeps s0 (State.chargeOut s x1) := by
  fun_induction State.chargeOut s x1
  next s =>
    exact hk
  next s fst vc f n l ih1 =>
    exact ih1 (keeps_energy _ _ _ (keeps_acct _ _ _ hk))

@[simp] theorem keeps_pump {s0 s : State} (hk : Keeps s0 s) :
    Keeps s0 (State.pump s) := by
  unfold State.pump
  extract_lets r x s1
  have k_s1 : Keeps s0 s1 := Keeps.upd hk
  split
  · exact hk
  · exact keeps_chargeOut _ k_s1

@[simp] theorem keeps_emit {s0 s : State} (dst : Nat) (vc : Nat) (f : Frame) (hk : Keeps s0 s) :
    Keeps s0 (State.emit s dst vc f) := by
  unfold State.emit
  exact keeps_pump (Keeps.upd hk)

@[simp] theorem keeps_tracePost {s0 s : State} (hk : Keeps s0 s) :
    Keeps s0 (State.tracePost s) := by
  unfold State.tracePost
  split
  · exact Keeps.upd hk
  · exact Keeps.upd hk
  · exact hk

@[simp] theorem keeps_traceLocal {s0 s : State} (r : List Byte) (hk : Keeps s0 s) :
    Keeps s0 (State.traceLocal s r) := by
  unfold State.traceLocal
  extract_lets n w s1 s2 x
  have k_s1 : Keeps s0 s1 := keeps_wr _ _ hk
  have k_s2 : Keeps s0 s2 := by
    unfold s2
    split
    · exact keeps_satAdd _ _ k_s1
    · exact k_s1
  exact keeps_tracePost (keeps_setReg _ _ (Keeps.upd k_s2))

@[simp] theorem keeps_tracePut {s0 s : State} (r : List Byte) (hk : Keeps s0 s) :
    Keeps s0 (State.tracePut s r) := by
  unfold State.tracePut
  split
  · extract_lets d p x
    exact keeps_tracePost (keeps_emit _ _ _ (Keeps.upd hk))
  · exact keeps_traceLocal _ hk

@[simp] theorem keeps_traceLose {s0 s : State} (n : Nat) (t : Nat) (cause : Nat) (chip : Nat) (hk : Keeps s0 s) :
    Keeps s0 (State.traceLose s n t cause chip) := by
  unfold State.traceLose
  extract_lets l x
  exact keeps_satAdd _ _ (Keeps.upd hk)

@[simp] theorem keeps_traceLoss {s0 s : State} (hk : Keeps s0 s) :
    Keeps s0 (State.traceLoss s) := by
  unfold State.traceLoss
  split
  · extract_lets r x s1
    have k_s1 : Keeps s0 s1 := Keeps.upd hk
    split
    · exact keeps_traceLocal _ k_s1
    · exact keeps_tracePut _ k_s1
  · exact hk

@[simp] theorem keeps_traceRec {s0 s : State} (rt : Nat) (own : Nat) (q : Nat) (ws : List Nat) (hk : Keeps s0 s) :
    Keeps s0 (State.traceRec s rt own q ws) := by
  unfold State.traceRec
  split
  · exact hk
  · extract_lets p s2
    have k_p : Keeps s0 p.snd := keeps_readTime hk
    have k_s2 : Keeps s0 s2 := keeps_traceLoss k_p
    split
    · exact keeps_traceLose _ _ _ _ k_p
    · split
      · exact k_s2
      · split
        · exact keeps_traceLose _ _ _ _ k_s2
        · exact keeps_tracePut _ k_s2

@[simp] theorem keeps_trace {s0 s : State} (rt : Nat) (own : Nat) (q : Nat) (ws : List Nat) (hk : Keeps s0 s) :
    Keeps s0 (State.trace s rt own q ws) := by
  unfold State.trace
  split
  · exact hk
  · exact keeps_traceRec _ _ _ _ hk

@[simp] theorem keeps_sendTrigs {s0 s : State} (tid : Nat) (tf : Nat) (x3 : List Nat) (hk : Keeps s0 s) :
    Keeps s0 (State.sendTrigs s tid tf x3) := by
  fun_induction State.sendTrigs s tid tf x3
  next s =>
    exact hk
  next s ds ih1 =>
    exact ih1 hk
  next s d ds h f s1 ih1 =>
    have k_s1 : Keeps s0 s1 := Keeps.upd hk
    exact ih1 (keeps_emit _ _ _ k_s1)

@[simp] theorem keeps_raiseTrigger {s0 s : State} (tid : Nat) (lead : Nat) (only : Bool) (hk : Keeps s0 s) :
    Keeps s0 (State.raiseTrigger s tid lead only) := by
  unfold State.raiseTrigger
  split
  · exact keeps_sysCount _ hk
  · extract_lets p tf x x1' s1
    have k_p : Keeps s0 p.snd := keeps_readTime hk
    have k_x : Keeps s0 x := k_p
    have k_s1 : Keeps s0 s1 := Keeps.upd k_p
    split
    · exact k_s1
    · exact keeps_sendTrigs _ _ _ k_s1

@[simp] theorem keeps_putRecs {s0 s : State} (base : Nat) (n : Nat) (i : Nat) (x4 : List EvRec) (hk : Keeps s0 s) :
    Keeps s0 (State.putRecs s base n i x4) := by
  fun_induction State.putRecs s base n i x4
  next s i =>
    exact hk
  next s i r rs ih1 =>
    exact ih1 (keeps_wr _ _ hk)

@[simp] theorem keeps_evThresh {s0 s : State} (e : Nat) (hk : Keeps s0 s) :
    Keeps s0 (State.evThresh s e) := by
  unfold State.evThresh
  extract_lets th
  split
  · exact keeps_setRbit _ _ _ hk
  · exact hk

@[simp] theorem keeps_post {s0 s : State} (e : Nat) (rs : List EvRec) (hk : Keeps s0 s) :
    Keeps s0 (State.post s e rs) := by
  unfold State.post
  split
  · exact hk
  · extract_lets n base wr rd rd' s1 s2 s3 s4
    have k_s1 : Keeps s0 s1 := by
      unfold s1
      split
      · exact hk
      · exact keeps_setRbit _ _ _ (keeps_satAdd _ _ (keeps_setReg _ _ hk))
    have k_s2 : Keeps s0 s2 := keeps_putRecs _ _ _ _ (Keeps.upd k_s1)
    have k_s3 : Keeps s0 s3 := keeps_setReg _ _ (keeps_setReg _ _ k_s2)
    have k_s4 : Keeps s0 s4 := by
      unfold s4
      split
      · exact keeps_setRbit _ _ _ k_s3
      · exact k_s3
    exact keeps_evThresh _ k_s4

@[simp] theorem keeps_postSys {s0 s : State} (kind : Nat) (a0 : Nat) (a1 : Nat) (hk : Keeps s0 s) :
    Keeps s0 (State.postSys s kind a0 a1) := by
  unfold State.postSys
  exact keeps_post _ _ hk

@[simp] theorem keeps_postCtx {s0 s : State} (c : Nat) (kind : Nat) (a0 : Nat) (a1 : Nat) (hk : Keeps s0 s) :
    Keeps s0 (State.postCtx s c kind a0 a1) := by
  unfold State.postCtx
  exact keeps_post _ _ hk

@[simp] theorem keeps_setRegs {s0 s : State} (off : Nat) (x2 : List Nat) (hk : Keeps s0 s) :
    Keeps s0 (State.setRegs s off x2) := by
  fun_induction State.setRegs s off x2
  next s off =>
    exact hk
  next s off d ds ih1 =>
    exact ih1 (keeps_setReg _ _ hk)

@[simp] theorem keeps_firstErr {s0 s : State} (cls : Nat) (ws : List Nat) (hk : Keeps s0 s) :
    Keeps s0 (State.firstErr s cls ws) := by
  unfold State.firstErr
  split
  · exact hk
  · exact keeps_setRbit _ _ _ (keeps_setRegs _ _ (keeps_setRegs _ _ hk))

@[simp] theorem keeps_logErr {s0 s : State} (e : Err) (hk : Keeps s0 s) :
    Keeps s0 (State.logErr s e).2.2 := by
  unfold State.logErr
  extract_lets p seq ws room x x1' s1 x2' s2 on s3
  have k_p : Keeps s0 p.snd := keeps_readTime hk
  have k_x : Keeps s0 x := k_p
  have k_s1 : Keeps s0 s1 := keeps_firstErr _ _ (Keeps.upd k_p)
  have k_s2 : Keeps s0 s2 := by
    unfold s2
    split
    · exact Keeps.upd k_s1
    · exact keeps_satAdd _ _ k_s1
  have k_s3 : Keeps s0 s3 := by
    unfold s3
    split
    · exact keeps_raiseTrigger _ _ _ k_s2
    · exact k_s2
  exact k_s3

@[simp] theorem keeps_logCorr {s0 s : State} (e : Err) (hk : Keeps s0 s) :
    Keeps s0 (State.logCorr s e) := by
  unfold State.logCorr
  split
  · exact keeps_logErr _ hk
  · exact hk

-- Caisson.lean

@[simp] theorem keeps_setBufWord {s0 s : State} (p : Nat) (i : Nat) (w : Nat) (hk : Keeps s0 s) :
    Keeps s0 (State.setBufWord s p i w) := by
  unfold State.setBufWord
  exact keeps_wr32 _ _ hk

@[simp] theorem keeps_releaseBuf {s0 s : State} (p : Nat) (i : Nat) (hk : Keeps s0 s) :
    Keeps s0 (State.releaseBuf s p i) := by
  unfold State.releaseBuf
  exact keeps_setReg _ _ (keeps_wr32 _ _ hk)

@[simp] theorem keeps_setFree {s0 s : State} (p : Nat) (n : Nat) (hk : Keeps s0 s) :
    Keeps s0 (State.setFree s p n) := by
  unfold State.setFree
  extract_lets mark low s1
  have k_s1 : Keeps s0 s1 := keeps_setReg _ _ hk
  split
  · exact keeps_postSys _ _ _ k_s1
  · exact k_s1

@[simp] theorem keeps_popBuf {s0 s : State} (own : Nat) (p : Nat) (zero : Bool) (hk : Keeps s0 s) :
    Keeps s0 (State.popBuf s own p zero).2.2 := by
  unfold State.popBuf
  extract_lets f i w gen iso w' s1 a s2
  have k_s1 : Keeps s0 s1 := keeps_setBufWord _ _ _ hk
  have k_s2 : Keeps s0 s2 := by
    unfold s2
    split
    · exact keeps_wr _ _ k_s1
    · exact k_s1
  exact keeps_setFree _ _ k_s2

@[simp] theorem keeps_alloc {s0 s : State} (own : Nat) (size : Nat) (nofall : Bool) (zero : Bool) (hk : Keeps s0 s) :
    ∀ t, State.alloc s own size nofall zero = some t → Keeps s0 t.2.2 := by
  intro t ht
  unfold State.alloc at ht
  dsimp only at ht
  split at ht
  · exact nomatch ht
  · obtain rfl := Option.some.inj ht
    refine keeps_popBuf _ _ _ ?_
    split
    · exact hk
    · exact keeps_satAdd _ _ hk

@[simp] theorem keeps_allocFail {s0 s : State} (own : Nat) (size : Nat) (hk : Keeps s0 s) :
    Keeps s0 (State.allocFail s own size) := by
  unfold State.allocFail
  split
  · exact keeps_satAdd _ _ hk
  · exact hk

@[simp] theorem keeps_takeRef {s0 s : State} (h : Nat) (hk : Keeps s0 s) :
    Keeps s0 (State.takeRef s h) := by
  unfold State.takeRef
  exact keeps_setBufWord _ _ _ hk

@[simp] theorem keeps_dropRef {s0 s : State} (h : Nat) (hk : Keeps s0 s) :
    Keeps s0 (State.dropRef s h) := by
  unfold State.dropRef
  extract_lets p i w
  split
  · split
    · exact keeps_setBufWord _ _ _ hk
    · exact keeps_releaseBuf _ _ (keeps_setBufWord _ _ _ hk)
  · exact keeps_setBufWord _ _ _ hk

@[simp] theorem keeps_releaseHeld {s0 s : State} (a : Nat) (hk : Keeps s0 s) :
    Keeps s0 (State.releaseHeld s a) := by
  unfold State.releaseHeld
  split
  · exact hk
  · extract_lets w
    split
    · exact keeps_releaseBuf _ _ (keeps_setBufWord _ _ _ hk)
    · exact hk

@[simp] theorem keeps_dropRefs {s0 s : State} (td : Bool) (x2 : List Ref) (hk : Keeps s0 s) :
    Keeps s0 (State.dropRefs s td x2).2 := by
  fun_induction State.dropRefs s td x2
  next s =>
    exact hk
  next s r0 rs x ih1 =>
    exact ih1 (keeps_dropRef _ hk)
  next s r0 rs x e r t ih1 =>
    have k_r : Keeps s0 r.snd.snd := keeps_logErr _ hk
    have k_t : Keeps s0 t.snd := by
      unfold t
      refine ih1 ?_
      split
      · exact k_r
      · exact keeps_postCtx _ _ _ _ k_r
    exact k_t
  next s r0 rs x e r t ih1 =>
    have k_r : Keeps s0 r.snd.snd := keeps_logErr _ hk
    have k_t : Keeps s0 t.snd := by
      unfold t
      refine ih1 ?_
      split
      · exact k_r
      · exact keeps_postCtx _ _ _ _ k_r
    exact k_t
  next s r0 rs x x1' x2' ih1 =>
    exact ih1 hk

@[simp] theorem keeps_quarantine {s0 s : State} (a : Nat) (hk : Keeps s0 s) :
    Keeps s0 (State.quarantine s a) := by
  unfold State.quarantine
  split
  · exact keeps_setBufWord _ _ _ hk
  · exact hk

-- Desc.lean

@[simp] theorem keeps_descFill {s0 s : State} (own : Nat) (h : Nat) (hk : Keeps s0 s) :
    Keeps s0 (State.descFill s own h) := by
  unfold State.descFill
  extract_lets x
  split
  · exact hk
  · exact Keeps.upd hk

@[simp] theorem keeps_descFills {s0 s : State} (own : Nat) (x2 : List Nat) (hk : Keeps s0 s) :
    Keeps s0 (State.descFills s own x2) := by
  fun_induction State.descFills s own x2
  next s =>
    exact hk
  next s h hs s1 d ih1 =>
    have k_s1 : Keeps s0 s1 := keeps_descFill _ _ hk
    refine ih1 ?_
    split
    · exact keeps_descFill _ _ k_s1
    · exact k_s1

@[simp] theorem keeps_descSynced {s0 s : State} (own : Nat) (h : Nat) (n : Nat) (hk : Keeps s0 s) :
    Keeps s0 (State.descSynced s own h n) := by
  unfold State.descSynced
  exact Keeps.upd hk

@[simp] theorem keeps_setQueue {s0 s : State} (q : Nat) (x : Queue) (hk : Keeps s0 s) :
    Keeps s0 (State.setQueue s q x) := by
  unfold State.setQueue
  exact Keeps.upd hk

@[simp] theorem keeps_puts {s0 s : State} (x1 : List (Nat × List Byte)) (hk : Keeps s0 s) :
    Keeps s0 (State.puts s x1) := by
  fun_induction State.puts s x1
  next s =>
    exact hk
  next s a bs ws ih1 =>
    exact ih1 (keeps_wr _ _ hk)

@[simp] theorem keeps_strWr {s0 s : State} (d : Desc) (k : Nat) (bs : List Byte) (hk : Keeps s0 s) :
    Keeps s0 (State.strWr s d k bs) := by
  unfold State.strWr
  exact keeps_puts _ hk

@[simp] theorem keeps_strWr32 {s0 s : State} (d : Desc) (k : Nat) (v : Nat) (hk : Keeps s0 s) :
    Keeps s0 (State.strWr32 s d k v) := by
  unfold State.strWr32
  exact keeps_strWr _ _ _ hk

-- Wait.lean

@[simp] theorem keeps_updCmd {s0 s : State} (q : Nat) (i : U32) (f : Cmd → Cmd) (hk : Keeps s0 s) :
    Keeps s0 (State.updCmd s q i f) := by
  unfold State.updCmd
  extract_lets x
  exact keeps_setQueue _ _ hk

@[simp] theorem keeps_meetOthers {s0 s : State} (q : Nat) (i : U32) (ws : List (Nat × Nat)) (hk : Keeps s0 s) :
    Keeps s0 (State.meetOthers s q i ws) := by
  unfold State.meetOthers
  exact Keeps.foldl (fun t a kt => keeps_updCmd _ _ _ kt) _ hk

@[simp] theorem keeps_layUnder {s0 s : State} (a : Nat) (bs : List Byte) (y : Nat × U32 × Nat × Nat) (hk : Keeps s0 s) :
    Keeps s0 (State.layUnder s a bs y) := by
  unfold State.layUnder
  extract_lets lo hi
  exact keeps_scramble _ (keeps_updCmd _ _ _ hk)

@[simp] theorem keeps_layLine {s0 s : State} (q : Nat) (c : Cmd) (a : Nat) (bs : List Byte) (hk : Keeps s0 s) :
    Keeps s0 (State.layLine s q c a bs) := by
  unfold State.layLine
  extract_lets live met s01'
  have k_s01' : Keeps s0 s01' := by
    unfold s01'
    split
    · exact Keeps.take hk
    · exact hk
  split
  · exact k_s01'
  · exact Keeps.foldl (fun t a1' kt => keeps_layUnder _ _ _ kt) _ (keeps_wr _ _ k_s01')

@[simp] theorem keeps_lay {s0 s : State} (q : Nat) (c : Cmd) (a : Nat) (bs : List Byte) (hk : Keeps s0 s) :
    Keeps s0 (State.lay s q c a bs) := by
  unfold State.lay
  split
  · exact keeps_wr _ _ hk
  · exact Keeps.foldl (fun t a1' kt => keeps_layLine _ _ _ _ kt) _ hk

@[simp] theorem keeps_putOwn {s0 s : State} (q : Nat) (i : U32) (ws : List (Nat × List Byte)) (hk : Keeps s0 s) :
    Keeps s0 (State.putOwn s q i ws) := by
  unfold State.putOwn
  split
  · split
    · exact keeps_puts _ hk
    · exact keeps_updCmd _ _ _ hk
  · exact hk

@[simp] theorem keeps_unhide {s0 s : State} (q : Nat) (i : U32) (hk : Keeps s0 s) :
    Keeps s0 (State.unhide s q i) := by
  unfold State.unhide
  split
  · exact keeps_updCmd _ _ _ (keeps_puts _ hk)
  · exact hk

@[simp] theorem keeps_hideOutputs {s0 s : State} (q : Nat) (i : U32) (hk : Keeps s0 s) :
    Keeps s0 (State.hideOutputs s q i).2 := by
  unfold State.hideOutputs
  split
  · exact hk
  · split
    · exact hk
    · split
      · exact keeps_scramble _ hk
      · exact keeps_updCmd _ _ _ hk

@[simp] theorem keeps_chargeOutputs {s0 s : State} (own : Nat) (c : Cmd) (acts : List Act) (hk : Keeps s0 s) :
    Keeps s0 (State.chargeOutputs s own c acts) := by
  unfold State.chargeOutputs
  refine keeps_chargeWrites _ _ ?_
  split
  · exact hk
  · exact Keeps.foldl (fun t a kt => keeps_chargeRows _ _ _ _ _ kt) _ hk

@[simp] theorem keeps_complete {s0 s : State} (q : Nat) (i : U32) (acts : List Act) (hk : Keeps s0 s) :
    Keeps s0 (State.complete s q i acts) := by
  unfold State.complete
  extract_lets h s1
  have k_h : Keeps s0 h.snd := keeps_hideOutputs _ _ hk
  have k_s1 : Keeps s0 s1 := keeps_updCmd _ _ _ k_h
  split
  · exact keeps_chargeOutputs _ _ _ k_s1
  · exact k_s1

@[simp] theorem keeps_waitRecs {s0 s : State} (own : Nat) (q : Nat) (c : Cmd) (hk : Keeps s0 s) :
    Keeps s0 (State.waitRecs s own q c) := by
  unfold State.waitRecs
  extract_lets one
  have hone : ∀ t k, Keeps s0 t → Keeps s0 (one t k) := by
    intro t k ht
    unfold one
    split
    · exact ht
    · exact keeps_trace _ _ _ _ ht
  exact hone _ _ (hone _ _ hk)

@[simp] theorem keeps_pollQueue {s0 s : State} (q : Nat) (hk : Keeps s0 s) :
    Keeps s0 (State.pollQueue s q) := by
  unfold State.pollQueue
  extract_lets x own see
  split
  · split
    · exact keeps_setQueue _ _ hk
    · extract_lets s1
      have k_s1 : Keeps s0 s1 := keeps_setQueue _ _ hk
      exact keeps_waitRecs _ _ _ (Keeps.upd k_s1)
  · exact keeps_setQueue _ _ hk

@[simp] theorem keeps_pollOwner {s0 s : State} (own : Nat) (hk : Keeps s0 s) :
    Keeps s0 (State.pollOwner s own) := by
  unfold State.pollOwner
  refine Keeps.foldl (fun t a kt => ?_) _ hk
  split
  · exact keeps_pollQueue _ kt
  · exact kt

@[simp] theorem keeps_feedMsg {s0 s : State} (ws : List Nat) (hk : Keeps s0 s) :
    Keeps s0 (State.feedMsg s ws) := by
  unfold State.feedMsg
  exact Keeps.upd hk

@[simp] theorem keeps_updFeed {s0 s : State} (id : Nat) (g : Feed → Feed) (hk : Keeps s0 s) :
    Keeps s0 (State.updFeed s id g) := by
  unfold State.updFeed
  exact Keeps.upd hk

@[simp] theorem keeps_feedCheck {s0 s : State} (x1 : List Feed) (hk : Keeps s0 s) :
    Keeps s0 (State.feedCheck s x1) := by
  fun_induction State.feedCheck s x1
  next s =>
    exact hk
  next s f fs ok s1 ih1 =>
    have k_s1 : Keeps s0 s1 := by
      unfold s1
      split
      · split
        · split
          · exact keeps_complete _ _ _ hk
          · exact hk
        · exact hk
      · exact hk
    exact ih1 k_s1

@[simp] theorem keeps_sendReady {s0 s : State} (f : Feed) (e : Nat) (ready : Nat) (closed : Bool) (hk : Keeps s0 s) :
    Keeps s0 (State.sendReady s f e ready closed) := by
  unfold State.sendReady
  extract_lets d
  exact keeps_opCount _ _ _ (keeps_feedMsg _ (keeps_strWr32 _ _ _ hk))

@[simp] theorem keeps_closeEnt {s0 s : State} (f : Feed) (e : Nat) (x : FeedEnt) (hk : Keeps s0 s) :
    Keeps s0 (State.closeEnt s f e x).2 := by
  unfold State.closeEnt
  extract_lets b m s1 ref s2 d w0 s3
  have k_s1 : Keeps s0 s1 := keeps_wr32 _ _ hk
  have k_s2 : Keeps s0 s2 := by
    unfold s2
    cases ref with
    | none => exact k_s1
    | some n => exact Keeps.ite (fun _ => keeps_wr32 _ _ k_s1) (fun _ => k_s1)
  have k_s3 : Keeps s0 s3 := keeps_strWr32 _ _ _ (keeps_strWr32 _ _ _ k_s2)
  exact keeps_sendReady _ _ _ _ k_s3

@[simp] theorem keeps_closeEnts {s0 s : State} (f : Feed) (x2 : Nat) (x3 : List FeedEnt) (hk : Keeps s0 s) :
    Keeps s0 (State.closeEnts s f x2 x3).2 := by
  fun_induction State.closeEnts s f x2 x3
  next s x =>
    exact hk
  next s e x xs r t ih1 =>
    have k_r : Keeps s0 r.snd := by
      unfold r
      split
      · exact hk
      · exact keeps_closeEnt _ _ _ hk
    have k_t : Keeps s0 t.snd := ih1 k_r
    exact k_t

@[simp] theorem keeps_closeFeeds {s0 s : State} (c : Nat) (x2 : List Feed) (hk : Keeps s0 s) :
    Keeps s0 (State.closeFeeds s c x2) := by
  fun_induction State.closeFeeds s c x2
  next s =>
    exact hk
  next s f fs h r ih1 =>
    have k_r : Keeps s0 r.snd := keeps_closeEnts _ _ _ hk
    exact ih1 (keeps_updFeed _ _ k_r)
  next s f fs h ih1 =>
    exact ih1 hk

@[simp] theorem keeps_ctrChanged {s0 s : State} (own : Nat) (hk : Keeps s0 s) :
    Keeps s0 (State.ctrChanged s own) := by
  unfold State.ctrChanged
  extract_lets s1
  have k_s1 : Keeps s0 s1 := keeps_closeFeeds _ _ (keeps_pollOwner _ hk)
  exact keeps_feedCheck _ k_s1

@[simp] theorem keeps_signalOp {s0 s : State} (own : Nat) (q : Nat) (idx : Nat) (op : Nat) (i : Nat) (v : Nat) (hk : Keeps s0 s) :
    Keeps s0 (State.signalOp s own q idx op i v) := by
  unfold State.signalOp
  split
  · exact hk
  · extract_lets nv
    exact keeps_trace _ _ _ _ (keeps_wr32 _ _ hk)

@[simp] theorem keeps_markerIn {s0 s : State} (c : Nat) (i : Nat) (hk : Keeps s0 s) :
    Keeps s0 (State.markerIn s c i) := by
  unfold State.markerIn
  exact keeps_ctrChanged _ (keeps_wr32 _ _ hk)

-- Stream.lean

@[simp] theorem keeps_setPeerVer {s0 s : State} (d : Nat) (v : Nat) (hk : Keeps s0 s) :
    Keeps s0 (State.setPeerVer s d v) := by
  unfold State.setPeerVer
  exact keeps_setRf _ _ _ _ hk

@[simp] theorem keeps_sayHello {s0 s : State} (d : Nat) (resend : Bool) (hk : Keeps s0 s) :
    Keeps s0 (State.sayHello s d resend) := by
  unfold State.sayHello
  exact keeps_emit _ _ _ hk

@[simp] theorem keeps_hello {s0 s : State} (d : Nat) (hk : Keeps s0 s) :
    Keeps s0 (State.hello s d) := by
  unfold State.hello
  split
  · exact hk
  · extract_lets s1
    have k_s1 : Keeps s0 s1 := Keeps.upd hk
    exact keeps_sayHello _ _ k_s1

@[simp] theorem keeps_updTx {s0 s : State} (c : Nat) (d : Nat) (vc : Nat) (g : TxStream → TxStream) (hk : Keeps s0 s) :
    Keeps s0 (State.updTx s c d vc g) := by
  unfold State.updTx
  exact Keeps.upd hk

@[simp] theorem keeps_sentRows {s0 s : State} (f : Frame) (hk : Keeps s0 s) :
    Keeps s0 (State.sentRows s f) := by
  unfold State.sentRows
  split
  · exact keeps_opCount _ _ _ hk
  · split
    · exact keeps_opCount _ _ _ hk
    · split
      · exact keeps_opCount _ _ _ hk
      · exact hk

@[simp] theorem keeps_txGo {s0 s : State} (c : Nat) (d : Nat) (vc : Nat) (x4 : Nat) (hk : Keeps s0 s) :
    Keeps s0 (State.txGo s c d vc x4) := by
  fun_induction State.txGo s c d vc x4
  next s =>
    exact hk
  next s k x =>
    exact hk
  next s k t x x1' =>
    exact hk
  next s k t x o fs x1' h g s1 ih1 =>
    have k_s1 : Keeps s0 s1 := keeps_updTx _ _ _ _ hk
    exact ih1 (keeps_sentRows _ (keeps_emit _ _ _ k_s1))
  next s k t x o fs x1' h =>
    exact hk

@[simp] theorem keeps_txPump {s0 s : State} (hk : Keeps s0 s) :
    Keeps s0 (State.txPump s) := by
  unfold State.txPump
  extract_lets lc be
  exact Keeps.foldl (fun t a kt => keeps_txGo _ _ _ _ kt) _ hk

@[simp] theorem keeps_txPush {s0 s : State} (c : Nat) (d : Nat) (vc : Nat) (q : Nat) (idx : U32) (fs : List Frame) (hk : Keeps s0 s) :
    Keeps s0 (State.txPush s c d vc q idx fs) := by
  unfold State.txPush
  split
  · exact hk
  · extract_lets os s1 t s2
    have k_s1 : Keeps s0 s1 := keeps_hello _ hk
    have k_s2 : Keeps s0 s2 := by
      unfold s2
      split
      · exact keeps_updTx _ _ _ _ k_s1
      · exact Keeps.upd k_s1
    exact keeps_txGo _ _ _ _ k_s2

@[simp] theorem keeps_repeatSlabs {s0 s : State} (c : Nat) (q : Nat) (idx : U32) (gen : Nat) (xid : Nat) (hk : Keeps s0 s) :
    Keeps s0 (State.repeatSlabs s c q idx gen xid) := by
  unfold State.repeatSlabs
  split
  · exact hk
  · exact Keeps.foldl (fun t a kt => Keeps.foldl (fun t1' a1' kt1' => keeps_sentRows _ (keeps_emit _ _ _ kt1')) _ kt) _ hk

@[simp] theorem keeps_sendCtl {s0 s : State} (d : Nat) (f : Frame) (hk : Keeps s0 s) :
    Keeps s0 (State.sendCtl s d f) := by
  unfold State.sendCtl
  split
  · exact keeps_opCount _ _ _ (keeps_emit _ _ _ hk)
  · extract_lets s1 x
    have k_s1 : Keeps s0 s1 := keeps_hello _ hk
    exact Keeps.upd k_s1

@[simp] theorem keeps_markerHere {s0 s : State} (c : Nat) (i : Nat) (mkind : Nat) (gen : Nat) (xid : Nat) (hk : Keeps s0 s) :
    Keeps s0 (State.markerHere s c i mkind gen xid) := by
  unfold State.markerHere
  split
  · exact keeps_markerIn _ _ (keeps_trace _ _ _ _ hk)
  · exact keeps_ctxCount _ _ _ hk

@[simp] theorem keeps_markers {s0 s : State} (c : Nat) (gen : Nat) (xid : Nat) (ctr : Nat) (mkind : Nat) (x6 : List Nat) (hk : Keeps s0 s) :
    Keeps s0 (State.markers s c gen xid ctr mkind x6) := by
  fun_induction State.markers s c gen xid ctr mkind x6
  next s =>
    exact hk
  next s d ds s1 ih1 =>
    have k_s1 : Keeps s0 s1 := by
      unfold s1
      split
      · exact keeps_opCount _ _ _ (keeps_markerHere _ _ _ _ _ hk)
      · split
        · exact hk
        · exact keeps_sendCtl _ _ hk
    exact ih1 k_s1

@[simp] theorem keeps_peerKnown {s0 s : State} (d : Nat) (v : Nat) (hk : Keeps s0 s) :
    Keeps s0 (State.peerKnown s d v) := by
  unfold State.peerKnown
  extract_lets s1 s2 now x s3
  have k_s1 : Keeps s0 s1 := keeps_setPeerVer _ _ hk
  have k_s2 : Keeps s0 s2 := Keeps.upd k_s1
  have k_s3 : Keeps s0 s3 := Keeps.upd k_s2
  exact keeps_txPump (Keeps.foldl (fun t a kt => keeps_opCount _ _ _ (keeps_emit _ _ _ kt)) _ k_s3)

@[simp] theorem keeps_answer {s0 s : State} (d : Nat) (f : Frame) (hk : Keeps s0 s) :
    Keeps s0 (State.answer s d f) := by
  unfold State.answer
  exact keeps_emit _ _ _ (keeps_hello _ hk)

@[simp] theorem keeps_reply {s0 s : State} (f : Frame) (kind : Nat) (seq : Nat) (w4 : Nat) (w8 : Nat) (w9 : Nat) (hk : Keeps s0 s) :
    Keeps s0 (State.reply s f kind seq w4 w8 w9) := by
  unfold State.reply
  exact keeps_answer _ _ hk

@[simp] theorem keeps_nack {s0 s : State} (f : Frame) (reason : Nat) (hk : Keeps s0 s) :
    Keeps s0 (State.nack s f reason) := by
  unfold State.nack
  exact keeps_reply _ _ _ _ _ _ hk

@[simp] theorem keeps_rxAdvance {s0 s : State} (f : Frame) (hk : Keeps s0 s) :
    Keeps s0 (State.rxAdvance s f) := by
  unfold State.rxAdvance
  split
  · exact hk
  · exact keeps_wr64 _ _ hk

@[simp] theorem keeps_ackNow {s0 s : State} (f : Frame) (hk : Keeps s0 s) :
    Keeps s0 (State.ackNow s f) := by
  unfold State.ackNow
  extract_lets vc
  exact keeps_reply _ _ _ _ _ _ hk

@[simp] theorem keeps_ackDup {s0 s : State} (f : Frame) (hk : Keeps s0 s) :
    Keeps s0 (State.ackDup s f) := by
  unfold State.ackDup
  split
  · exact keeps_ackNow _ hk
  · split
    · exact keeps_reply _ _ _ _ _ _ hk
    · exact hk

-- RingCtl.lean

@[simp] theorem keeps_sendRingCtl {s0 s : State} (c : Nat) (gid : Nat) (gseq : U32) (dst : Nat) (f : Frame) (hk : Keeps s0 s) :
    Keeps s0 (State.sendRingCtl s c gid gseq dst f) := by
  unfold State.sendRingCtl
  extract_lets s1
  have k_s1 : Keeps s0 s1 := Keeps.upd hk
  exact keeps_emit _ _ _ k_s1

@[simp] theorem keeps_sendDecides {s0 s : State} (c : Nat) (gid : Nat) (gseq : U32) (att : Nat) (op : Nat) (code : Nat) (rerun : Bool) (x8 : List Nat) (hk : Keeps s0 s) :
    Keeps s0 (State.sendDecides s c gid gseq att op code rerun x8) := by
  fun_induction State.sendDecides s c gid gseq att op code rerun x8
  next s =>
    exact hk
  next s x xs s1 ih1 =>
    have k_s1 : Keeps s0 s1 := by
      unfold s1
      split
      · exact hk
      · exact keeps_sendRingCtl _ _ _ _ _ hk
    exact ih1 k_s1

@[simp] theorem keeps_leaderTake {s0 s : State} (c : Nat) (gid : Nat) (gseq : U32) (att : Nat) (retry : Nat) (op : Nat) (code : Nat) (src : Nat) (hk : Keeps s0 s) :
    Keeps s0 (State.leaderTake s c gid gseq att retry op code src).2 := by
  unfold State.leaderTake
  extract_lets l ms l1 dec l2 others s1 rerun
  have k_s1 : Keeps s0 s1 := Keeps.upd hk
  split
  · exact hk
  · split
    · exact keeps_sendDecides _ _ _ _ _ _ _ _ k_s1
    · exact k_s1

@[simp] theorem keeps_ringReport {s0 s : State} (c : Nat) (q : Nat) (gid : Nat) (gseq : U32) (att : Nat) (retry : Nat) (op : Nat) (code : Nat) (members : List Nat) (hk : Keeps s0 s) :
    Keeps s0 (State.ringReport s c q gid gseq att retry op code members).2 := by
  unfold State.ringReport
  extract_lets s01'
  have k_s01' : Keeps s0 s01' := keeps_trace _ _ _ _ hk
  split
  · exact k_s01'
  · split
    · exact keeps_leaderTake _ _ _ _ _ _ _ _ k_s01'
    · exact keeps_sendRingCtl _ _ _ _ _ k_s01'

@[simp] theorem keeps_abortPut {s0 s : State} (a : AbortEnt) (hk : Keeps s0 s) :
    Keeps s0 (State.abortPut s a) := by
  unfold State.abortPut
  split
  · exact Keeps.upd hk
  · extract_lets s1
    have k_s1 : Keeps s0 s1 := Keeps.upd hk
    exact keeps_setRf _ _ _ _ k_s1

@[simp] theorem keeps_ringFree {s0 s : State} (slot : Nat) (r : RingSlot) (hk : Keeps s0 s) :
    Keeps s0 (State.ringFree s slot r) := by
  unfold State.ringFree
  extract_lets s1
  have k_s1 : Keeps s0 s1 := Keeps.upd hk
  exact keeps_dropRefs _ _ k_s1

-- Teardown.lean

@[simp] theorem keeps_feedAbort {s0 s : State} (f : Feed) (why : AbortWhy) (hk : Keeps s0 s) :
    Keeps s0 (State.feedAbort s f why) := by
  unfold State.feedAbort
  extract_lets s1
  have k_s1 : Keeps s0 s1 := keeps_updFeed _ _ hk
  split
  · exact k_s1
  · exact keeps_feedMsg _ k_s1

@[simp] theorem keeps_tapStop {s0 s : State} (q : Nat) (idx : U32) (hk : Keeps s0 s) :
    Keeps s0 (State.tapStop s q idx) := by
  unfold State.tapStop
  split
  · exact hk
  · extract_lets s1 x
    have k_s1 : Keeps s0 s1 := Keeps.upd hk
    split
    · split
      · exact Keeps.upd k_s1
      · exact k_s1
    · exact k_s1

@[simp] theorem keeps_lostFeed {s0 s : State} (late : List Feed) (hk : Keeps s0 s) :
    Keeps s0 (State.lostFeed s late) := by
  unfold State.lostFeed
  extract_lets r s1
  have k_r : Keeps s0 r.snd.snd := keeps_logErr _ hk
  have k_s1 : Keeps s0 s1 := keeps_postSys _ _ _ k_r
  refine Keeps.foldl (fun t a kt => ?_) _ k_s1
  extract_lets p i
  exact keeps_setBufWord _ _ _ kt

@[simp] theorem keeps_releaseBays {s0 s : State} (p : ArmedBay → Bool) (hk : Keeps s0 s) :
    Keeps s0 (State.releaseBays s p) := by
  unfold State.releaseBays
  extract_lets s1
  have k_s1 : Keeps s0 s1 := by
    unfold s1
    refine Keeps.foldl (fun t a kt => ?_) _ hk
    extract_lets b
    exact keeps_wr32 _ _ kt
  exact Keeps.upd k_s1

@[simp] theorem keeps_dropRefsIf {s0 s : State} (td : Bool) (p : Ref → Bool) (hk : Keeps s0 s) :
    Keeps s0 (State.dropRefsIf s td p).2 := by
  unfold State.dropRefsIf
  extract_lets r x
  have k_r : Keeps s0 r.snd := keeps_dropRefs _ _ hk
  have k_x : Keeps s0 x := k_r
  exact Keeps.upd k_r

@[simp] theorem keeps_retireQueue {s0 s : State} (c : Nat) (q : Nat) (hk : Keeps s0 s) :
    Keeps s0 (State.retireQueue s c q) := by
  unfold State.retireQueue
  split
  · exact hk
  · extract_lets x hit fed outs
    exact keeps_scramble _ (keeps_setQueue _ _ hk)

@[simp] theorem keeps_retireTags {s0 s : State} (c : Nat) (td : Bool) (hk : Keeps s0 s) :
    Keeps s0 (State.retireTags s c td).2 := by
  unfold State.retireTags
  extract_lets ret s1 s2 s3 s4
  have k_s1 : Keeps s0 s1 := Keeps.foldl (fun t a kt => keeps_feedAbort _ _ kt) _ hk
  have k_s2 : Keeps s0 s2 := keeps_releaseBays _ k_s1
  have k_s3 : Keeps s0 s3 := Keeps.upd k_s2
  have k_s4 : Keeps s0 s4 := Keeps.foldl (fun t1' a1' kt1' => keeps_retireQueue _ _ kt1') _ k_s3
  exact keeps_dropRefsIf _ _ k_s4

@[simp] theorem keeps_abandonCmd {s0 s : State} (q : Nat) (c : Cmd) (hk : Keeps s0 s) :
    Keeps s0 (State.abandonCmd s q c) := by
  unfold State.abandonCmd
  split
  · exact hk
  · extract_lets s1
    have k_s1 : Keeps s0 s1 := keeps_tapStop _ _ (keeps_scramble _ hk)
    exact Keeps.foldl (fun t a kt => keeps_feedAbort _ _ kt) _ k_s1

@[simp] theorem keeps_dropKept {s0 s : State} (q : Nat) (hk : Keeps s0 s) :
    Keeps s0 (State.dropKept s q) := by
  unfold State.dropKept
  exact Keeps.upd hk

@[simp] theorem keeps_stopQueue {s0 s : State} (q : Nat) (hk : Keeps s0 s) :
    Keeps s0 (State.stopQueue s q) := by
  unfold State.stopQueue
  extract_lets x s1 s2
  have k_s1 : Keeps s0 s1 := keeps_dropKept _ (Keeps.foldl (fun t a kt => keeps_abandonCmd _ _ kt) _ hk)
  have k_s2 : Keeps s0 s2 := keeps_setQueue _ _ k_s1
  split
  · exact keeps_setRbit _ _ _ (keeps_setRf _ _ _ _ k_s2)
  · exact k_s2

@[simp] theorem keeps_endRings {s0 s : State} (p : RingSlot → Bool) (code : Nat) (hk : Keeps s0 s) :
    Keeps s0 (State.endRings s p code) := by
  unfold State.endRings
  refine Keeps.foldl (fun t a kt => ?_) _ hk
  extract_lets r s1
  have k_s1 : Keeps s0 s1 := by
    unfold s1
    split
    · exact kt
    · exact keeps_ringReport _ _ _ _ _ _ _ _ _ kt
  exact keeps_ringFree _ _ k_s1

@[simp] theorem keeps_freeBound {s0 s : State} (c : Nat) (pq : Nat → Bool) (hk : Keeps s0 s) :
    Keeps s0 (State.freeBound s c pq) := by
  unfold State.freeBound
  exact Keeps.upd hk

@[simp] theorem keeps_postBoth {s0 s : State} (c : Nat) (rs : List EvRec) (hk : Keeps s0 s) :
    Keeps s0 (State.postBoth s c rs) := by
  unfold State.postBoth
  split
  · exact keeps_post _ _ (keeps_post _ _ hk)
  · exact keeps_post _ _ hk

@[simp] theorem keeps_tdnFinish {s0 s : State} (c : Nat) (hk : Keeps s0 s) :
    Keeps s0 (State.tdnFinish s c) := by
  unfold State.tdnFinish
  extract_lets s1
  have k_s1 : Keeps s0 s1 := keeps_setRbit _ _ _ (keeps_setRf _ _ _ _ hk)
  exact keeps_postBoth _ _ k_s1

@[simp] theorem keeps_teardown {s0 s : State} (c : Nat) (code : Nat) (hk : Keeps s0 s) :
    Keeps s0 (State.teardown s c code) := by
  unfold State.teardown
  extract_lets s01' s1 hi up s2 s3 s4 s5 s6 s7 s8
  have k_s01' : Keeps s0 s01' := keeps_setRbit _ _ _ (keeps_setRf _ _ _ _ (keeps_setRf _ _ _ _ hk))
  have k_s1 : Keeps s0 s1 := by
    unfold s1
    refine Keeps.foldl (fun t a kt => ?_) _ k_s01'
    split
    · exact keeps_stopQueue _ kt
    · exact kt
  have k_s2 : Keeps s0 s2 := by
    unfold s2
    split
    · exact keeps_setReg _ _ k_s1
    · exact k_s1
  have k_s3 : Keeps s0 s3 := keeps_retireTags _ _ k_s2
  have k_s4 : Keeps s0 s4 := keeps_endRings _ _ k_s3
  have k_s5 : Keeps s0 s5 := Keeps.upd k_s4
  have k_s6 : Keeps s0 s6 := keeps_setRbit _ _ _ (keeps_setRbit _ _ _ (keeps_setRbit _ _ _ (keeps_freeBound _ _ k_s5)))
  have k_s7 : Keeps s0 s7 := keeps_dropRefsIf _ _ k_s6
  have k_s8 : Keeps s0 s8 := keeps_txPump (keeps_releaseBays _ k_s7)
  split
  · exact k_s8
  · exact keeps_tdnFinish _ k_s8

@[simp] theorem keeps_ctxError {s0 s : State} (c : Nat) (e : Err) (hk : Keeps s0 s) :
    Keeps s0 (State.ctxError s c e) := by
  unfold State.ctxError
  extract_lets m r s1
  have k_r : Keeps s0 r.snd.snd := keeps_logErr _ hk
  have k_s1 : Keeps s0 s1 := k_r
  split
  · exact keeps_teardown _ _ k_r
  · split
    · exact k_r
    · exact keeps_postCtx _ _ _ _ k_r

@[simp] theorem keeps_sysFault {s0 s : State} (q : Nat) (hk : Keeps s0 s) :
    Keeps s0 (State.sysFault s q) := by
  unfold State.sysFault
  extract_lets tags mine s1 s2 s3 s4
  have k_s1 : Keeps s0 s1 := keeps_endRings _ _ hk
  have k_s2 : Keeps s0 s2 := keeps_freeBound _ _ (keeps_stopQueue _ k_s1)
  have k_s3 : Keeps s0 s3 := Keeps.upd k_s2
  have k_s4 : Keeps s0 s4 := keeps_dropRefsIf _ _ k_s3
  exact keeps_releaseBays _ k_s4

@[simp] theorem keeps_fault {s0 s : State} (q : Nat) (idx : U32) (op : Nat) (f0 : Flt) (hk : Keeps s0 s) :
    Keeps s0 (State.fault s q idx op f0) := by
  unfold State.fault
  extract_lets own f e r s1 rec2 ev s2
  have k_r : Keeps s0 r.snd.snd := keeps_logErr _ hk
  have k_s1 : Keeps s0 s1 := by
    unfold s1
    split
    · exact keeps_setReg _ _ (keeps_setRf _ _ _ _ k_r)
    · exact k_r
  have k_s2 : Keeps s0 s2 := keeps_trace _ _ _ _ (keeps_opCount _ _ _ (keeps_postBoth _ _ k_s1))
  split
  · exact keeps_sysFault _ k_s2
  · split
    · exact keeps_teardown _ _ k_s2
    · exact k_s2

@[simp] theorem keeps_fatal {s0 s : State} (e : Err) (needsys : Bool) (hk : Keeps s0 s) :
    Keeps s0 (State.fatal s e needsys) := by
  unfold State.fatal
  extract_lets e1 r x r1' s1 s2 s3 s4
  have k_r : Keeps s0 r.snd.snd := keeps_logErr _ (keeps_setRbit _ _ _ hk)
  have k_x : Keeps s0 x := keeps_postSys _ _ _ k_r
  have k_r1' : Keeps s0 r1'.snd.snd := by
    unfold r1'
    refine keeps_logErr _ ?_
    split
    · exact keeps_setRbit _ _ _ hk
    · exact hk
  have k_s1 : Keeps s0 s1 := keeps_setRbit _ _ _ k_r1'
  have k_s2 : Keeps s0 s2 := by
    unfold s2
    refine Keeps.foldl (fun t a kt => ?_) _ k_s1
    split
    · exact keeps_teardown _ _ kt
    · exact kt
  have k_s3 : Keeps s0 s3 := by
    unfold s3
    refine Keeps.foldl (fun t1' a1' kt1' => ?_) _ k_s2
    split
    · exact keeps_sysFault _ kt1'
    · exact kt1'
  have k_s4 : Keeps s0 s4 := keeps_postSys _ _ _ k_s3
  split
  · exact Keeps.upd k_x
  · split
    · exact Keeps.upd k_s4
    · exact k_s4

@[simp] theorem keeps_ringFault {s0 s : State} (slot : Nat) (r : RingSlot) (f : Flt) (hk : Keeps s0 s) :
    Keeps s0 (State.ringFault s slot r f) := by
  unfold State.ringFault
  extract_lets s1
  have k_s1 : Keeps s0 s1 := keeps_fault _ _ _ _ hk
  split
  · exact keeps_ringFree _ _ k_s1
  · exact k_s1

-- Keystone.lean

@[simp] theorem keeps_setMapStat {s0 s : State} (slot : Nat) (i : Nat) (b : Bool) (hk : Keeps s0 s) :
    Keeps s0 (State.setMapStat s slot i b) := by
  unfold State.setMapStat
  exact keeps_setRbit _ _ _ hk

@[simp] theorem keeps_mapRead {s0 s : State} (c : Nat) (hk : Keeps s0 s) :
    Keeps s0 (State.mapRead s c) := by
  unfold State.mapRead
  exact keeps_energy _ _ _ (keeps_acct _ _ _ hk)

@[simp] theorem keeps_mapLookup {s0 s : State} (c : Nat) (slot : Nat) (bank : Nat) (line : Nat) (hk : Keeps s0 s) :
    Keeps s0 (State.mapLookup s c slot bank line) := by
  unfold State.mapLookup
  extract_lets ws s1 vs l
  have k_s1 : Keeps s0 s1 := keeps_mapRead _ hk
  split
  · exact hk
  · split
    · exact k_s1
    · exact Keeps.take k_s1

@[simp] theorem keeps_mapLookups {s0 s : State} (c : Nat) (slot : Nat) (bank : Nat) (js : List Nat) (hk : Keeps s0 s) :
    Keeps s0 (State.mapLookups s c slot bank js) := by
  unfold State.mapLookups
  exact Keeps.foldl (fun t a kt => keeps_mapLookup _ _ _ _ kt) _ (keeps_mapLookup _ _ _ _ hk)

-- Fu.lean

@[simp] theorem keeps_setFuBank {s0 s : State} (b : Nat) (x : FuBank) (hk : Keeps s0 s) :
    Keeps s0 (State.setFuBank s b x) := by
  unfold State.setFuBank
  exact Keeps.upd hk

-- Truss.lean

@[simp] theorem keeps_fuCharge {s0 s : State} (own : Nat) (f : Nat) (n : Nat) (fu : FuBank) (fmt : Nat) (hk : Keeps s0 s) :
    Keeps s0 (State.fuCharge s own f n fu fmt) := by
  unfold State.fuCharge
  extract_lets p
  exact keeps_energy _ _ _ (keeps_acct _ _ _ (keeps_opCount _ _ _ hk))

-- Start.lean

@[simp] theorem keeps_startIf {s0 s : State} (c : Cmd) (f : Option Flt) (hk : Keeps s0 s) :
    (startIf s c f).Keeps s0 := by
  unfold startIf
  split
  · exact trivial
  · exact hk

@[simp] theorem keeps_shown {s0 s : State} (q : Nat) (i : U32) (c : Cmd) (hk : Keeps s0 s) :
    Keeps s0 (State.shown s q i c) := by
  unfold State.shown
  split
  · exact hk
  · exact keeps_unhide _ _ hk

@[simp] theorem keeps_runCmd {s0 s : State} (q : Nat) (i : U32) (op : Nat) (f : State → Nat → Cmd → RunRes)  (hf : ∀ t own c, Keeps s0 t → (f t own c).Keeps s0) (hk : Keeps s0 s) :
    Keeps s0 (State.runCmd s q i op f) := by
  unfold State.runCmd
  split
  · exact hk
  next c _ =>
    split
    · have g := hf (s.shown q i c) (s.owner q) c (keeps_shown _ _ _ hk)
      revert g
      cases f (s.shown q i c) (s.owner q) c with
      | busy t => exact id
      | done t acts => exact keeps_complete _ _ _
      | flt t e => exact keeps_fault _ _ _ _
    · exact hk

@[simp] theorem keeps_markRan {s0 s : State} (q : Nat) (i : U32) (hk : Keeps s0 s) :
    Keeps s0 (State.markRan s q i) := by
  unfold State.markRan
  exact keeps_updCmd _ _ _ hk

@[simp] theorem keeps_placeBlock {s0 s : State} (r : Region) (b : Nat) (hk : Keeps s0 s) :
    ∀ t, State.placeBlock s r b = some t → Keeps s0 t := by
  intro t ht
  unfold State.placeBlock at ht
  split at ht
  · obtain rfl := Option.some.inj ht
    exact Keeps.upd hk
  · exact nomatch ht

@[simp] theorem keeps_placeGo {s0 s : State} (r : Region) (x2 : List Nat) (hk : Keeps s0 s) :
    Keeps s0 (State.placeGo s r x2).2 := by
  fun_induction State.placeGo s r x2
  next s =>
    exact hk
  next s b bs s1 x ih1 =>
    have k_x := keeps_placeBlock _ _ hk _ x
    exact ih1 k_x
  next s b bs x t ih1 =>
    have k_t : Keeps s0 t.snd := ih1 hk
    exact k_t

@[simp] theorem keeps_placeBlocks {s0 s : State} (r : Region) (bs : List Nat) (hk : Keeps s0 s) :
    Keeps s0 (State.placeBlocks s r bs).2 := by
  unfold State.placeBlocks
  extract_lets t w x
  have k_t : Keeps s0 t.snd := keeps_placeGo _ _ hk
  have k_x : Keeps s0 x := k_t
  split
  · exact Keeps.upd k_t
  · extract_lets w1
    exact Keeps.upd k_t

@[simp] theorem keeps_freeRegionsOf {s0 s : State} (q : Nat) (i : U32) (hk : Keeps s0 s) :
    Keeps s0 (State.freeRegionsOf s q i) := by
  unfold State.freeRegionsOf
  extract_lets keep
  exact Keeps.upd hk

@[simp] theorem keeps_freeBlock {s0 s : State} (r : Region) (b : Nat) (hk : Keeps s0 s) :
    Keeps s0 (State.freeBlock s r b) := by
  unfold State.freeBlock
  exact Keeps.upd hk

-- Bay.lean

@[simp] theorem keeps_toll {s0 s : State} (b : Nat) (n : Nat) (capc : Nat) (hk : Keeps s0 s) :
    Keeps s0 (State.toll s b n capc).2.2 := by
  unfold State.toll
  extract_lets f l rows s1
  have k_s1 : Keeps s0 s1 := keeps_wr32 _ _ hk
  exact keeps_wr32 _ _ k_s1

@[simp] theorem keeps_tileAdd {s0 s : State} (tiles : Nat) (first : Nat) (n : Nat) (x4 : Nat) (x5 : Nat) (hk : Keeps s0 s) :
    Keeps s0 (State.tileAdd s tiles first n x4 x5) := by
  fun_induction State.tileAdd s tiles first n x4 x5
  next s x =>
    exact hk
  next s t k lo hi s1 ih1 =>
    have k_s1 : Keeps s0 s1 := by
      unfold s1
      split
      · exact keeps_wr8 _ _ hk
      · exact hk
    exact ih1 k_s1

@[simp] theorem keeps_readyEnts {s0 s : State} (f : Feed) (x2 : Nat) (x3 : List FeedEnt) (hk : Keeps s0 s) :
    Keeps s0 (State.readyEnts s f x2 x3).2 := by
  fun_induction State.readyEnts s f x2 x3
  next s x =>
    exact hk
  next s e x xs r t ih1 =>
    have k_t : Keeps s0 t.snd := by
      unfold t
      refine ih1 ?_
      split
      · exact keeps_sendReady _ _ _ _ hk
      · exact hk
    exact k_t

@[simp] theorem keeps_readyGo {s0 s : State} (c : Nat) (x2 : List Feed) (hk : Keeps s0 s) :
    Keeps s0 (State.readyGo s c x2) := by
  fun_induction State.readyGo s c x2
  next s =>
    exact hk
  next s f fs h r ih1 =>
    have k_r : Keeps s0 r.snd := keeps_readyEnts _ _ _ hk
    exact ih1 (keeps_updFeed _ _ k_r)
  next s f fs h ih1 =>
    exact ih1 hk

@[simp] theorem keeps_readyAll {s0 s : State} (c : Nat) (hk : Keeps s0 s) :
    Keeps s0 (State.readyAll s c) := by
  unfold State.readyAll
  exact keeps_readyGo _ _ hk

@[simp] theorem keeps_landRows {s0 s : State} (c : Nat) (lslot : Nat) (src : Nat) (first : Nat) (n : Nat) (payload : List Byte) (hk : Keeps s0 s) :
    Keeps s0 (State.landRows s c lslot src first n payload) := by
  unfold State.landRows
  extract_lets b s1 s2 s3 k
  have k_s1 : Keeps s0 s1 := keeps_opCount _ _ _ (keeps_wr _ _ hk)
  have k_s2 : Keeps s0 s2 := keeps_tileAdd _ _ _ _ _ k_s1
  have k_s3 : Keeps s0 s3 := keeps_wr32 _ _ k_s2
  exact keeps_wr32 _ _ (keeps_wr64 _ _ k_s3)

end Sys2Proof.Machine
end

