-- ==== Sys2Proof/Laws/KeepsUnits.lean ====
section
/-! SUPPORT. What Keeps says (pending, part, free numbers, canonical stores) holds of the units that run commands: Span, Girder, Causeway, Gantry, the tables, Ledger, rings, the audit commands, the route pipe: one lemma per
function on states, citing the lemmas of the functions it calls. -/
namespace Sys2Proof.Machine

-- Span.lean

@[simp] theorem keeps_updExch {s0 s : State} (c : Nat) (gen : Nat) (xid : Nat) (g : Exch → Exch) (hk : Keeps s0 s) :
    Keeps s0 (State.updExch s c gen xid g) := by
  unfold State.updExch
  exact Keeps.upd hk

@[simp] theorem keeps_nameGen {s0 s : State} (c : Nat) (g : Nat) (hk : Keeps s0 s) :
    Keeps s0 (State.nameGen s c g) := by
  unfold State.nameGen
  extract_lets h
  split
  · exact keeps_setReg _ _ hk
  · exact hk

@[simp] theorem keeps_bindExch {s0 s : State} (own : Nat) (gen : Nat) (xid : Nat) (xb : Nat) (rrec : Nat) (dest : Nat) (hk : Keeps s0 s) :
    Keeps s0 (State.bindExch s own gen xid xb rrec dest) := by
  unfold State.bindExch
  split
  · exact keeps_updExch _ _ _ _ hk
  · extract_lets e
    exact Keeps.upd hk

@[simp] theorem keeps_retiredStart {s0 s : State} (c : Cmd) (hk : Keeps s0 s) :
    (retiredStart s c).Keeps s0 := by
  unfold retiredStart
  exact hk

@[simp] theorem keeps_cxOwn {s0 s : State} (e : Exch) (hk : Keeps s0 s) :
    Keeps s0 (State.cxOwn s e) := by
  unfold State.cxOwn
  extract_lets d h ms ph mis slots tab ref look msg s1
  have k_s1 : Keeps s0 s1 := keeps_updExch _ _ _ _ hk
  split
  · exact hk
  · split
    · exact hk
    · exact Keeps.foldl (fun t a kt => keeps_trace _ _ _ _ (keeps_txPush _ _ _ _ _ _ kt)) _ k_s1

@[simp] theorem keeps_cxArrive {s0 s : State} (c : Nat) (gen : Nat) (xid : Nat) (phase : Nat) (m : CountMsg) (hk : Keeps s0 s) :
    Keeps s0 (State.cxArrive s c gen xid phase m) := by
  unfold State.cxArrive
  extract_lets put s1
  have k_s1 : Keeps s0 s1 := keeps_updExch _ _ _ _ hk
  split
  · exact keeps_cxOwn _ k_s1
  · exact k_s1

@[simp] theorem keeps_startCount {s0 s : State} (q : Nat) (c : Cmd) (hk : Keeps s0 s) :
    (startCount s q c).Keeps s0 := by
  unfold startCount
  extract_lets own rem x s1 nb
  have k_s1 : Keeps s0 s1 := keeps_bindExch _ _ _ _ _ _ hk
  split
  · exact keeps_retiredStart _ hk
  · split
    · exact trivial
    · split
      · exact trivial
      · exact trivial
      · split
        · exact Keeps.foldl (fun t a kt => keeps_hello _ kt) _ hk
        · exact keeps_updExch _ _ _ _ k_s1

@[simp] theorem keeps_runCount {s0 s : State} (own : Nat) (q : Nat) (c : Cmd) (hk : Keeps s0 s) :
    (runCount s own q c).Keeps s0 := by
  unfold runCount
  split
  · exact hk
  · extract_lets d h ms bs rem msg s1 s2 x ans ups ofs s11'
    have k_s1 : Keeps s0 s1 := keeps_updExch _ _ _ _ hk
    have k_s2 : Keeps s0 s2 := Keeps.foldl (fun t a kt => keeps_trace _ _ _ _ (keeps_txPush _ _ _ _ _ _ kt)) _ k_s1
    have k_s11' : Keeps s0 s11' := keeps_puts _ (keeps_updCmd _ _ _ hk)
    split
    · exact keeps_chargeReads _ _ (keeps_charge _ _ (keeps_cxArrive _ _ _ _ _ k_s2))
    · split
      · exact hk
      · split
        · exact hk
        · split
          · exact hk
          · exact keeps_chargeRows _ _ _ _ _ (keeps_charge _ _ k_s11')

@[simp] theorem keeps_addSeg {s0 s : State} (c : Nat) (gen : Nat) (xid : Nat) (bucket : Nat) (row : Nat) (rows : Nat) (rec_ : Nat) (hk : Keeps s0 s) :
    Keeps s0 (State.addSeg s c gen xid bucket row rows rec_) := by
  unfold State.addSeg
  split
  · split
    · exact hk
    · exact keeps_updExch _ _ _ _ (keeps_chargeRows _ _ _ _ _ (keeps_strWr _ _ _ hk))
  · exact hk

@[simp] theorem keeps_addPushed {s0 s : State} (v : DspEnv) (d : Nat) (n : Nat) (hk : Keeps s0 s) :
    Keeps s0 (State.addPushed s v d n) := by
  unfold State.addPushed
  exact keeps_updExch _ _ _ _ hk

@[simp] theorem keeps_countMx {s0 s : State} (v : DspEnv) (rows : Nat) (hk : Keeps s0 s) :
    Keeps s0 (State.countMx s v rows) := by
  unfold State.countMx
  split
  · exact keeps_opCount _ _ _ hk
  · exact hk

@[simp] theorem keeps_dspPush {s0 s : State} (v : DspEnv) (d : Nat) (fs : List Frame) (hk : Keeps s0 s) :
    Keeps s0 (State.dspPush s v d fs) := by
  unfold State.dspPush
  extract_lets n
  exact keeps_chargeReads _ _ (keeps_countMx _ _ (keeps_addPushed _ _ _ (keeps_txPush _ _ _ _ _ _ hk)))

@[simp] theorem keeps_landParts {s0 s : State} (v : DspEnv) (g : Seg) (x3 : List (Nat × Nat × Nat)) (hk : Keeps s0 s) :
    Keeps s0 (State.landParts s v g x3) := by
  fun_induction State.landParts s v g x3
  next s =>
    exact hk
  next s p ps s1 ih1 =>
    have k_s1 : Keeps s0 s1 := keeps_readyAll _ (keeps_landRows _ _ _ _ _ _ hk)
    exact ih1 (keeps_chargeRows _ _ _ _ _ (keeps_chargeReads _ _ (keeps_countMx _ _ (keeps_opCount _ _ _ (keeps_addPushed _ _ _ k_s1)))))

@[simp] theorem keeps_localChunk {s0 s : State} (v : DspEnv) (k : Chunk) (hk : Keeps s0 s) :
    ∀ t, State.localChunk s v k = some (.ok t) → Keeps s0 t := by
  intro t ht
  unfold State.localChunk at ht
  extract_lets b t1 s1 s2 g at ht
  have k_s1 : Keeps s0 s1 := keeps_addSeg _ _ _ _ _ _ _ (keeps_toll _ _ _ hk)
  have k_s2 : Keeps s0 s2 := keeps_updExch _ _ _ _ k_s1
  clear_value s2
  split at ht
  · exact nomatch ht
  · split at ht
    · cases ht
      exact k_s2
    · split at ht
      · exact nomatch ht
      · cases ht
        exact keeps_landParts _ _ _ k_s2
@[simp] theorem keeps_chunksGo {s0 s : State} (v : DspEnv) (x2 : List Chunk) (hk : Keeps s0 s) :
    Keeps s0 (State.chunksGo s v x2).2.2 := by
  fun_induction State.chunksGo s v x2
  next => exact hk
  next => exact hk
  next s k ks h s1 x ih1 => exact ih1 (keeps_localChunk _ _ hk _ x)
  next r ih1 => exact ih1 hk
  next s1 ih1 => exact ih1 (keeps_updExch _ _ _ _ (keeps_txPush _ _ _ _ _ _ hk))

@[simp] theorem keeps_localSegs {s0 s : State} (v : DspEnv) (x2 : List Seg) (hk : Keeps s0 s) :
    Keeps s0 (State.localSegs s v x2).2.2 := by
  fun_induction State.localSegs s v x2
  next s =>
    exact hk
  next s g gs x =>
    exact hk
  next s g gs f x =>
    exact hk
  next s g gs x ih1 =>
    exact ih1 (keeps_landParts _ _ _ hk)

@[simp] theorem keeps_startDispatch {s0 s : State} (q : Nat) (c : Cmd) (hk : Keeps s0 s) :
    (startDispatch s q c).Keeps s0 := by
  unfold startDispatch
  extract_lets own
  split
  · exact keeps_retiredStart _ hk
  · split
    · exact trivial
    · split
      · exact trivial
      · split
        · exact trivial
        · exact keeps_repeatSlabs _ _ _ _ _ (keeps_updExch _ _ _ _ (keeps_bindExch _ _ _ _ _ _ hk))

@[simp] theorem keeps_dspList {s0 s : State} (v : DspEnv) (e : Exch) (bs : List (Nat × Nat × Nat × Nat × Nat × Nat)) (hk : Keeps s0 s) :
    Keeps s0 (State.dspList s v e bs) := by
  unfold State.dspList
  extract_lets ofs xb s01' s1 s2
  have k_s01' : Keeps s0 s01' := keeps_chargeRows _ _ _ _ _ (keeps_scramble _ hk)
  have k_s1 : Keeps s0 s1 := by
    unfold s1
    split
    · exact Keeps.foldl (fun t a kt => keeps_addSeg _ _ _ _ _ _ _ kt) _ k_s01'
    · exact k_s01'
  have k_s2 : Keeps s0 s2 := keeps_updExch _ _ _ _ k_s1
  split
  · exact k_s2
  · extract_lets gs
    refine Keeps.foldl (fun t a kt => ?_) _ k_s2
    split
    · exact kt
    · exact keeps_dspPush _ _ _ kt

@[simp] theorem keeps_runDispatch {s0 s : State} (own : Nat) (q : Nat) (c : Cmd) (hk : Keeps s0 s) :
    (runDispatch s own q c).Keeps s0 := by
  unfold runDispatch
  split
  · exact hk
  · extract_lets v d bs x h s1
    have k_s1 : Keeps s0 s1 := by
      unfold s1
      split
      · exact hk
      · exact keeps_chargeReads _ _ (keeps_charge _ _ (keeps_dspList _ _ _ hk))
    split
    · exact hk
    · split
      · exact k_s1
      · extract_lets r s2
        have k_r : Keeps s0 r.snd.snd := keeps_chunksGo _ _ k_s1
        have k_s2 : Keeps s0 s2 := keeps_updExch _ _ _ _ k_r
        split
        · exact k_s2
        · exact k_s2
        · extract_lets gs mine l s3 nan s4
          have k_l : Keeps s0 l.snd.snd := by
            unfold l
            split
            · exact keeps_localSegs _ _ k_s2
            · exact k_s2
          have k_s3 : Keeps s0 s3 := k_l
          have k_s4 : Keeps s0 s4 := keeps_updCmd _ _ _ k_l
          split
          · exact k_l
          · split
            · exact k_l
            · exact keeps_chargeRows _ _ _ _ _ k_s4

@[simp] theorem keeps_granted {s0 s : State} (e : Exch) (k : Chunk) (first : Nat) (rows : Nat) (hk : Keeps s0 s) :
    Keeps s0 (State.granted s e k first rows) := by
  unfold State.granted
  extract_lets s1 s2 g
  have k_s1 : Keeps s0 s1 := keeps_updExch _ _ _ _ hk
  have k_s2 : Keeps s0 s2 := keeps_addSeg _ _ _ _ _ _ _ k_s1
  split
  · exact k_s2
  · split
    · exact k_s2
    · extract_lets v
      exact keeps_dspPush _ _ _ k_s2

@[simp] theorem keeps_dspStale {s0 s : State} (own : Nat) (f : Frame) (hk : Keeps s0 s) :
    Keeps s0 (State.dspStale s own f) := by
  unfold State.dspStale
  split
  · exact hk
  · extract_lets gs
    cases gs with
    | nil => exact hk
    | cons g l => exact keeps_updExch _ _ _ _ hk

@[simp] theorem keeps_startDrain {s0 s : State} (_q : Nat) (c : Cmd) (hk : Keeps s0 s) :
    (startDrain s _q c).Keeps s0 := by
  unfold startDrain
  exact hk

-- Girder.lean

@[simp] theorem keeps_cmdTake {s0 s : State} (own : Nat) (gen : Nat) (xid : Nat) (unit : Nat) (kind : RefKind) (a : Nat) (hk : Keeps s0 s) :
    ∀ t, State.cmdTake s own gen xid unit kind a = .ok t → Keeps s0 t := by
  intro t ht
  unfold State.cmdTake at ht
  split at ht
  · cases ht
    exact hk
  · dsimp only at ht
    split at ht <;> cases ht
    · exact Keeps.upd (keeps_takeRef _ hk)
    · exact hk

@[simp] theorem keeps_cmdTakes {s0 s : State} (own : Nat) (gen : Nat) (xid : Nat) (unit : Nat) (kind : RefKind) (x6 : List Nat) (hk : Keeps s0 s) :
    Keeps s0 (State.cmdTakes s own gen xid unit kind x6).2 := by
  fun_induction State.cmdTakes s own gen xid unit kind x6
  next s =>
    exact hk
  next s a l f x =>
    exact hk
  next s a l s1 x ih1 =>
    have k_x := keeps_cmdTake _ _ _ _ _ _ hk _ x
    exact ih1 k_x

@[simp] theorem keeps_startGroup {s0 s : State} (q : Nat) (c : Cmd) (hk : Keeps s0 s) :
    (startGroup s q c).Keeps s0 := by
  unfold startGroup
  extract_lets own gate
  exact keeps_startIf _ _ hk

@[simp] theorem keeps_runGroup {s0 s : State} (own : Nat) (c : Cmd) (hk : Keeps s0 s) :
    (runGroup s own c).Keeps s0 := by
  unfold runGroup
  extract_lets gate l fl got x idx rows cnt base list ent hdr s1 s2
  have k_s1 : Keeps s0 s1 := keeps_puts _ (keeps_strWr _ _ _ hk)
  have k_s2 : Keeps s0 s2 := by
    unfold s2
    split
    · exact k_s1
    · exact keeps_strWr _ _ _ k_s1
  exact keeps_chargeReads _ _ (keeps_charge _ _ k_s2)

@[simp] theorem keeps_startFeed {s0 s : State} (q : Nat) (c : Cmd) (hk : Keeps s0 s) :
    (startFeed s q c).Keeps s0 := by
  unfold startFeed
  extract_lets own gen
  split
  · exact keeps_retiredStart _ hk
  · split
    · exact trivial
    · split
      · exact trivial
      · split
        · exact trivial
        · exact hk

@[simp] theorem keeps_newFeedId {s0 s : State} (hk : Keeps s0 s) :
    Keeps s0 (State.newFeedId s).2 := by
  unfold State.newFeedId
  extract_lets used f i
  exact Keeps.take hk

@[simp] theorem keeps_armBay {s0 s : State} (own : Nat) (gen : Nat) (xid : Nat) (d : Desc) (e : Nat) (hk : Keeps s0 s) :
    ∀ t, State.armBay s own gen xid d e = .ok t → Keeps s0 t := by
  intro t ht
  unfold State.armBay at ht
  dsimp only at ht
  split at ht
  · exact nomatch ht
  next h a s1 e1 =>
    have k1 : Keeps s0 s1 := keeps_alloc _ _ _ _ hk _ e1
    cases ht
    exact Keeps.upd (keeps_strWr32 _ _ _ (keeps_strWr _ _ _ (keeps_strWr _ _ _ (keeps_wr _ _ (keeps_wr _ _ k1)))))

@[simp] theorem keeps_armBay_error {s0 s : State} (own : Nat) (gen : Nat) (xid : Nat) (d : Desc) (e : Nat) (hk : Keeps s0 s) :
    ∀ t, State.armBay s own gen xid d e = .error t → Keeps s0 t.2 := by
  intro t ht
  unfold State.armBay at ht
  dsimp only at ht
  split at ht
  · cases ht
    exact keeps_allocFail _ _ hk
  · exact nomatch ht
@[simp] theorem keeps_armBays {s0 s : State} (own : Nat) (gen : Nat) (xid : Nat) (d : Desc) (x5 : Nat) (x6 : Nat) (hk : Keeps s0 s) :
    Keeps s0 (State.armBays s own gen xid d x5 x6).2 := by
  fun_induction State.armBays s own gen xid d x5 x6
  next => exact hk
  next s e k f x => exact keeps_armBay_error _ _ _ _ _ hk _ x
  next s e k s1 x ih1 => exact ih1 (keeps_armBay _ _ _ _ _ hk _ x)

@[simp] theorem keeps_sendEntries {s0 s : State} (d : Desc) (f : Feed) (x3 : Nat) (x4 : List FeedEnt) (hk : Keeps s0 s) :
    Keeps s0 (State.sendEntries s d f x3 x4) := by
  fun_induction State.sendEntries s d f x3 x4
  next s x =>
    exact hk
  next s e x xs h ih1 =>
    exact ih1 hk
  next s e x xs h s1 s2 ih1 =>
    have k_s1 : Keeps s0 s1 := keeps_opCount _ _ _ (keeps_feedMsg _ (keeps_feedMsg _ hk))
    have k_s2 : Keeps s0 s2 := by
      unfold s2
      split
      · exact keeps_sendReady _ _ _ _ k_s1
      · exact k_s1
    exact ih1 k_s2

@[simp] theorem keeps_openFeed {s0 s : State} (d : Desc) (f : Feed) (resume : Bool) (hk : Keeps s0 s) :
    Keeps s0 (State.openFeed s d f resume) := by
  unfold State.openFeed
  extract_lets s1
  have k_s1 : Keeps s0 s1 := keeps_feedMsg _ hk
  exact keeps_sendEntries _ _ _ _ k_s1

@[simp] theorem keeps_gateMark {s0 s : State} (d : Desc) (x2 : Nat) (x3 : List FeedEnt) (hk : Keeps s0 s) :
    Keeps s0 (State.gateMark s d x2 x3) := by
  fun_induction State.gateMark s d x2 x3
  next s x =>
    exact hk
  next s e x xs o s1 ih1 =>
    have k_s1 : Keeps s0 s1 := keeps_strWr32 _ _ _ hk
    exact ih1 (keeps_strWr32 _ _ _ (keeps_strWr32 _ _ _ k_s1))

@[simp] theorem keeps_chargeFeed {s0 s : State} (own : Nat) (d : Desc) (bays : Nat) (hk : Keeps s0 s) :
    Keeps s0 (State.chargeFeed s own d bays) := by
  unfold State.chargeFeed
  extract_lets n
  exact keeps_chargeRows _ _ _ _ _ (keeps_chargeRows _ _ _ _ _ (keeps_chargeReads _ _ (keeps_chargeReads _ _ (keeps_charge _ _ hk))))

@[simp] theorem keeps_feedExpert {s0 s : State} (own : Nat) (q : Nat) (c : Cmd) (hk : Keeps s0 s) :
    (State.feedExpert s own q c).Keeps s0 := by
  unfold State.feedExpert
  extract_lets d x gen xid n x1' r ps t n1' g s1 s2 s3
  have k_n : Keeps s0 n.snd := keeps_newFeedId hk
  have k_x1' : Keeps s0 x1' := k_n
  have k_r : Keeps s0 r.snd := keeps_armBays _ _ _ _ _ _ hk
  have k_t : Keeps s0 t.snd := keeps_cmdTakes _ _ _ _ _ _ k_r
  have k_n1' : Keeps s0 n1'.snd := keeps_newFeedId k_t
  have k_s1 : Keeps s0 s1 := keeps_strWr32 _ _ _ (keeps_strWr32 _ _ _ k_n1')
  have k_s2 : Keeps s0 s2 := Keeps.upd k_s1
  have k_s3 : Keeps s0 s3 := keeps_closeFeeds _ _ (keeps_openFeed _ _ _ k_s2)
  split
  · extract_lets g1' s11' s21'
    have k_s11' : Keeps s0 s11' := Keeps.upd k_n
    have k_s21' : Keeps s0 s21' := keeps_closeFeeds _ _ (keeps_openFeed _ _ _ k_s11')
    exact keeps_feedCheck _ k_s21'
  · split
    · exact k_r
    · split
      · exact k_t
      · exact keeps_chargeFeed _ _ _ (keeps_feedCheck _ k_s3)

@[simp] theorem keeps_feedGate {s0 s : State} (own : Nat) (q : Nat) (c : Cmd) (hk : Keeps s0 s) :
    (State.feedGate s own q c).Keeps s0 := by
  unfold State.feedGate
  extract_lets d n old g s1 s2 s3
  have k_n : Keeps s0 n.snd := keeps_newFeedId hk
  have k_s1 : Keeps s0 s1 := by
    unfold s1
    split
    · exact k_n
    · exact keeps_gateMark _ _ _ (keeps_strWr32 _ _ _ (keeps_strWr32 _ _ _ k_n))
  have k_s2 : Keeps s0 s2 := Keeps.upd k_s1
  have k_s3 : Keeps s0 s3 := keeps_openFeed _ _ _ k_s2
  exact keeps_chargeFeed _ _ _ (keeps_feedCheck _ k_s3)

@[simp] theorem keeps_runFeed {s0 s : State} (own : Nat) (q : Nat) (c : Cmd) (hk : Keeps s0 s) :
    (runFeed s own q c).Keeps s0 := by
  unfold runFeed
  split
  · exact keeps_feedCheck _ hk
  · split
    · exact hk
    · split
      · exact keeps_feedGate _ _ _ hk
      · exact keeps_feedExpert _ _ _ hk

-- Causeway.lean

@[simp] theorem keeps_placeRows {s0 s : State} (brow : Nat) (pitch : Nat) (payload : List Byte) (x4 : Nat) (x5 : List (Desc × Nat)) (hk : Keeps s0 s) :
    Keeps s0 (State.placeRows s brow pitch payload x4 x5) := by
  fun_induction State.placeRows s brow pitch payload x4 x5
  next s x =>
    exact hk
  next s i d t l ih1 =>
    exact ih1 (keeps_strWr _ _ _ hk)

@[simp] theorem keeps_chargePlaced {s0 s : State} (own : Nat) (brow : Nat) (ts : List (Desc × Nat)) (hk : Keeps s0 s) :
    Keeps s0 (State.chargePlaced s own brow ts) := by
  unfold State.chargePlaced
  exact Keeps.foldl (fun t a kt => keeps_chargeRows _ _ _ _ _ kt) _ hk

@[simp] theorem keeps_updRet {s0 s : State} (own : Nat) (gen : Nat) (xid : Nat) (g : RetRun → RetRun) (hk : Keeps s0 s) :
    Keeps s0 (State.updRet s own gen xid g) := by
  unfold State.updRet
  exact Keeps.upd hk

@[simp] theorem keeps_startReturn {s0 s : State} (q : Nat) (c : Cmd) (hk : Keeps s0 s) :
    (startReturn s q c).Keeps s0 := by
  unfold startReturn
  extract_lets own gen xid tab slots t bays r x s2
  have k_t : Keeps s0 t.snd := keeps_cmdTakes _ _ _ _ _ _ hk
  have k_x : Keeps s0 x := k_t
  have k_s2 : Keeps s0 s2 := Keeps.upd k_t
  split
  · exact keeps_retiredStart _ hk
  · split
    · exact trivial
    · split
      · exact trivial
      · split
        · exact keeps_repeatSlabs _ _ _ _ _ (keeps_updRet _ _ _ _ hk)
        · split
          · exact trivial
          · exact keeps_feedCheck _ k_s2

@[simp] theorem keeps_retSend {s0 s : State} (r : RetRun) (rfmt : Nat) (x3 : List (Nat × Nat × Nat × RetBay)) (hk : Keeps s0 s) :
    Keeps s0 (State.retSend s r rfmt x3).2 := by
  have hm : ∀ t b n l, Keeps s0 t →
      Keeps s0 ((t.updRet r.ctx r.gen r.xid (fun x => { x with sent := x.sent ++ [(b, n)] })).chargeReads r.ctx l) :=
    fun _ _ _ _ ht => keeps_chargeReads _ _ (keeps_updRet _ _ _ _ ht)
  fun_induction State.retSend s r rfmt x3
  next => exact hk
  next => exact hk
  next => exact hk
  next ih1 => exact ih1 (hm _ _ _ _ (keeps_chargePlaced _ _ _
    (keeps_opCount _ _ _ (keeps_opCount _ _ _ (keeps_placeRows _ _ _ _ _ hk)))))
  next ih1 => exact ih1 (hm _ _ _ _ (keeps_txPush _ _ _ _ _ _ hk))

@[simp] theorem keeps_runReturn {s0 s : State} (own : Nat) (q : Nat) (c : Cmd) (hk : Keeps s0 s) :
    (runReturn s own q c).Keeps s0 := by
  unfold runReturn
  extract_lets gen xid rfmt pitch
  split
  · exact hk
  · extract_lets t
    have k_t : Keeps s0 t.snd := keeps_retSend _ _ _ hk
    split
    · exact k_t
    · exact k_t
    · split
      · exact keeps_chargeReads _ _ (keeps_charge _ _ k_t)
      · exact k_t

@[simp] theorem keeps_startCombine {s0 s : State} (q : Nat) (c : Cmd) (hk : Keeps s0 s) :
    (startCombine s q c).Keeps s0 := by
  unfold startCombine
  extract_lets own
  split
  · exact hk
  · exact keeps_startIf _ _ hk

theorem pickOrder_free {α : Type} (k fr : Nat) (l : List α) : fr ≤ (pickOrder k fr l).2 := by
  induction k generalizing fr l with
  | zero => exact Nat.le_refl _
  | succ k ih =>
    unfold pickOrder
    dsimp only
    split
    · exact Nat.le_refl _
    · exact Nat.le_trans (Nat.le_succ _) (ih _ _)

theorem sumRow_free (ord : Bool) (h k c fr : Nat) (ws : List (K36 × List K36)) : fr ≤ (sumRow ord h k c fr ws).2 := by
  induction k generalizing c fr with
  | zero => exact Nat.le_refl _
  | succ k ih =>
    unfold sumRow
    dsimp only
    refine Nat.le_trans ?_ (ih _ _)
    split
    · exact Nat.le_refl _
    · exact pickOrder_free _ _ _

@[simp] theorem keeps_cmbRow {s0 s : State} (own : Nat) (d : Desc) (out : Desc) (e : Nat) (rfmt : Nat) (planes : List Desc) (tab : List (Nat × Nat × Nat)) (t : Nat) (y : CmbTally) (hk : Keeps s0 s) :
    Keeps s0 (State.cmbRow s own d out e rfmt planes tab t y).2 := by
  unfold State.cmbRow
  extract_lets put mine slots ws r pk
  have hput : ∀ t vs, Keeps s0 t → Keeps s0 (put t vs) := fun t vs ht => keeps_strWr _ _ _ ht
  split
  · exact hput _ _ hk
  · split
    · exact hput _ _ hk
    · exact hput _ _ (Keeps.takeTo (sumRow_free _ _ _ _ _ _) hk)

@[simp] theorem keeps_cmbRows {s0 s : State} (own : Nat) (d : Desc) (out : Desc) (e : Nat) (rfmt : Nat) (planes : List Desc) (tab : List (Nat × Nat × Nat)) (x8 : Nat) (x9 : Nat) (x10 : CmbTally) (hk : Keeps s0 s) :
    Keeps s0 (State.cmbRows s own d out e rfmt planes tab x8 x9 x10).2 := by
  fun_induction State.cmbRows s own d out e rfmt planes tab x8 x9 x10
  next s x y =>
    exact hk
  next s k t y r ih1 =>
    have k_r : Keeps s0 r.snd := keeps_cmbRow _ _ _ _ _ _ _ _ _ hk
    exact ih1 k_r

@[simp] theorem keeps_runCombine {s0 s : State} (own : Nat) (c : Cmd) (hk : Keeps s0 s) :
    (runCombine s own c).Keeps s0 := by
  unfold runCombine
  split
  · exact hk
  · extract_lets d out h b tab ps r y s1
    have k_r : Keeps s0 r.snd := keeps_cmbRows _ _ _ _ _ _ _ _ _ _ hk
    have k_s1 : Keeps s0 s1 := keeps_chargeRows _ _ _ _ _ (keeps_chargeReads _ _ (keeps_charge _ _ (keeps_opCount _ _ _ (keeps_opCount _ _ _ k_r))))
    exact k_s1

-- Gantry.lean

@[simp] theorem keeps_mxCount {s0 s : State} (a : Nat) (b : Nat) (rows : Nat) (n : Nat) (hk : Keeps s0 s) :
    Keeps s0 (State.mxCount s a b rows n) := by
  unfold State.mxCount
  split
  · exact keeps_opCount _ _ _ hk
  · exact hk

@[simp] theorem keeps_startCopy {s0 s : State} (q : Nat) (c : Cmd) (hk : Keeps s0 s) :
    (startCopy s q c).Keeps s0 := by
  unfold startCopy
  extract_lets own dd
  split
  · exact trivial
  · exact keeps_startIf _ _ hk

@[simp] theorem keeps_runCopy {s0 s : State} (own : Nat) (c : Cmd) (hk : Keeps s0 s) :
    (runCopy s own c).Keeps s0 := by
  unfold runCopy
  extract_lets sd dd f n raw fb rows s1 s2 s3
  have k_s1 : Keeps s0 s1 := Keeps.foldl (fun t a kt => keeps_strWr _ _ _ kt) _ hk
  have k_s2 : Keeps s0 s2 := keeps_mxCount _ _ _ _ (keeps_opCount _ _ _ (keeps_opCount _ _ _ k_s1))
  have k_s3 : Keeps s0 s3 := by
    unfold s3
    split
    · exact k_s2
    · exact keeps_opCount _ _ _ (keeps_fuCharge _ _ _ _ _ k_s2)
  exact keeps_chargeRows _ _ _ _ _ (keeps_chargeReads _ _ (keeps_charge _ _ k_s3))

@[simp] theorem keeps_startIndexed {s0 s : State} (q : Nat) (c : Cmd) (hk : Keeps s0 s) :
    (startIndexed s q c).Keeps s0 := by
  unfold startIndexed
  extract_lets own dd wrote
  split
  · exact trivial
  · split
    · exact trivial
    · exact hk

@[simp] theorem keeps_gatherRows {s0 s : State} (own : Nat) (sd : Desc) (dd : Desc) (x4 : Nat) (x5 : List (Option Nat)) (x6 : GatherTally) (hk : Keeps s0 s) :
    Keeps s0 (State.gatherRows s own sd dd x4 x5 x6).2.2 := by
  fun_induction State.gatherRows s own sd dd x4 x5 x6
  next => exact hk
  next ih1 => exact ih1 (keeps_strWr _ _ _ hk)
  next => exact hk
  next ih1 => exact ih1 (keeps_strWr _ _ _ hk)
  next ih1 => exact ih1 (keeps_strWr _ _ _ hk)
  next ih1 => exact ih1 (keeps_strWr _ _ _ hk)

@[simp] theorem keeps_runGather {s0 s : State} (own : Nat) (op : Nat) (c : Cmd) (hk : Keeps s0 s) :
    (runGather s own op c).Keeps s0 := by
  unfold runGather
  extract_lets sd dd n r y pages s1
  have k_r : Keeps s0 r.snd.snd := keeps_gatherRows _ _ _ _ _ _ hk
  have k_s1 : Keeps s0 s1 := keeps_chargeRows _ _ _ _ _ (keeps_chargeReads _ _ (keeps_charge _ _ (keeps_mxCount _ _ _ _ (keeps_opCount _ _ _ k_r))))
  split
  · exact k_s1
  · exact k_s1

@[simp] theorem keeps_runScatter {s0 s : State} (own : Nat) (c : Cmd) (hk : Keeps s0 s) :
    (runScatter s own c).Keeps s0 := by
  unfold runScatter
  extract_lets sd dd ps rows s1 drop s2
  have k_s1 : Keeps s0 s1 := Keeps.foldl (fun t a kt => keeps_strWr _ _ _ kt) _ hk
  have k_s2 : Keeps s0 s2 := keeps_chargeRows _ _ _ _ _ (keeps_chargeReads _ _ (keeps_charge _ _ (keeps_mxCount _ _ _ _ (keeps_opCount _ _ _ k_s1))))
  exact k_s2

@[simp] theorem keeps_runScatterAcc {s0 s : State} (own : Nat) (c : Cmd) (hk : Keeps s0 s) :
    (runScatterAcc s own c).Keeps s0 := by
  unfold runScatterAcc
  extract_lets sd dd ps o t0 s1 drop
  have k_t0 : Keeps s0 t0 := by
    refine Keeps.takeTo ?_ hk
    unfold o
    split
    · exact Nat.le_refl _
    · exact pickOrder_free _ _ _
  have k_s1 : Keeps s0 s1 := Keeps.foldl (fun t a kt => keeps_strWr _ _ _ kt) _ k_t0
  exact keeps_chargeRows _ _ _ _ _ (keeps_chargeReads _ _ (keeps_charge _ _ (keeps_opCount _ _ _ k_s1)))

-- Tables.lean

@[simp] theorem keeps_startFuLoad {s0 s : State} (q : Nat) (c : Cmd) (hk : Keeps s0 s) :
    (startFuLoad s q c).Keeps s0 := by
  unfold startFuLoad
  extract_lets own d
  split
  · exact trivial
  · split
    · exact trivial
    · exact keeps_setRbit _ _ _ hk

@[simp] theorem keeps_runFuLoad {s0 s : State} (own : Nat) (c : Cmd) (hk : Keeps s0 s) :
    (runFuLoad s own c).Keeps s0 := by
  unfold runFuLoad
  extract_lets d seed sh b0 sz r s1
  have k_s1 : Keeps s0 s1 := keeps_setFuBank _ _ hk
  split
  · exact keeps_chargeReads _ _ k_s1
  · exact k_s1

@[simp] theorem keeps_startFuApply {s0 s : State} (q : Nat) (c : Cmd) (hk : Keeps s0 s) :
    (startFuApply s q c).Keeps s0 := by
  unfold startFuApply
  extract_lets own sd dd
  exact keeps_startIf _ _ hk

@[simp] theorem keeps_runFuApply {s0 s : State} (own : Nat) (c : Cmd) (hk : Keeps s0 s) :
    (runFuApply s own c).Keeps s0 := by
  unfold runFuApply
  extract_lets sd dd fb n rows s1 s2
  have k_s1 : Keeps s0 s1 := Keeps.foldl (fun t a kt => keeps_strWr _ _ _ kt) _ hk
  have k_s2 : Keeps s0 s2 := keeps_opCount _ _ _ (keeps_fuCharge _ _ _ _ _ (keeps_mxCount _ _ _ _ k_s1))
  exact keeps_chargeRows _ _ _ _ _ (keeps_chargeReads _ _ k_s2)

@[simp] theorem keeps_startMapLoad {s0 s : State} (q : Nat) (c : Cmd) (hk : Keeps s0 s) :
    (startMapLoad s q c).Keeps s0 := by
  unfold startMapLoad
  extract_lets own
  split
  · exact trivial
  · extract_lets sh x s1
    have k_x : Keeps s0 x := keeps_setMapStat _ _ _ hk
    have k_s1 : Keeps s0 s1 := Keeps.upd k_x
    split
    · exact trivial
    · split
      · exact k_s1
      · exact k_s1

@[simp] theorem keeps_runMapLoad {s0 s : State} (own : Nat) (c : Cmd) (hk : Keeps s0 s) :
    (runMapLoad s own c).Keeps s0 := by
  unfold runMapLoad
  split
  · exact hk
  · extract_lets d sh s1
    have k_s1 : Keeps s0 s1 := keeps_wr _ _ (keeps_wr _ _ hk)
    split
    · exact hk
    · exact keeps_chargeReads _ _ k_s1

@[simp] theorem keeps_startPublish {s0 s : State} (q : Nat) (c : Cmd) (hk : Keeps s0 s) :
    (startPublish s q c).Keeps s0 := by
  unfold startPublish
  exact keeps_startIf _ _ hk

@[simp] theorem keeps_flipSlot {s0 s : State} (map : Bool) (bias : Bool) (slot : Nat) (hk : Keeps s0 s) :
    Keeps s0 (State.flipSlot s map bias slot) := by
  unfold State.flipSlot
  extract_lets s1 s2
  have k_s1 : Keeps s0 s1 := by
    unfold s1
    split
    · exact keeps_setReg _ _ (keeps_setMapStat _ _ _ (keeps_setMapStat _ _ _ hk))
    · exact hk
  have k_s2 : Keeps s0 s2 := Keeps.upd k_s1
  split
  · exact keeps_setReg _ _ k_s2
  · exact k_s1

@[simp] theorem keeps_flipFu {s0 s : State} (hk : Keeps s0 s) :
    Keeps s0 (State.flipFu s) := by
  unfold State.flipFu
  split
  · exact keeps_setRbit _ _ _ (keeps_setRbit _ _ _ (keeps_setRbit _ _ _ (keeps_setReg _ _ hk)))
  · exact hk

@[simp] theorem keeps_publishAct {s0 s : State} (own : Nat) (first : Nat) (n : Nat) (map : Bool) (bias : Bool) (fu : Bool) (hk : Keeps s0 s) :
    Keeps s0 (State.publishAct s own first n map bias fu) := by
  unfold State.publishAct
  split
  · exact keeps_flipFu hk
  · refine Keeps.foldl (fun t a kt => ?_) _ hk
    split
    · exact keeps_flipSlot _ _ _ kt
    · exact kt

@[simp] theorem keeps_startDescCreate {s0 s : State} (q : Nat) (c : Cmd) (hk : Keeps s0 s) :
    (startDescCreate s q c).Keeps s0 := by
  unfold startDescCreate
  extract_lets own a ws w d x
  split
  · exact trivial
  · exact hk

@[simp] theorem keeps_startDescRetire {s0 s : State} (q : Nat) (c : Cmd) (hk : Keeps s0 s) :
    (startDescRetire s q c).Keeps s0 := by
  unfold startDescRetire
  extract_lets own n
  exact hk

@[simp] theorem keeps_startPoolConfig {s0 s : State} (_q : Nat) (c : Cmd) (hk : Keeps s0 s) :
    (startPoolConfig s _q c).Keeps s0 := by
  unfold startPoolConfig
  extract_lets p n base mt sz mine clash bufs
  exact keeps_startIf _ _ hk

-- Ledger.lean

@[simp] theorem keeps_startLedgerAdmit {s0 s : State} (q : Nat) (c : Cmd) (hk : Keeps s0 s) :
    (startLedgerAdmit s q c).Keeps s0 := by
  unfold startLedgerAdmit
  split
  · exact trivial
  · extract_lets d
    exact keeps_startIf _ _ hk

@[simp] theorem keeps_chargeTable {s0 s : State} (own : Nat) (hk : Keeps s0 s) :
    Keeps s0 (State.chargeTable s own) := by
  unfold State.chargeTable
  exact keeps_chargeReads _ _ hk

@[simp] theorem keeps_runLedgerAdmit {s0 s : State} (own : Nat) (c : Cmd) (hk : Keeps s0 s) :
    (runLedgerAdmit s own c).Keeps s0 := by
  unfold runLedgerAdmit
  extract_lets d used slots x0 x full bad own0 st w0 act put
  exact keeps_chargeReads _ _ (keeps_chargeTable _ hk)

@[simp] theorem keeps_startLedgerStep {s0 s : State} (q : Nat) (c : Cmd) (hk : Keeps s0 s) :
    (startLedgerStep s q c).Keeps s0 := by
  unfold startLedgerStep
  extract_lets own wl big x sp
  split
  · exact trivial
  · split
    · exact keeps_startIf _ _ hk
    · split
      · exact trivial
      · exact hk

@[simp] theorem keeps_runLedgerBuild {s0 s : State} (own : Nat) (c : Cmd) (hk : Keeps s0 s) :
    (runLedgerBuild s own c).Keeps s0 := by
  unfold runLedgerBuild
  extract_lets wl smax used r x lcDef sseq selEnts ents nact ndone hdr wle s1 s2 s3 passed starve
  have k_s1 : Keeps s0 s1 := keeps_strWr _ _ _ hk
  have k_s2 : Keeps s0 s2 := by
    unfold s2
    split
    · exact k_s1
    · exact keeps_strWr _ _ _ k_s1
  have k_s3 : Keeps s0 s3 := by
    unfold s3
    split
    · exact k_s2
    · exact keeps_strWr _ _ _ k_s2
  exact keeps_chargeTable _ (keeps_opCount _ _ _ k_s3)

@[simp] theorem keeps_runLedgerUndo {s0 s : State} (own : Nat) (hk : Keeps s0 s) :
    (runLedgerUndo s own).Keeps s0 := by
  unfold runLedgerUndo
  extract_lets sseq used saved ents all
  exact keeps_chargeTable _ hk

@[simp] theorem keeps_startLedgerRetire {s0 s : State} (q : Nat) (c : Cmd) (hk : Keeps s0 s) :
    (startLedgerRetire s q c).Keeps s0 := by
  unfold startLedgerRetire
  extract_lets own o n
  split
  · exact trivial
  · exact keeps_startIf _ _ hk

@[simp] theorem keeps_runLedgerRetire {s0 s : State} (own : Nat) (c : Cmd) (hk : Keeps s0 s) :
    (runLedgerRetire s own c).Keeps s0 := by
  unfold runLedgerRetire
  extract_lets used hit ents gone left s1
  have k_s1 : Keeps s0 s1 := keeps_strWr _ _ _ hk
  exact keeps_chargeReads _ _ (keeps_chargeTable _ k_s1)

-- Ring.lean

@[simp] theorem keeps_updRing {s0 s : State} (slot : Nat) (g : RingSlot → RingSlot) (hk : Keeps s0 s) :
    Keeps s0 (State.updRing s slot g) := by
  unfold State.updRing
  exact Keeps.upd hk

@[simp] theorem keeps_ringSeen {s0 s : State} (slot : Nat) (from_ : Option Nat) (hk : Keeps s0 s) :
    Keeps s0 (State.ringSeen s slot from_) := by
  unfold State.ringSeen
  exact keeps_updRing _ _ hk

@[simp] theorem keeps_ringSent {s0 s : State} (r : RingSlot) (f : Frame) (hk : Keeps s0 s) :
    Keeps s0 (State.ringSent s r f) := by
  unfold State.ringSent
  split
  · exact keeps_opCount _ _ _ hk
  · exact hk

@[simp] theorem keeps_ringPump {s0 s : State} (slot : Nat) (hk : Keeps s0 s) :
    Keeps s0 (State.ringPump s slot) := by
  unfold State.ringPump
  split
  · exact hk
  · split
    · exact hk
    · extract_lets go out s1
      have k_s1 : Keeps s0 s1 := keeps_updRing _ _ hk
      exact Keeps.foldl (fun t a kt => keeps_ringSent _ _ (keeps_emit _ _ _ kt)) _ k_s1

@[simp] theorem keeps_ringData {s0 s : State} (slot : Nat) (dst : Nat) (dir : Nat) (chunk : Nat) (seg : Nat) (phase : Nat) (hop : Nat) (ofs : Nat) (payload : List Byte) (hk : Keeps s0 s) :
    Keeps s0 (State.ringData s slot dst dir chunk seg phase hop ofs payload) := by
  unfold State.ringData
  split
  · exact hk
  · extract_lets t f t1 s1
    have k_s1 : Keeps s0 s1 := keeps_updRing _ _ hk
    exact keeps_ringPump _ k_s1

@[simp] theorem keeps_ringFinal {s0 s : State} (slot : Nat) (r : RingSlot) (c : Nat) (g : Nat) (bs : List Byte) (hk : Keeps s0 s) :
    Keeps s0 (State.ringFinal s slot r c g bs) := by
  unfold State.ringFinal
  exact keeps_updRing _ _ (keeps_putOwn _ _ _ hk)

@[simp] theorem keeps_ringSum {s0 s : State} (slot : Nat) (r : RingSlot) (dir : Nat) (c : Nat) (g : Nat) (hop : Nat) (ofs : Nat) (payload : List Byte) (hk : Keeps s0 s) :
    Keeps s0 (State.ringSum s slot r dir c g hop ofs payload) := by
  unfold State.ringSum
  extract_lets acc s1 nx
  have k_s1 : Keeps s0 s1 := keeps_charge _ _ (keeps_opCount _ _ _ hk)
  split
  · exact keeps_ringData _ _ _ _ _ _ _ _ _ (keeps_ringFinal _ _ _ _ _ k_s1)
  · exact keeps_ringData _ _ _ _ _ _ _ _ _ k_s1

@[simp] theorem keeps_ringCopy {s0 s : State} (slot : Nat) (r : RingSlot) (dir : Nat) (c : Nat) (g : Nat) (hop : Nat) (ofs : Nat) (payload : List Byte) (hk : Keeps s0 s) :
    Keeps s0 (State.ringCopy s slot r dir c g hop ofs payload) := by
  unfold State.ringCopy
  extract_lets s1 nx
  have k_s1 : Keeps s0 s1 := keeps_ringFinal _ _ _ _ _ hk
  split
  · exact k_s1
  · exact keeps_ringData _ _ _ _ _ _ _ _ _ k_s1

@[simp] theorem keeps_ringBlock {s0 s : State} (slot : Nat) (r : RingSlot) (i : Nat) (n : Nat) (hk : Keeps s0 s) :
    Keeps s0 (State.ringBlock s slot r i n) := by
  unfold State.ringBlock
  extract_lets at_
  exact keeps_updRing _ _ (keeps_putOwn _ _ _ hk)

@[simp] theorem keeps_ringPlace {s0 s : State} (slot : Nat) (r : RingSlot) (i : Nat) (ofs : Nat) (payload : List Byte) (hk : Keeps s0 s) :
    Keeps s0 (State.ringPlace s slot r i ofs payload) := by
  unfold State.ringPlace
  extract_lets at_ s1 n
  have k_s1 : Keeps s0 s1 := keeps_putOwn _ _ _ hk
  split
  · exact keeps_ringBlock _ _ _ _ k_s1
  · exact k_s1

@[simp] theorem keeps_ringBegin {s0 s : State} (slot : Nat) (r : RingSlot) (hk : Keeps s0 s) :
    Keeps s0 (State.ringBegin s slot r) := by
  unfold State.ringBegin
  extract_lets s1 dir
  have k_s1 : Keeps s0 s1 := keeps_updRing _ _ hk
  split
  · refine Keeps.foldl (fun t a kt => ?_) _ k_s1
    extract_lets bs dir1'
    split
    · exact keeps_ringFinal _ _ _ _ _ kt
    · exact keeps_ringData _ _ _ _ _ _ _ _ _ kt
  · refine Keeps.foldl (fun t a kt => ?_) _ k_s1
    extract_lets s2
    have k_s2 : Keeps s0 s2 := keeps_ringPlace _ _ _ _ _ kt
    split
    · exact k_s2
    · exact keeps_ringData _ _ _ _ _ _ _ _ _ k_s2
  · refine Keeps.foldl (fun t a kt => ?_) _ k_s1
    split
    · exact keeps_ringPlace _ _ _ _ _ kt
    · exact keeps_ringData _ _ _ _ _ _ _ _ _ kt

@[simp] theorem keeps_biasPass {s0 s : State} (mode : Nat) (gamma : K36) (bmax : K36) (rc : List Nat) (x5 : Nat) (x6 : List (Nat × Nat)) (hk : Keeps s0 s) :
    Keeps s0 (State.biasPass s mode gamma bmax rc x5 x6) := by
  fun_induction State.biasPass s mode gamma bmax rc x5 x6
  next s x =>
    exact hk
  next s k sl e l mine tot bank bs ih1 =>
    exact ih1 (keeps_wr _ _ hk)

@[simp] theorem keeps_camberEnd {s0 u : State} (own : Nat) (q : Nat) (c : Cmd) (ring : Bool) (hk : Keeps s0 u) :
    Keeps s0 (State.camberEnd u own q c ring) := by
  unfold State.camberEnd
  extract_lets s sl n rc s1
  have k_s : Keeps s0 s := keeps_unhide _ _ hk
  have k_s1 : Keeps s0 s1 := keeps_biasPass _ _ _ _ _ _ k_s
  exact keeps_complete _ _ _ (keeps_chargeReads _ _ k_s1)

@[simp] theorem keeps_ringLogUnc {s0 s : State} (r : RingSlot) (f : Flt) (hk : Keeps s0 s) :
    Keeps s0 (State.ringLogUnc s r f) := by
  unfold State.ringLogUnc
  extract_lets l
  have k_l : Keeps s0 l.snd.snd := keeps_logErr _ hk
  exact keeps_postCtx _ _ _ _ k_l

@[simp] theorem keeps_ringDecide {s0 s : State} (slot : Nat) (code : Nat) (rerun : Bool) (hk : Keeps s0 s) :
    Keeps s0 (State.ringDecide s slot code rerun) := by
  unfold State.ringDecide
  split
  · exact hk
  · extract_lets s01' s1 g x own x1'
    have k_s01' : Keeps s0 s01' := keeps_updRing _ _ (keeps_trace _ _ _ _ hk)
    have k_s1 : Keeps s0 s1 := keeps_updRing _ _ k_s01'
    split
    · split
      · split
        · exact keeps_camberEnd _ _ _ _ (keeps_updCmd _ _ _ k_s01')
        · exact keeps_complete _ _ _ k_s01'
      · exact k_s01'
    · split
      · exact Keeps.upd k_s1
      · split
        · exact keeps_ringFault _ _ _ k_s01'
        · exact keeps_ringFault _ _ _ k_s01'

@[simp] theorem keeps_ringTell {s0 s : State} (slot : Nat) (code : Nat) (hk : Keeps s0 s) :
    Keeps s0 (State.ringTell s slot code) := by
  unfold State.ringTell
  split
  · exact hk
  · split
    · exact hk
    · extract_lets s1 t
      have k_s1 : Keeps s0 s1 := keeps_updRing _ _ hk
      have k_t : Keeps s0 t.snd := keeps_ringReport _ _ _ _ _ _ _ _ _ k_s1
      split
      · exact keeps_ringDecide _ _ _ k_t
      · exact k_t

@[simp] theorem keeps_ringUnc {s0 s : State} (slot : Nat) (f : Flt) (hk : Keeps s0 s) :
    Keeps s0 (State.ringUnc s slot f) := by
  unfold State.ringUnc
  split
  · exact hk
  · split
    · exact keeps_ringFault _ _ _ hk
    · split
      · exact keeps_ringLogUnc _ _ hk
      · extract_lets s1
        have k_s1 : Keeps s0 s1 := keeps_updRing _ _ (keeps_ringLogUnc _ _ hk)
        exact keeps_ringTell _ _ k_s1

@[simp] theorem keeps_ringCheck {s0 s : State} (slot : Nat) (hk : Keeps s0 s) :
    Keeps s0 (State.ringCheck s slot) := by
  unfold State.ringCheck
  split
  · exact hk
  · split
    · exact keeps_ringTell _ _ hk
    · exact hk

@[simp] theorem keeps_ringFail {s0 s : State} (own : Nat) (q : Nat) (gid : Nat) (gseq : U32) (att : Option Nat) (retry : Nat) (op : Nat) (code : Nat) (check : Nat) (ms : List Nat) (hk : Keeps s0 s) :
    (State.ringFail s own q gid gseq att retry op code check ms).Keeps s0 := by
  unfold State.ringFail
  exact keeps_ringReport _ _ _ _ _ _ _ _ _ hk

@[simp] theorem keeps_ringBind {s0 s : State} (q : Nat) (c : Cmd) (att : Option Nat) (r : RingSlot) (hk : Keeps s0 s) :
    (State.ringBind s q c att r).Keeps s0 := by
  unfold State.ringBind
  extract_lets unk me old
  have hf : ∀ code unit l, (s.ringFail r.ctx q r.gid r.gseq att r.retry r.op code unit l).Keeps s0 :=
    fun _ _ _ => keeps_ringFail _ _ _ _ _ _ _ _ _ _ hk
  split
  next m _ =>
    have g := hf ePeerVersion 4 r.members
    revert g
    cases s.ringFail r.ctx q r.gid r.gseq att r.retry r.op ePeerVersion 4 r.members <;> exact id
  · split
    · exact Keeps.foldl (fun t a kt => keeps_hello _ kt) _ hk
    · split
      · exact trivial
      · split
        · exact keeps_ringFail _ _ _ _ _ _ _ _ _ _ (keeps_allocFail _ _ hk)
        next h a s1 e =>
          have k1 := keeps_alloc _ _ _ _ hk _ e
          exact keeps_trace _ _ _ _ (keeps_setQueue _ _ (Keeps.upd k1))

@[simp] theorem keeps_ringStart {s0 s : State} (q : Nat) (_c : Cmd) (gid : Nat) (retry : Nat) (op : Nat) (gseq : U32) (k : State → List Nat → Option Nat → StartRes)  (hfk : ∀ t l a, Keeps s0 t → (k t l a).Keeps s0) (hk : Keeps s0 s) :
    (State.ringStart s q _c gid retry op gseq k).Keeps s0 := by
  unfold State.ringStart
  extract_lets own g go
  have hgo : ∀ t a, Keeps s0 t → (go t a).Keeps s0 := by
    intro t a ht
    unfold go
    split
    · exact keeps_ringFail _ _ _ _ _ _ _ _ _ _ ht
    · split
      · exact keeps_ringFail _ _ _ _ _ _ _ _ _ _ ht
      · split
        · exact keeps_ringFail _ _ _ _ _ _ _ _ _ _ ht
        · split
          · exact keeps_ringFail _ _ _ _ _ _ _ _ _ _ ht
          · exact hfk t _ _ ht
  split
  next a _ =>
    extract_lets s1
    have k_s1 : Keeps s0 s1 := Keeps.upd hk
    split
    · have k := hgo s1 (some (a.attempt + 1)) k_s1
      revert k
      cases go s1 (some (a.attempt + 1)) <;> intro k
      · exact k
      · exact Keeps.upd k
      · exact k
      · exact k
      · exact k
    · exact k_s1
  · exact hgo _ _ hk

@[simp] theorem keeps_startRing {s0 s : State} (q : Nat) (c : Cmd) (hk : Keeps s0 s) :
    (startRing s q c).Keeps s0 := by
  unfold startRing
  extract_lets own op gid retry gseq
  refine keeps_ringStart _ _ _ _ _ _ _ (fun t ms att ht => ?_) hk
  dsimp only
  split
  · exact keeps_ringFail _ _ _ _ _ _ _ _ _ _ ht
  · exact keeps_ringBind _ _ _ _ ht

@[simp] theorem keeps_runRing {s0 s : State} (q : Nat) (c : Cmd) (hk : Keeps s0 s) :
    (runRing s q c).Keeps s0 := by
  unfold runRing
  split
  · exact hk
  · extract_lets s1
    have k_s1 : Keeps s0 s1 := by
      unfold s1
      split
      · exact hk
      · exact keeps_ringSeen _ _ (keeps_chargeReads _ _ (keeps_charge _ _ (keeps_ringBegin _ _ hk)))
    exact keeps_ringCheck _ k_s1

@[simp] theorem keeps_startCamberAccum {s0 s : State} (q : Nat) (c : Cmd) (hk : Keeps s0 s) :
    (startCamberAccum s q c).Keeps s0 := by
  unfold startCamberAccum
  extract_lets own d h e
  split
  · exact trivial
  · split
    · split
      · exact trivial
      · exact hk
    · exact hk

@[simp] theorem keeps_camberAddAct {s0 s : State} (own : Nat) (slot : Nat) (cs : List Nat) (hk : Keeps s0 s) :
    Keeps s0 (State.camberAddAct s own slot cs) := by
  unfold State.camberAddAct
  extract_lets a sums sat s1
  have k_s1 : Keeps s0 s1 := keeps_wr _ _ hk
  split
  · exact k_s1
  · exact keeps_stick _ _ _ (keeps_ctxCount _ _ _ k_s1)

@[simp] theorem keeps_startCamberUpdate {s0 s : State} (q : Nat) (c : Cmd) (hk : Keeps s0 s) :
    (startCamberUpdate s q c).Keeps s0 := by
  unfold startCamberUpdate
  extract_lets own sl n buf load banks c1 gid gseq
  split
  · exact trivial
  · split
    · exact trivial
    · split
      · exact hk
      · exact keeps_ringStart _ _ _ _ _ _ _ (fun t ms att ht =>
          StartRes.keeps_ite (fun _ => keeps_ringFail _ _ _ _ _ _ _ _ _ _ ht)
            (fun _ => StartRes.keeps_ite (fun _ => keeps_ringFail _ _ _ _ _ _ _ _ _ _ ht) (fun _ => keeps_ringBind _ _ _ _ ht))) hk

-- Audit.lean

@[simp] theorem keeps_updBar {s0 s : State} (c : Nat) (gen : Nat) (bid : Nat) (g : Barrier → Barrier) (hk : Keeps s0 s) :
    Keeps s0 (State.updBar s c gen bid g) := by
  unfold State.updBar
  exact Keeps.upd hk

@[simp] theorem keeps_startBarrier {s0 s : State} (q : Nat) (c : Cmd) (hk : Keeps s0 s) :
    (startBarrier s q c).Keeps s0 := by
  unfold startBarrier
  extract_lets own d n ms gen lead b
  split
  · exact trivial
  · split
    · exact trivial
    · exact Keeps.upd hk

@[simp] theorem keeps_barRelease {s0 s : State} (b : Barrier) (late : Bool) (hk : Keeps s0 s) :
    Keeps s0 (State.barRelease s b late) := by
  unfold State.barRelease
  extract_lets tr s1
  have k_s1 : Keeps s0 s1 := keeps_trace _ _ _ _ (keeps_updBar _ _ _ _ hk)
  exact keeps_complete _ _ _ k_s1

@[simp] theorem keeps_sendReleases {s0 s : State} (b : Barrier) (ms : List Nat) (mis : Bool) (trel : Nat) (hk : Keeps s0 s) :
    Keeps s0 (State.sendReleases s b ms mis trel) := by
  unfold State.sendReleases
  exact Keeps.foldl (fun t a kt => keeps_txPush _ _ _ _ _ _ kt) _ hk

@[simp] theorem keeps_barArrive {s0 s : State} (b : Barrier) (src : Nat) (n : Nat) (hk : Keeps s0 s) :
    Keeps s0 (State.barArrive s b src n) := by
  unfold State.barArrive
  split
  · extract_lets s1
    have k_s1 : Keeps s0 s1 := by
      unfold s1
      split
      · exact hk
      · exact keeps_sendReleases _ _ _ _ (keeps_updBar _ _ _ _ hk)
    split
    · exact k_s1
    · exact keeps_sendReleases _ _ _ _ k_s1
  · extract_lets b1 s1 p tr
    have k_s1 : Keeps s0 s1 := keeps_updBar _ _ _ _ hk
    have k_p : Keeps s0 p.snd := keeps_readTime k_s1
    split
    · split
      · exact keeps_barRelease _ _ k_s1
      · exact keeps_sendReleases _ _ _ _ (keeps_updBar _ _ _ _ k_p)
    · exact k_s1

@[simp] theorem keeps_runBarrier {s0 s : State} (own : Nat) (q : Nat) (c : Cmd) (hk : Keeps s0 s) :
    (runBarrier s own q c).Keeps s0 := by
  unfold runBarrier
  split
  · exact hk
  · split
    · extract_lets s1
      have k_s1 : Keeps s0 s1 := keeps_trace _ _ _ _ (keeps_markRan _ _ hk)
      split
      · exact keeps_barArrive _ _ _ k_s1
      · exact keeps_txPush _ _ _ _ _ _ k_s1
    · split
      · exact hk
      · exact hk

@[simp] theorem keeps_startDigestBegin {s0 s : State} (q : Nat) (c : Cmd) (hk : Keeps s0 s) :
    (startDigestBegin s q c).Keeps s0 := by
  unfold startDigestBegin
  extract_lets own sid
  exact keeps_startIf _ _ hk

@[simp] theorem keeps_startDigestEnd {s0 s : State} (q : Nat) (c : Cmd) (hk : Keeps s0 s) :
    (startDigestEnd s q c).Keeps s0 := by
  unfold startDigestEnd
  extract_lets own sid
  exact keeps_startIf _ _ hk

@[simp] theorem keeps_startFence {s0 s : State} (x1 : Nat) (c : Cmd) (hk : Keeps s0 s) :
    (startFence s x1 c).Keeps s0 := by
  unfold startFence
  exact hk

@[simp] theorem keeps_startSkipIf {s0 s : State} (q : Nat) (c : Cmd) (hk : Keeps s0 s) :
    (startSkipIf s q c).Keeps s0 := by
  unfold startSkipIf
  extract_lets hit x
  exact keeps_setQueue _ _ hk

@[simp] theorem keeps_startTrigger {s0 s : State} (_q : Nat) (c : Cmd) (hk : Keeps s0 s) :
    (startTrigger s _q c).Keeps s0 := by
  unfold startTrigger
  extract_lets n
  exact keeps_startIf _ _ hk

@[simp] theorem keeps_markAct {s0 s : State} (own : Nat) (q : Nat) (c : Cmd) (v : Nat) (trig : Bool) (hk : Keeps s0 s) :
    Keeps s0 (State.markAct s own q c v trig) := by
  unfold State.markAct
  extract_lets s1
  have k_s1 : Keeps s0 s1 := keeps_trace _ _ _ _ hk
  split
  · exact k_s1
  · split
    · exact keeps_raiseTrigger _ _ _ k_s1
    · exact keeps_sysCount _ k_s1

-- Control.lean

@[simp] theorem keeps_ctlBegin {s0 s : State} (hk : Keeps s0 s) :
    Keeps s0 (State.ctlBegin s) := by
  unfold State.ctlBegin
  exact keeps_arrayWrite _ (Keeps.upd hk)

@[simp] theorem keeps_ctlWrite {s0 s : State} (off : Nat) (priv : Bool) (f : State → State) (hf : ∀ t, Keeps s0 t → Keeps s0 (f t)) (hk : Keeps s0 s) :
    Keeps s0 (State.ctlWrite s off priv f) := by
  unfold State.ctlWrite
  split
  · exact hk
  · extract_lets s01'
    have k_s01' : Keeps s0 s01' := keeps_ctlBegin hk
    split
    · exact keeps_sysCount _ k_s01'
    · split
      · exact k_s01'
      · exact hf _ k_s01'

-- Route.lean

@[simp] theorem keeps_updJob {s0 s : State} (own : Nat) (job : Nat) (g : Job → Job) (hk : Keeps s0 s) :
    Keeps s0 (State.updJob s own job g) := by
  unfold State.updJob
  exact Keeps.upd hk

@[simp] theorem keeps_jobGone {s0 s : State} (own : Nat) (job : Nat) (unit : Nat) :
    (State.jobGone s own job unit).Keeps s0 := by
  unfold State.jobGone
  split
  · exact trivial
  · exact trivial

@[simp] theorem keeps_tapStart {s0 s : State} (stream : Nat) (row0 : Nat) (n : Nat) (hk : Keeps s0 s) :
    Keeps s0 (State.tapStart s stream row0 n) := by
  unfold State.tapStart
  split
  · exact Keeps.upd hk
  · exact hk

@[simp] theorem keeps_setRun {s0 s : State} (x : TapRun) (hk : Keeps s0 s) :
    Keeps s0 (State.setRun s x) := by
  unfold State.setRun
  exact Keeps.upd hk

@[simp] theorem keeps_startRoute {s0 s : State} (q : Nat) (c : Cmd) (hk : Keeps s0 s) :
    (startRoute s q c).Keeps s0 := by
  unfold startRoute
  extract_lets own tap sid t r reg bs p0 s1 n run s2
  have k_p0 : Keeps s0 p0.snd := keeps_placeBlocks _ _ hk
  have k_s1 : Keeps s0 s1 := keeps_placeBlocks _ _ k_p0
  have k_s2 : Keeps s0 s2 := Keeps.upd k_s1
  split
  · exact trivial
  · split
    · exact trivial
    · exact trivial
    · split
      · exact trivial
      · split
        · exact trivial
        · exact trivial
        · split
          · exact k_p0
          · extract_lets c1
            show Keeps s0 _
            split
            · exact keeps_tapStart _ _ _ k_s2
            · exact k_s2

@[simp] theorem keeps_keystone {s0 s : State} (own : Nat) (r : Rpb) (t : Nat) (epoch : Nat) (cap : Nat) (rrec : Desc) (dest : Desc) (sels : List Sel) (ks : List KRec) (multi : Bool) (hk : Keeps s0 s) :
    Keeps s0 (State.keystone s own r t epoch cap rrec dest sels ks multi).1 := by
  unfold State.keystone
  split
  · exact keeps_puts _ hk
  · extract_lets o s1 s2
    have k_s1 : Keeps s0 s1 := keeps_puts _ hk
    have k_s2 : Keeps s0 s2 := by
      unfold s2
      split
      · exact keeps_scramble _ k_s1
      · exact k_s1
    exact keeps_acct _ _ _ (keeps_opCount _ _ _ k_s2)

@[simp] theorem keeps_routeEnd {s0 s : State} (q : Nat) (own : Nat) (c : Cmd) (r : Rpb) (sels : List Sel) (acts : List Act) (hk : Keeps s0 s) :
    Keeps s0 (State.routeEnd s q own c r sels acts).1 := by
  unfold State.routeEnd
  extract_lets t rd s1 d m bank ks k
  have k_s1 : Keeps s0 s1 := keeps_freeRegionsOf _ _ (keeps_chargeReads _ _ (keeps_charge _ _ hk))
  have k_k : Keeps s0 k.fst := keeps_keystone _ _ _ _ _ _ _ _ _ _ (keeps_mapLookups _ _ _ _ k_s1)
  split
  · exact keeps_puts _ k_s1
  · exact k_k

@[simp] theorem keeps_fuScore {s0 s : State} (own : Nat) (r : Rpb) (fu : FuBank) (rows : List (List Score)) (hk : Keeps s0 s) :
    Keeps s0 (State.fuScore s own r fu rows) := by
  unfold State.fuScore
  split
  · exact keeps_fuCharge _ _ _ _ _ hk
  · exact keeps_fuCharge _ _ _ _ _ hk
  · exact hk

@[simp] theorem keeps_fuSeal {s0 s : State} (own : Nat) (r : Rpb) (fu : FuBank) (sels : List Sel) (hk : Keeps s0 s) :
    Keeps s0 (State.fuSeal s own r fu sels) := by
  unfold State.fuSeal
  split
  · exact keeps_fuCharge _ _ _ _ _ hk
  · exact hk

@[simp] theorem keeps_sealCount {s0 s : State} (own : Nat) (r : Rpb) (fu : FuBank) (sels : List Sel) (hk : Keeps s0 s) :
    Keeps s0 (State.sealCount s own r fu sels) := by
  unfold State.sealCount
  exact keeps_opCount _ _ _ (keeps_opCount _ _ _ (keeps_fuSeal _ _ _ _ hk))

@[simp] theorem keeps_sealPass {s0 s : State} (x : TapRun) (c : Cmd) (hk : Keeps s0 s) :
    Keeps s0 (State.sealPass s x c).2 := by
  unfold State.sealPass
  extract_lets sels row0 n y s1 s2
  have k_s1 : Keeps s0 s1 := keeps_freeRegionsOf _ _ hk
  have k_s2 : Keeps s0 s2 := keeps_placeBlocks _ _ k_s1
  split
  · exact k_s1
  · change Keeps s0 _
    split
    · exact keeps_tapStart _ _ _ k_s2
    · exact k_s2

@[simp] theorem keeps_routeBlock {s0 s : State} (x : TapRun) (c : Cmd) (b : Nat) (hk : Keeps s0 s) :
    Keeps s0 (State.routeBlock s x c b).2 := by
  unfold State.routeBlock
  extract_lets r v lo m row0 gs n got y s1
  have k_s1 : Keeps s0 s1 := keeps_sealCount _ _ _ _ (keeps_fuScore _ _ _ _ (keeps_opCount _ _ _ hk))
  exact keeps_freeBlock _ _ k_s1

@[simp] theorem keeps_routeBlocks {s0 s : State} (x : TapRun) (c : Cmd) (x3 : List Nat) (hk : Keeps s0 s) :
    Keeps s0 (State.routeBlocks s x c x3).2 := by
  fun_induction State.routeBlocks s x c x3
  next s x =>
    exact hk
  next s x b bs h ih1 =>
    exact ih1 hk
  next s x b bs reg h p t ih1 =>
    have k_p : Keeps s0 p.snd := by
      unfold p
      split
      · exact hk
      · exact keeps_placeBlocks _ _ hk
    have k_t : Keeps s0 t.snd := by
      unfold t
      split
      · exact keeps_routeBlock _ _ _ k_p
      · exact k_p
    exact ih1 k_t

@[simp] theorem keeps_routePasses {s0 s : State} (c : Cmd) (x2 : Nat) (x3 : TapRun) (hk : Keeps s0 s) :
    Keeps s0 (State.routePasses s c x2 x3).2 := by
  fun_induction State.routePasses s c x2 x3
  next s x =>
    exact hk
  next s k x h =>
    exact hk
  next s k x h p h1' =>
    have k_p : Keeps s0 p.snd := keeps_routeBlocks _ _ _ hk
    exact k_p
  next s k x h p h1' t ih1 =>
    have k_p : Keeps s0 p.snd := keeps_routeBlocks _ _ _ hk
    have k_t : Keeps s0 t.snd := keeps_sealPass _ _ k_p
    exact ih1 k_t

@[simp] theorem keeps_runRoute {s0 s : State} (own : Nat) (q : Nat) (c : Cmd) (hk : Keeps s0 s) :
    (runRoute s own q c).Keeps s0 := by
  unfold runRoute
  split
  · exact hk
  · extract_lets p s1 e
    have k_p : Keeps s0 p.snd := by
      unfold p
      split
      · exact keeps_routePasses _ _ _ hk
      · exact hk
    have k_s1 : Keeps s0 s1 := keeps_setRun _ k_p
    have k_e : Keeps s0 e.fst := by
      unfold e
      refine keeps_routeEnd _ _ _ _ _ _ ?_
      split
      · exact keeps_unhide _ _ k_s1
      · exact k_s1
    split
    · exact k_e
    · exact k_s1

@[simp] theorem keeps_startScore {s0 s : State} (q : Nat) (c : Cmd) (hk : Keeps s0 s) :
    (startScore s q c).Keeps s0 := by
  unfold startScore
  extract_lets own job t st old same r cols got c0 n f reg bs p0 s1 fuB
  have k_p0 : Keeps s0 p0.snd := keeps_placeBlocks _ _ hk
  have k_s1 : Keeps s0 s1 := keeps_placeBlocks _ _ k_p0
  split
  · exact trivial
  · exact trivial
  · split
    · exact trivial
    · split
      · exact trivial
      · exact trivial
      · cases old with
        | some j => exact keeps_updJob _ _ _ hk
        | none => exact StartRes.keeps_ite (fun _ => k_p0) (fun _ => keeps_setRbit _ _ _ (Keeps.upd k_s1))

@[simp] theorem keeps_runScore {s0 s : State} (own : Nat) (_q : Nat) (c : Cmd) (hk : Keeps s0 s) :
    (runScore s own _q c).Keeps s0 := by
  unfold runScore
  split
  · exact hk
  · extract_lets reg r todo p c0 n s1 v gs rows mine s2 rd
    have k_p : Keeps s0 p.snd := keeps_placeBlocks _ _ hk
    have k_s1 : Keeps s0 s1 := k_p
    have k_s2 : Keeps s0 s2 := keeps_charge _ _ (keeps_fuScore _ _ _ _ (keeps_opCount _ _ _ (keeps_updJob _ _ _ k_p)))
    split
    · exact k_p
    · split
      · exact k_p
      · exact keeps_chargeReads _ _ k_s2

@[simp] theorem keeps_startSeal {s0 s : State} (q : Nat) (c : Cmd) (hk : Keeps s0 s) :
    (startSeal s q c).Keeps s0 := by
  unfold startSeal
  extract_lets own
  split
  · exact keeps_jobGone _ _ _
  · extract_lets r gNeed srec f w
    cases f with
    | some f => exact trivial
    | none => exact keeps_updJob _ _ _ hk

@[simp] theorem keeps_runSeal {s0 s : State} (own : Nat) (_q : Nat) (c : Cmd) (hk : Keeps s0 s) :
    (runSeal s own _q c).Keeps s0 := by
  unfold runSeal
  split
  · exact hk
  · extract_lets r fu gs sels d1 d2 ix w s1
    have k_s1 : Keeps s0 s1 := keeps_sealCount _ _ _ _ (keeps_updJob _ _ _ (keeps_puts _ hk))
    split
    · exact hk
    · exact keeps_chargeReads _ _ (keeps_charge _ _ k_s1)

@[simp] theorem keeps_startAdmit {s0 s : State} (q : Nat) (c : Cmd) (hk : Keeps s0 s) :
    (startAdmit s q c).Keeps s0 := by
  unfold startAdmit
  extract_lets own src
  split
  · exact keeps_jobGone _ _ _
  · extract_lets r f m
    cases f with
    | some f => exact trivial
    | none => exact keeps_updJob _ _ _ hk

@[simp] theorem keeps_runAdmit {s0 s : State} (own : Nat) (_q : Nat) (c : Cmd) (hk : Keeps s0 s) :
    (runAdmit s own _q c).Keeps s0 := by
  unfold runAdmit
  split
  · exact hk
  · extract_lets r src d sels m bank ks s1
    have k_s1 : Keeps s0 s1 := keeps_updJob _ _ _ hk
    split
    · exact hk
    · split
      · exact hk
      · exact keeps_chargeReads _ _ (keeps_charge _ _ (keeps_acct _ _ _ (keeps_mapLookups _ _ _ _ k_s1)))

@[simp] theorem keeps_startSort {s0 s : State} (q : Nat) (c : Cmd) (hk : Keeps s0 s) :
    (startSort s q c).Keeps s0 := by
  unfold startSort
  extract_lets own
  split
  · exact keeps_jobGone _ _ _
  · extract_lets r w
    split
    · exact trivial
    · exact hk

@[simp] theorem keeps_runSort {s0 s : State} (own : Nat) (_q : Nat) (c : Cmd) (hk : Keeps s0 s) :
    (runSort s own _q c).Keeps s0 := by
  unfold runSort
  split
  · exact hk
  · extract_lets k
    have k_k : Keeps s0 k.fst := keeps_keystone _ _ _ _ _ _ _ _ _ _ hk
    exact keeps_charge _ _ k_k

@[simp] theorem keeps_refetch {s0 s : State} (c : Nat) (x2 : List MapLine) (hk : Keeps s0 s) :
    Keeps s0 (State.refetch s c x2) := by
  fun_induction State.refetch s c x2
  next s =>
    exact hk
  next s t ts h s1 s2 ih1 =>
    have k_s1 : Keeps s0 s1 := keeps_mapRead _ hk
    have k_s2 : Keeps s0 s2 := Keeps.upd k_s1
    exact ih1 k_s2
  next s t ts h ih1 =>
    exact ih1 hk

@[simp] theorem keeps_restoreTry {s0 s : State} (c : Nat) (hk : Keeps s0 s) :
    Keeps s0 (State.restoreTry s c) := by
  unfold State.restoreTry
  split
  · exact hk
  · extract_lets reg p x s1 s2
    have k_p : Keeps s0 p.snd := keeps_placeBlocks _ _ hk
    have k_x : Keeps s0 x := k_p
    have k_s1 : Keeps s0 s1 := Keeps.upd k_p
    have k_s2 : Keeps s0 s2 := by
      unfold s2
      split
      · exact k_s1
      · exact keeps_setRbit _ _ _ k_s1
    split
    · exact k_p
    · exact keeps_setRbit _ _ _ (keeps_setRbit _ _ _ (keeps_refetch _ _ (keeps_setRbit _ _ _ k_s2)))

@[simp] theorem keeps_restoreWaits {s0 s : State} (c : Nat) (hk : Keeps s0 s) :
    Keeps s0 (State.restoreWaits s c) := by
  unfold State.restoreWaits
  split
  · exact keeps_restoreTry _ hk
  · exact hk

end Sys2Proof.Machine
end

