-- ==== Sys2Proof/Laws/KeepsQueues.lean ====
section
/-! SUPPORT. What Keeps says (pending, part, free numbers, canonical stores) holds of the steps of a command in its queue: decode, start, commit, kill; and a reset: one lemma per
function on states, citing the lemmas of the functions it calls. -/
namespace Sys2Proof.Machine

-- Fetch.lean

@[simp] theorem keeps_doorbell {s0 s : State} (w : Nat) (q : Nat) (v : Nat) (hk : Keeps s0 s) :
    Keeps s0 (State.doorbell s w q v) := by
  unfold State.doorbell
  split
  · exact keeps_ctxCount _ _ _ hk
  · split
    · exact keeps_setRbit _ _ _ hk
    · extract_lets tail head
      split
      · exact keeps_pollOwner _ (keeps_arrayWrite _ (keeps_setReg _ _ hk))
      · exact keeps_setRbit _ _ _ hk

@[simp] theorem keeps_decodeNext {s0 s : State} (q : Nat) (hk : Keeps s0 s) :
    Keeps s0 (State.decodeNext s q) := by
  unfold State.decodeNext
  split
  · exact hk
  · extract_lets s01' x
    have k_s01' : Keeps s0 s01' := Keeps.upd hk
    split
    · extract_lets s1
      have k_s1 : Keeps s0 s1 := keeps_arrayWrite _ (keeps_descFills _ _ (keeps_setQueue _ _ k_s01'))
      refine keeps_energy _ _ _ ?_
      refine keeps_chargeFills _ _ ?_
      refine keeps_chargeReads _ _ ?_
      split
      · exact k_s1
      · exact keeps_arrayWrite _ k_s1
    · exact keeps_fault _ _ _ _ (keeps_setQueue _ _ k_s01')
    · exact hk

@[simp] theorem keeps_startOp {s0 s : State} (q : Nat) (c : Cmd) (hk : Keeps s0 s) :
    (State.startOp s q c).Keeps s0 := by
  unfold State.startOp
  split
  · exact keeps_startFence _ _ hk
  · exact keeps_startSkipIf _ _ hk
  · exact keeps_startBarrier _ _ hk
  · exact keeps_startTrigger _ _ hk
  · exact keeps_startRoute _ _ hk
  · exact keeps_startScore _ _ hk
  · exact keeps_startSeal _ _ hk
  · exact keeps_startAdmit _ _ hk
  · exact keeps_startSort _ _ hk
  · exact keeps_startCount _ _ hk
  · exact keeps_startDispatch _ _ hk
  · exact keeps_startReturn _ _ hk
  · exact keeps_startDrain _ _ hk
  · exact keeps_startGroup _ _ hk
  · exact keeps_startFeed _ _ hk
  · exact keeps_startCombine _ _ hk
  · exact keeps_startCopy _ _ hk
  · exact keeps_startIndexed _ _ hk
  · exact keeps_startIndexed _ _ hk
  · exact keeps_startIndexed _ _ hk
  · exact keeps_startIndexed _ _ hk
  · exact keeps_startRing _ _ hk
  · exact keeps_startRing _ _ hk
  · exact keeps_startRing _ _ hk
  · exact keeps_startRing _ _ hk
  · exact keeps_startCamberAccum _ _ hk
  · exact keeps_startCamberUpdate _ _ hk
  · exact keeps_startLedgerAdmit _ _ hk
  · exact keeps_startLedgerStep _ _ hk
  · exact keeps_startLedgerRetire _ _ hk
  · exact keeps_startDescCreate _ _ hk
  · exact keeps_startDescRetire _ _ hk
  · exact keeps_startMapLoad _ _ hk
  · exact keeps_startPublish _ _ hk
  · exact keeps_startFuLoad _ _ hk
  · exact keeps_startFuApply _ _ hk
  · exact keeps_startPoolConfig _ _ hk
  · exact keeps_startDigestBegin _ _ hk
  · exact keeps_startDigestEnd _ _ hk
  · exact hk

@[simp] theorem keeps_hideAtStart {s0 s : State} (own : Nat) (q : Nat) (c : Cmd) (hk : Keeps s0 s) :
    Keeps s0 (State.hideAtStart s own q c) := by
  unfold State.hideAtStart
  split
  · exact hk
  · extract_lets t
    have k_t : Keeps s0 t := keeps_scramble _ hk
    split
    · exact keeps_updCmd _ _ _ k_t
    · split
      · exact keeps_updCmd _ _ _ k_t
      · exact k_t

@[simp] theorem keeps_startGo {s0 s : State} (q : Nat) (c : Cmd) (c1 : Cmd) (hk : Keeps s0 s) :
    Keeps s0 (State.startGo s q c c1) := by
  unfold State.startGo
  extract_lets own c2 s2 s3 s4 s5
  have k_s2 : Keeps s0 s2 := keeps_updCmd _ _ _ (keeps_descFills _ _ (keeps_meetOthers _ _ _ hk))
  have k_s3 : Keeps s0 s3 := by
    unfold s3
    split
    · exact keeps_setQueue _ _ k_s2
    · exact k_s2
  have k_s4 : Keeps s0 s4 := keeps_hideAtStart _ _ _ k_s3
  have k_s5 : Keeps s0 s5 := by
    unfold s5
    split
    · exact keeps_arrayWrite _ k_s4
    · exact k_s4
  exact keeps_trace _ _ _ _ k_s5

@[simp] theorem keeps_named {s0 s : State} (q : Nat) (c : Cmd) (hk : Keeps s0 s) :
    Keeps s0 (State.named s q c) := by
  unfold State.named
  split
  · split
    · exact hk
    · exact keeps_nameGen _ _ hk
  · exact hk

@[simp] theorem keeps_namedBad {s0 s : State} (q : Nat) (c : Cmd) (hk : Keeps s0 s) :
    Keeps s0 (State.namedBad s q c) := by
  unfold State.namedBad
  extract_lets i
  split
  · exact keeps_named _ _ hk
  · exact hk

@[simp] theorem keeps_startNow {s0 s : State} (q : Nat) (c : Cmd) (hk : Keeps s0 s) :
    Keeps s0 (State.startNow s q c) := by
  unfold State.startNow
  have g := keeps_startOp q c hk
  revert g
  cases s.startOp q c with
  | wait => exact fun _ => hk
  | hold t => exact id
  | flt f => exact fun _ => keeps_fault _ _ _ _ (keeps_named _ _ hk)
  | fltS t f => exact fun g => keeps_fault _ _ _ _ (keeps_named _ _ g)
  | go s1 c1 =>
    intro g
    dsimp only
    split
    · exact keeps_fault _ _ _ _ (keeps_named _ _ hk)
    · exact keeps_startGo _ _ _ (keeps_named _ _ g)

@[simp] theorem keeps_startNext {s0 s : State} (q : Nat) (hk : Keeps s0 s) :
    Keeps s0 (State.startNext s q) := by
  unfold State.startNext
  split
  · exact hk
  · extract_lets x s1 x1'
    have k_x : Keeps s0 x := keeps_updCmd _ _ _ hk
    have k_s1 : Keeps s0 s1 := by
      unfold s1
      split
      · exact hk
      · exact keeps_waitRecs _ _ _ (Keeps.upd k_x)
    split
    · exact keeps_fault _ _ _ _ (keeps_namedBad _ _ k_s1)
    · split
      · exact keeps_fault _ _ _ _ (keeps_named _ _ k_s1)
      · split
        · exact k_s1
        · exact keeps_startNow _ _ k_s1

-- Commit.lean

@[simp] theorem keeps_freezeRets {s0 s : State} (own : Nat) (gen : Nat) (xid : Nat) (hk : Keeps s0 s) :
    Keeps s0 (State.freezeRets s own gen xid) := by
  unfold State.freezeRets
  exact keeps_updRet _ _ _ _ hk

@[simp] theorem keeps_endJob {s0 s : State} (own : Nat) (job : Nat) (hk : Keeps s0 s) :
    Keeps s0 (State.endJob s own job) := by
  unfold State.endJob
  exact Keeps.upd hk

@[simp] theorem keeps_bayFreed {s0 s : State} (own : Nat) (lslot : Nat) (hk : Keeps s0 s) :
    Keeps s0 (State.bayFreed s own lslot) := by
  unfold State.bayFreed
  extract_lets b s1
  have k_s1 : Keeps s0 s1 := keeps_wr32 _ _ hk
  exact Keeps.upd k_s1

@[simp] theorem keeps_applyAct {s0 s : State} (own : Nat) (q : Nat) (c : Cmd) (x4 : Act) (hk : Keeps s0 s) :
    Keeps s0 (State.applyAct s own q c x4) := by
  unfold State.applyAct
  split
  · exact keeps_lay _ _ _ _ hk
  · exact keeps_wr _ _ hk
  · exact keeps_descSynced _ _ _ hk
  · split
    · exact hk
    · exact keeps_ctxCount _ _ _ hk
  · split
    · exact hk
    · exact keeps_stick _ _ _ hk
  · exact keeps_acct _ _ _ hk
  · exact keeps_updJob _ _ _ hk
  · exact keeps_updJob _ _ _ hk
  · exact keeps_endJob _ _ hk
  · exact keeps_setMapStat _ _ _ hk
  · exact Keeps.upd hk
  · exact keeps_setRbit _ _ _ hk
  · exact Keeps.upd hk
  · exact keeps_dropRefsIf _ _ (keeps_freezeRets _ _ _ hk)
  · extract_lets s1
    have k_s1 : Keeps s0 s1 := keeps_dropRefsIf _ _ hk
    exact Keeps.upd k_s1
  · exact keeps_dropRefsIf _ _ hk
  · exact keeps_bayFreed _ _ hk
  · exact keeps_updExch _ _ _ _ hk
  · exact Keeps.foldl (fun t a kt => keeps_ringFree _ _ kt) _ hk
  · exact Keeps.upd hk
  · extract_lets s1
    have k_s1 : Keeps s0 s1 := Keeps.foldl (fun t a kt => keeps_feedMsg _ kt) _ hk
    exact Keeps.upd k_s1
  · exact keeps_setFree _ _ (keeps_setRegs _ _ hk)
  · extract_lets d
    exact Keeps.upd hk
  · exact Keeps.upd hk
  · exact keeps_publishAct _ _ _ _ _ _ hk
  · exact keeps_camberAddAct _ _ _ hk
  · exact keeps_raiseTrigger _ _ _ hk
  · exact keeps_markAct _ _ _ _ _ hk

@[simp] theorem keeps_applyActs {s0 s : State} (own : Nat) (q : Nat) (c : Cmd) (x4 : List Act) (hk : Keeps s0 s) :
    Keeps s0 (State.applyActs s own q c x4) := by
  fun_induction State.applyActs s own q c x4
  next s =>
    exact hk
  next s a l ih1 =>
    exact ih1 (keeps_applyAct _ _ _ _ hk)

@[simp] theorem keeps_applyRecs {s0 s : State} (d : Desc) (x2 : List RecUpd) (hk : Keeps s0 s) :
    Keeps s0 (State.applyRecs s d x2) := by
  fun_induction State.applyRecs s d x2
  next s =>
    exact hk
  next s u us o w0 ih1 =>
    exact ih1 (keeps_strWr32 _ _ _ (keeps_strWr32 _ _ _ hk))

@[simp] theorem keeps_commitMarkers {s0 s : State} (own : Nat) (c : Cmd) (hk : Keeps s0 s) :
    Keeps s0 (State.commitMarkers s own c) := by
  unfold State.commitMarkers
  split
  · exact hk
  · split
    · extract_lets b
      exact keeps_markers _ _ _ _ _ _ hk
    · split
      · extract_lets b
        exact keeps_markers _ _ _ _ _ _ hk
      · exact hk

@[simp] theorem keeps_commitSignals {s0 s : State} (own : Nat) (q : Nat) (c : Cmd) (hk : Keeps s0 s) :
    Keeps s0 (State.commitSignals s own q c) := by
  unfold State.commitSignals
  extract_lets one s1 s2
  have hone : ∀ t a b, Keeps s0 t → Keeps s0 (one t a b) := fun t a b ht => keeps_signalOp _ _ _ _ _ _ ht
  have k_s1 : Keeps s0 s1 := hone _ _ _ hk
  have k_s2 : Keeps s0 s2 := by
    unfold s2
    split
    · exact hone _ _ _ (hone _ _ _ (hone _ _ _ k_s1))
    · exact k_s1
  exact keeps_ctrChanged _ k_s2

@[simp] theorem keeps_commitEvent {s0 s : State} (own : Nat) (q : Nat) (c : Cmd) (hk : Keeps s0 s) :
    Keeps s0 (State.commitEvent s own q c) := by
  unfold State.commitEvent
  split
  · exact keeps_post _ _ hk
  · exact hk

@[simp] theorem keeps_commitCheap {s0 s : State} (own : Nat) (c : Cmd) (hk : Keeps s0 s) :
    Keeps s0 (State.commitCheap s own c) := by
  unfold State.commitCheap
  split
  · exact hk
  · split
    · exact keeps_ctxCount _ _ _ hk
    · split
      · exact keeps_setRbit _ _ _ hk
      · exact hk

@[simp] theorem keeps_digestItem {s0 s : State} (own : Nat) (q : Nat) (c : Cmd) (hk : Keeps s0 s) :
    Keeps s0 (State.digestItem s own q c) := by
  unfold State.digestItem
  exact Keeps.upd hk

@[simp] theorem keeps_headPast {s0 s : State} (q : Nat) (c : Cmd) (hk : Keeps s0 s) :
    Keeps s0 (State.headPast s q c) := by
  unfold State.headPast
  extract_lets x h y
  exact keeps_setReg _ _ (keeps_setQueue _ _ hk)

@[simp] theorem keeps_commitRan {s0 s : State} (own : Nat) (q : Nat) (c : Cmd) (hk : Keeps s0 s) :
    Keeps s0 (State.commitRan s own q c) := by
  unfold State.commitRan
  split
  · exact keeps_fault _ _ _ _ hk
  · extract_lets s1 s1b s2 s3
    have k_s1 : Keeps s0 s1 := keeps_applyActs _ _ _ _ (keeps_applyRecs _ _ (keeps_digestItem _ _ _ hk))
    have k_s1b : Keeps s0 s1b := Keeps.upd k_s1
    have k_s2 : Keeps s0 s2 := keeps_commitCheap _ _ (keeps_freeRegionsOf _ _ k_s1b)
    have k_s3 : Keeps s0 s3 := keeps_commitEvent _ _ _ (keeps_commitSignals _ _ _ (keeps_commitMarkers _ _ k_s2))
    exact keeps_headPast _ _ (keeps_trace _ _ _ _ (keeps_opCount _ _ _ k_s3))

@[simp] theorem keeps_commitSkipped {s0 s : State} (own : Nat) (q : Nat) (c : Cmd) (hk : Keeps s0 s) :
    Keeps s0 (State.commitSkipped s own q c) := by
  unfold State.commitSkipped
  extract_lets s01' dead s1
  have k_s01' : Keeps s0 s01' := keeps_digestItem _ _ _ hk
  have k_s1 : Keeps s0 s1 := by
    unfold s1
    split
    · exact keeps_commitEvent _ _ _ (keeps_commitSignals _ _ _ (keeps_commitMarkers _ _ k_s01'))
    · exact k_s01'
  exact keeps_headPast _ _ (keeps_trace _ _ _ _ (keeps_opCount _ _ _ k_s1))

@[simp] theorem keeps_commitNext {s0 s : State} (q : Nat) (hk : Keeps s0 s) :
    Keeps s0 (State.commitNext s q) := by
  unfold State.commitNext
  split
  · exact hk
  · extract_lets own
    split
    · exact hk
    · split
      · exact keeps_commitSkipped _ _ _ hk
      · split
        · exact keeps_commitRan _ _ _ hk
        · exact hk

-- Kill.lean

@[simp] theorem keeps_withdraw {s0 s : State} (q : Nat) (idx : U32) (hk : Keeps s0 s) :
    Keeps s0 (State.withdraw s q idx).2 := by
  unfold State.withdraw
  extract_lets mine
  exact Keeps.upd hk

@[simp] theorem keeps_killDispatch {s0 s : State} (q : Nat) (c : Cmd) (hk : Keeps s0 s) :
    Keeps s0 (State.killDispatch s q c) := by
  unfold State.killDispatch
  extract_lets own w data resv ds s1 x
  have k_w : Keeps s0 w.snd := keeps_withdraw _ _ hk
  have k_s1 : Keeps s0 s1 := keeps_txPump (keeps_updExch _ _ _ _ k_w)
  split
  · split
    · exact k_s1
    · exact keeps_setQueue _ _ k_s1
  · exact k_s1

@[simp] theorem keeps_killReturn {s0 s : State} (q : Nat) (c : Cmd) (hk : Keeps s0 s) :
    Keeps s0 (State.killReturn s q c) := by
  unfold State.killReturn
  extract_lets w
  have k_w : Keeps s0 w.snd := keeps_withdraw _ _ hk
  exact keeps_txPump (keeps_updRet _ _ _ _ k_w)

@[simp] theorem keeps_killCmd {s0 s : State} (q : Nat) (c : Cmd) (hk : Keeps s0 s) :
    Keeps s0 (State.killCmd s q c) := by
  unfold State.killCmd
  extract_lets own s01' s1 s2
  have k_s01' : Keeps s0 s01' := keeps_scramble _ (keeps_chargeKilled _ (keeps_opCount _ _ _ (keeps_trace _ _ _ _ hk)))
  have k_s1 : Keeps s0 s1 := keeps_freeRegionsOf _ _ (keeps_tapStop _ _ k_s01')
  have k_s2 : Keeps s0 s2 := Keeps.foldl (fun t a kt => keeps_feedAbort _ _ kt) _ k_s1
  split
  · exact keeps_updJob _ _ _ k_s2
  · exact keeps_updJob _ _ _ k_s2
  · exact keeps_updJob _ _ _ k_s2
  · exact keeps_killDispatch _ _ k_s2
  · exact keeps_killReturn _ _ k_s2
  · exact k_s2

@[simp] theorem keeps_kill {s0 s : State} (q : Nat) (hk : Keeps s0 s) :
    Keeps s0 (State.kill s q) := by
  unfold State.kill
  extract_lets x sv dead ks y s1
  have k_s1 : Keeps s0 s1 := keeps_setRbit _ _ _ (keeps_setQueue _ _ hk)
  split
  · exact hk
  · exact Keeps.foldl (fun t a kt => keeps_killCmd _ _ kt) _ k_s1

@[simp] theorem keeps_killDone {s0 s : State} (q : Nat) (hk : Keeps s0 s) :
    Keeps s0 (State.killDone s q) := by
  unfold State.killDone
  extract_lets x h y
  split
  · exact keeps_setRbit _ _ _ (keeps_setQueue _ _ hk)
  · exact hk

@[simp] theorem keeps_enableQueue {s0 s : State} (q : Nat) (hold : Bool) (hk : Keeps s0 s) :
    Keeps s0 (State.enableQueue s q hold) := by
  unfold State.enableQueue
  extract_lets n own s1 st
  have k_s1 : Keeps s0 s1 := keeps_setReg _ _ (keeps_setReg _ _ (keeps_setRbit _ _ _ (keeps_latch _ hk)))
  split
  · exact keeps_setQueue _ _ (keeps_setReg _ _ (keeps_setReg _ _ k_s1))
  · exact keeps_setRbit _ _ _ hk

@[simp] theorem keeps_disableQueue {s0 s : State} (q : Nat) (hk : Keeps s0 s) :
    Keeps s0 (State.disableQueue s q) := by
  unfold State.disableQueue
  split
  · exact hk
  · exact keeps_setQueue _ _ (keeps_setRf _ _ _ _ (keeps_setRbit _ _ _ (keeps_dropKept _ hk)))

@[simp] theorem keeps_writeKqCtl {s0 s : State} (q : Nat) (w : Nat) (hk : Keeps s0 s) :
    Keeps s0 (State.writeKqCtl s q w) := by
  unfold State.writeKqCtl
  extract_lets hold s1 en s2 s3
  have k_s1 : Keeps s0 s1 := keeps_setRbit _ _ _ hk
  have k_s2 : Keeps s0 s2 := by
    unfold s2
    split
    · split
      · exact k_s1
      · exact keeps_setRf _ _ _ _ k_s1
    · exact k_s1
  have k_s3 : Keeps s0 s3 := by
    unfold s3
    split
    · exact keeps_enableQueue _ _ k_s2
    · split
      · exact keeps_disableQueue _ k_s2
      · exact k_s2
  split
  · exact keeps_kill _ k_s3
  · exact k_s3

-- Reset.lean

@[simp] theorem keeps_resetStraps {s0 s : State} (l : Level) (hk : Keeps s0 s) :
    Keeps s0 (State.resetStraps s l) := by
  unfold State.resetStraps
  extract_lets st s1 s2 s3 s4
  have k_s1 : Keeps s0 s1 := keeps_setRbit _ _ _ (keeps_setRf _ _ _ _ (keeps_setRf _ _ _ _ hk))
  have k_s2 : Keeps s0 s2 := by
    unfold s2
    split
    · exact k_s1
    · exact keeps_setRf _ _ _ _ k_s1
  have k_s3 : Keeps s0 s3 := by
    unfold s3
    split
    · exact keeps_setRbit _ _ _ k_s2
    · exact k_s2
  have k_s4 : Keeps s0 s4 := by
    unfold s4
    refine keeps_setRf _ _ _ _ ?_
    split
    · exact keeps_setRbit _ _ _ k_s3
    · exact k_s3
  split
  · exact k_s4
  · exact keeps_setRbit _ _ _ k_s4

theorem resetRegs_wf (s : State) (l : Level) : FMap.wf 0 (s.resetRegs l) = true := by
  have h : ∀ {α : Type} (xs : List α) (k : α → Nat) (v : α → U32) (m : List (Nat × U32)), FMap.wf 0 m = true →
      FMap.wf 0 (xs.foldl (fun m p => FMap.set 0 m (k p) (v p)) m) = true := by
    intro α xs k v
    induction xs with
    | nil => exact fun m hm => hm
    | cons x xs ih => exact fun m hm => ih _ (FMap.wf_set _ _ _ _ hm)
  exact h _ _ _ _ (h _ _ _ _ rfl)

@[simp] theorem keeps_clearReset {s0 s : State} (l : Level) (hk : Keeps s0 s) :
    Keeps s0 (State.clearReset s l) := by
  have k0 : Keeps s0 (s.scramble (s.started.flatMap (fun x => x.2.wrote) ++ s.landings.flatMap (fun x => x.spans))) :=
    keeps_scramble _ hk
  unfold State.clearReset
  extract_lets outs t0 po core x1 x2 x3 s1 s2 s3
  have k_s1 : Keeps s0 s1 := by
    refine ⟨k0.pending, k0.part, k0.free, k0.mem, fun _ => resetRegs_wf _ _, fun g => ?_⟩
    unfold s1
    show FMap.wf 0 (if po then [] else t0.cnt48) = true
    split
    · rfl
    · exact k0.cnt g
  have k_s2 : Keeps s0 s2 := keeps_resetStraps _ k_s1
  have k_s3 : Keeps s0 s3 := Keeps.foldl (fun t a kt => keeps_setRbit _ _ _ kt) _ k_s2
  split
  · exact Keeps.foldl (fun t a kt => keeps_setReg _ _ kt) _ k_s3
  · exact k_s3

@[simp] theorem keeps_isoDone {s0 s : State} (hk : Keeps s0 s) :
    Keeps s0 (State.isoDone s) := by
  unfold State.isoDone
  split
  · split
    · exact keeps_clearReset _ hk
    · exact hk
  · exact hk

@[simp] theorem keeps_isoTag {s0 s : State} (hk : Keeps s0 s) :
    Keeps s0 (State.isoTag s) := by
  unfold State.isoTag
  split
  · exact keeps_isoDone (Keeps.take hk)
  · exact hk

@[simp] theorem keeps_loseNew {s0 s : State} (x1 : List (Nat × List (Nat × List Byte))) (hk : Keeps s0 s) :
    Keeps s0 (State.loseNew s x1).2 := by
  fun_induction State.loseNew s x1
  next s =>
    exact hk
  next s e old l h ih1 =>
    exact ih1 hk
  next s e old l h s1 h1' ih1 =>
    have k_s1 : Keeps s0 s1 := Keeps.take hk
    exact ih1 k_s1
  next s e old l h s1 h1' r ih1 =>
    have k_s1 : Keeps s0 s1 := Keeps.take hk
    have k_r : Keeps s0 r.snd := ih1 (Keeps.foldl (fun t a kt => keeps_wr _ _ kt) _ k_s1)
    exact k_r

@[simp] theorem keeps_takeReset {s0 s : State} (l : Level) (st : Straps) (hk : Keeps s0 s) :
    Keeps s0 (State.takeReset s l st) := by
  unfold State.takeReset
  split
  · exact hk
  · extract_lets lost s1 fresh x1 x2 s2
    have k_s1 : Keeps s0 s1 := Keeps.foldl (fun t a kt => keeps_feedAbort _ _ kt) _ (keeps_loseNew _ hk)
    have k_s2 : Keeps s0 s2 := by
      refine Keeps.takeTo ?_ k_s1
      split
      · exact Nat.le_succ _
      · exact Nat.le_refl _
    exact keeps_isoDone k_s2

end Sys2Proof.Machine
end

