-- ==== Sys2Proof/Laws/KeepsPorts.lean ====
section
/-! SUPPORT. What Keeps says (pending, part, free numbers, canonical stores) holds of what arrives on the Piers, the Tap, the Feed and the memory ports: one lemma per
function on states, citing the lemmas of the functions it calls. -/
namespace Sys2Proof.Machine

-- Ports.lean

@[simp] theorem keeps_tapBreach {s0 s : State} (m : TapMsg) (hk : Keeps s0 s) :
    Keeps s0 (State.tapBreach s m) := by
  unfold State.tapBreach
  exact keeps_setRbit _ _ _ hk

@[simp] theorem keeps_tapDrop {s0 s : State} (m : TapMsg) (hk : Keeps s0 s) :
    Keeps s0 (State.tapDrop s m) := by
  unfold State.tapDrop
  exact keeps_sysCount _ (keeps_tapBreach _ hk)

@[simp] theorem keeps_tapHello {s0 s : State} (m : TapMsg) (hk : Keeps s0 s) :
    Keeps s0 (State.tapHello s m) := by
  unfold State.tapHello
  split
  · exact keeps_tapBreach _ hk
  · extract_lets v s1 x
    have k_s1 : Keeps s0 s1 := keeps_setRbit _ _ _ (keeps_setRf _ _ _ _ hk)
    split
    · exact Keeps.upd k_s1
    · exact k_s1

@[simp] theorem keeps_tapSeal {s0 s : State} (m : TapMsg) (x : TapRun) (c : Cmd) (hk : Keeps s0 s) :
    Keeps s0 (State.tapSeal s m x c) := by
  unfold State.tapSeal
  extract_lets r n v s1 s2 p
  have k_s1 : Keeps s0 s1 := keeps_sealCount _ _ _ _ hk
  have k_s2 : Keeps s0 s2 := Keeps.foldl (fun t a kt => keeps_freeBlock _ _ kt) _ k_s1
  have k_p : Keeps s0 p.snd := keeps_sealPass _ _ k_s2
  split
  · exact keeps_setRun _ hk
  · split
    · exact keeps_setRun _ k_s2
    · exact keeps_setRun _ k_p

@[simp] theorem keeps_tapScores {s0 s : State} (m : TapMsg) (x : TapRun) (c : Cmd) (hk : Keeps s0 s) :
    Keeps s0 (State.tapScores s m x c) := by
  unfold State.tapScores
  extract_lets r v lo gs got rows sf d s1 s2
  have k_s1 : Keeps s0 s1 := by
    unfold s1
    split
    · exact keeps_opCount _ _ _ (Keeps.foldl (fun t a kt => keeps_putOwn _ _ _ kt) _ hk)
    · exact hk
  have k_s2 : Keeps s0 s2 := keeps_acct _ _ _ (keeps_opCount _ _ _ (keeps_opCount _ _ _ k_s1))
  exact keeps_tapSeal _ _ _ (keeps_arrayWrite _ (keeps_charge _ _ (keeps_fuScore _ _ _ _ k_s2)))

@[simp] theorem keeps_tapFault {s0 s : State} (x : TapRun) (hk : Keeps s0 s) :
    Keeps s0 (State.tapFault s x) := by
  unfold State.tapFault
  exact keeps_fault _ _ _ _ hk

@[simp] theorem keeps_tapTake {s0 s : State} (m : TapMsg) (x : TapRun) (c : Cmd) (hk : Keeps s0 s) :
    Keeps s0 (State.tapTake s m x c) := by
  unfold State.tapTake
  extract_lets r lo inPass later cols ok reg p
  have k_p : Keeps s0 p.snd := keeps_placeBlocks _ _ hk
  split
  · exact hk
  · split
    · exact keeps_tapFault _ (keeps_tapBreach _ hk)
    · split
      · exact keeps_tapScores _ _ _ k_p
      · exact k_p

@[simp] theorem keeps_tapTile {s0 s : State} (m : TapMsg) (hk : Keeps s0 s) :
    Keeps s0 (State.tapTile s m) := by
  unfold State.tapTile
  split
  · exact hk
  · split
    · exact keeps_tapTake _ _ _ hk
    · split
      · exact hk
      · exact keeps_tapDrop _ hk

@[simp] theorem keeps_tapStopped {s0 s : State} (m : TapMsg) (hk : Keeps s0 s) :
    Keeps s0 (State.tapStopped s m) := by
  unfold State.tapStopped
  split
  · exact Keeps.upd hk
  · split
    · split
      · exact keeps_tapDrop _ hk
      · exact keeps_tapFault _ hk
    · exact keeps_tapDrop _ hk

@[simp] theorem keeps_tapBroken {s0 s : State} (m : TapMsg) (hk : Keeps s0 s) :
    Keeps s0 (State.tapBroken s m) := by
  unfold State.tapBroken
  split
  · exact keeps_tapBreach _ hk
  · split
    · exact keeps_tapFault _ (keeps_tapBreach _ hk)
    · exact keeps_tapDrop _ hk

@[simp] theorem keeps_tapMsg {s0 s : State} (m : TapMsg) (hk : Keeps s0 s) :
    Keeps s0 (State.tapMsg s m) := by
  unfold State.tapMsg
  split
  · split
    · exact keeps_tapHello _ hk
    · split
      · exact hk
      · exact keeps_tapDrop _ hk
  · split
    · exact keeps_tapBroken _ hk
    · split
      · exact hk
      · exact keeps_tapDrop _ hk
      · exact keeps_tapTile _ hk
      · exact keeps_tapStopped _ hk

@[simp] theorem keeps_feedBreach {s0 s : State} (r : FeedResp) (hk : Keeps s0 s) :
    Keeps s0 (State.feedBreach s r) := by
  unfold State.feedBreach
  extract_lets s1
  have k_s1 : Keeps s0 s1 := keeps_sysCount _ (keeps_setRbit _ _ _ hk)
  split
  · exact k_s1
  · split
    · split
      · exact keeps_fault _ _ _ _ k_s1
      · exact k_s1
    · exact k_s1

@[simp] theorem keeps_feedDone {s0 s : State} (r : FeedResp) (hk : Keeps s0 s) :
    Keeps s0 (State.feedDone s r) := by
  unfold State.feedDone
  split
  · exact keeps_feedBreach _ hk
  · split
    · exact keeps_feedBreach _ hk
    · extract_lets x s1 s2
      have k_s1 : Keeps s0 s1 := keeps_updFeed _ _ hk
      have k_s2 : Keeps s0 s2 := keeps_strWr32 _ _ _ k_s1
      split
      · exact keeps_feedBreach _ hk
      · exact keeps_feedCheck _ k_s2

@[simp] theorem keeps_feedEnd {s0 s : State} (f : Feed) (hk : Keeps s0 s) :
    Keeps s0 (State.feedEnd s f) := by
  unfold State.feedEnd
  extract_lets s1 s2 s3 s4 r
  have k_s1 : Keeps s0 s1 := keeps_updFeed _ _ hk
  have k_s2 : Keeps s0 s2 := Keeps.upd k_s1
  have k_s3 : Keeps s0 s3 := by
    unfold s3
    split
    · split
      · exact keeps_updCmd _ _ _ k_s2
      · exact k_s2
    · exact k_s2
  have k_s4 : Keeps s0 s4 := keeps_releaseBays _ k_s3
  have k_r : Keeps s0 r.snd := keeps_dropRefsIf _ _ k_s4
  split
  · exact k_s1
  · split
    · exact k_s3
    · split
      · exact keeps_teardown _ _ k_r
      · exact k_r

@[simp] theorem keeps_faultFeeds {s0 s : State} (x1 : List (Nat × Cmd)) (hk : Keeps s0 s) :
    Keeps s0 (State.faultFeeds s x1) := by
  fun_induction State.faultFeeds s x1
  next s =>
    exact hk
  next s q c l s1 ih1 =>
    have k_s1 : Keeps s0 s1 := by
      unfold s1
      split
      · split
        · exact keeps_fault _ _ _ _ hk
        · exact hk
      · exact hk
    exact ih1 k_s1

-- Rx.lean

@[simp] theorem keeps_versionFaults {s0 s : State} (d : Nat) (x2 : List (Nat × U32)) (hk : Keeps s0 s) :
    Keeps s0 (State.versionFaults s d x2) := by
  fun_induction State.versionFaults s d x2
  next s =>
    exact hk
  next s q i l s1 ih1 =>
    have k_s1 : Keeps s0 s1 := by
      unfold s1
      split
      · exact hk
      · extract_lets own x f cu gid g att
        split
        · exact keeps_fault _ _ _ _ (keeps_ringReport _ _ _ _ _ _ _ _ _ hk)
        · exact keeps_fault _ _ _ _ hk
    exact ih1 k_s1

@[simp] theorem keeps_knownDp1 {s0 s : State} (d : Nat) (hk : Keeps s0 s) :
    Keeps s0 (State.knownDp1 s d) := by
  unfold State.knownDp1
  extract_lets ids bad
  exact keeps_peerKnown _ _ (keeps_versionFaults _ _ hk)

@[simp] theorem keeps_dp1Seen {s0 s : State} (f : Frame) (hk : Keeps s0 s) :
    Keeps s0 (State.dp1Seen s f) := by
  unfold State.dp1Seen
  split
  · exact keeps_knownDp1 _ hk
  · exact hk

@[simp] theorem keeps_chargeIn {s0 s : State} (own : Nat) (f : Frame) (hk : Keeps s0 s) :
    Keeps s0 (State.chargeIn s own f) := by
  unfold State.chargeIn
  exact keeps_arrayWrite _ (keeps_energy _ _ _ (keeps_acct _ _ _ hk))

@[simp] theorem keeps_refuse {s0 s : State} (f : Frame) (reason : Nat) (hk : Keeps s0 s) :
    Keeps s0 (State.refuse s f reason) := by
  unfold State.refuse
  split
  · exact keeps_nack _ _ hk
  · exact hk

@[simp] theorem keeps_gate14 {s0 s : State} (f : Frame) (hk : Keeps s0 s) :
    ∀ t, State.gate14 s f = some t → Keeps s0 t := by
  intro t ht
  have k0 : Keeps s0 (s.chargeIn 16 f) := keeps_chargeIn _ _ hk
  unfold State.gate14 at ht
  dsimp only at ht
  split at ht
  · cases ht; exact keeps_sysCount _ k0
  · split at ht
    · cases ht
      split
      · exact keeps_sysCount _ k0
      · exact keeps_answer _ _ (keeps_sysCount _ k0)
    · split at ht
      · cases ht; exact keeps_refuse _ _ (keeps_sysCount _ k0)
      · split at ht
        · cases ht; exact keeps_refuse _ _ (keeps_stick _ _ _ (keeps_ctxCount _ _ _ k0))
        · exact nomatch ht

@[simp] theorem keeps_gate5 {s0 s : State} (f : Frame) (hk : Keeps s0 s) :
    ∀ t, State.gate5 s f = some t → Keeps s0 t := by
  intro t ht
  unfold State.gate5 at ht
  dsimp only at ht
  split at ht
  · exact nomatch ht
  · cases ht; exact keeps_nack _ _ (keeps_ctxCount _ _ _ hk)
  · split at ht <;> cases ht
    · exact keeps_reply _ _ _ _ _ _ (keeps_ctxCount _ _ _ hk)
    · exact keeps_ackDup _ (keeps_ctxCount _ _ _ hk)

@[simp] theorem keeps_gate6 {s0 s : State} (f : Frame) (hk : Keeps s0 s) :
    ∀ t, State.gate6 s f = some t → Keeps s0 t := by
  intro t ht
  unfold State.gate6 at ht
  dsimp only at ht
  have k1 : Keeps s0 ((s.ctxCount (fCtx f) 7 1).stick (fCtx f) 0x524 4) := keeps_stick _ _ _ (keeps_ctxCount _ _ _ hk)
  split at ht
  · exact nomatch ht
  · split at ht <;> cases ht
    · exact k1
    · exact keeps_nack _ _ (keeps_rxAdvance _ (Keeps.ite (fun _ => keeps_wr32 _ _ k1) (fun _ => k1)))

@[simp] theorem keeps_gate710 {s0 s : State} (f : Frame) (x2 : TgtRes) (hk : Keeps s0 s) :
    ∀ t, State.gate710 s f x2 = some t → Keeps s0 t := by
  intro t ht
  have hc : ∀ k, Keeps s0 (s.ctxCount (fCtx f) k 1) := fun k => keeps_ctxCount _ _ _ hk
  cases x2 <;> simp only [State.gate710] at ht <;> cases ht
  · exact keeps_refuse _ _ (hc _)
  · exact Keeps.ite (fun _ => keeps_nack _ _ (keeps_rxAdvance _ (hc _))) (fun _ => hc _)
  · exact keeps_refuse _ _ (hc _)
  · exact keeps_refuse _ _ (hc _)

@[simp] theorem keeps_rx {s0 s : State} (p : Nat) (kind : Nat) (f : Frame) (tgt : State → TgtRes) (eff : State → State) (heff : ∀ t, Keeps s0 t → Keeps s0 (eff t)) (hk : Keeps s0 s) :
    Keeps s0 (State.rx s p kind f tgt eff) := by
  unfold State.rx
  split
  · exact hk
  · extract_lets t0 s1
    have k_t0 : Keeps s0 t0 := keeps_dp1Seen _ hk
    have k_s1 : Keeps s0 s1 := keeps_chargeIn _ _ k_t0
    split
    next s2 e => exact keeps_gate14 _ k_t0 _ e
    · split
      next s2 e =>
        split at e
        · exact keeps_gate5 _ k_s1 _ e
        · exact nomatch e
      · split
        next s2 e => exact keeps_gate6 _ k_s1 _ e
        · split
          next s2 e => exact keeps_gate710 _ _ k_s1 _ e
          · exact heff _ k_s1

@[simp] theorem keeps_landing {s0 s : State} (f : Frame) (gen : Nat) (spans : List (Nat × Nat)) (hk : Keeps s0 s) :
    Keeps s0 (State.landing s f gen spans) := by
  unfold State.landing
  extract_lets a l
  exact Keeps.upd hk

@[simp] theorem keeps_dspLand {s0 s : State} (f : Frame) (hk : Keeps s0 s) :
    Keeps s0 (State.dspLand s f) := by
  unfold State.dspLand
  extract_lets c b a
  exact keeps_chargeRows _ _ _ _ _ (keeps_landRows _ _ _ _ _ _ (keeps_landing _ _ _ (keeps_rxAdvance _ hk)))

@[simp] theorem keeps_retLand {s0 s : State} (f : Frame) (hk : Keeps s0 s) :
    Keeps s0 (State.retLand s f) := by
  unfold State.retLand
  split
  · exact hk
  · split
    · exact hk
    · extract_lets rf brow s1
      have k_s1 : Keeps s0 s1 := keeps_landing _ _ _ (keeps_rxAdvance _ hk)
      exact keeps_chargePlaced _ _ _ (keeps_opCount _ _ _ (keeps_placeRows _ _ _ _ _ k_s1))

@[simp] theorem keeps_resGrant {s0 s : State} (f : Frame) (hk : Keeps s0 s) :
    Keeps s0 (State.resGrant s f) := by
  unfold State.resGrant
  extract_lets c n t w4 s1 s2
  have k_t : Keeps s0 t.snd.snd := keeps_toll _ _ _ hk
  have k_s1 : Keeps s0 s1 := keeps_rxAdvance _ k_t
  have k_s2 : Keeps s0 s2 := by
    unfold s2
    split
    · exact k_s1
    · exact keeps_wr64 _ _ k_s1
  exact keeps_reply _ _ _ _ _ _ k_s2

@[simp] theorem keeps_takeGrant {s0 s : State} (f : Frame) (hk : Keeps s0 s) :
    Keeps s0 (State.takeGrant s f) := by
  unfold State.takeGrant
  extract_lets c d
  split
  · exact keeps_sysCount _ hk
  · split
    · exact hk
    · extract_lets s1 s2
      have k_s1 : Keeps s0 s1 := keeps_updTx _ _ _ _ hk
      have k_s2 : Keeps s0 s2 := by
        unfold s2
        split
        · exact k_s1
        · split
          · exact keeps_granted _ _ _ _ k_s1
          · exact k_s1
      exact keeps_txPump k_s2

@[simp] theorem keeps_cntTake {s0 s : State} (f : Frame) (hk : Keeps s0 s) :
    Keeps s0 (State.cntTake s f) := by
  unfold State.cntTake
  extract_lets m s1
  have k_s1 : Keeps s0 s1 := keeps_rxAdvance _ hk
  exact keeps_cxArrive _ _ _ _ _ (keeps_ackNow _ k_s1)

@[simp] theorem keeps_barRelTake {s0 s : State} (f : Frame) (hk : Keeps s0 s) :
    Keeps s0 (State.barRelTake s f) := by
  unfold State.barRelTake
  extract_lets s1 s2 t r
  have k_s1 : Keeps s0 s1 := keeps_rxAdvance _ hk
  have k_s2 : Keeps s0 s2 := keeps_ackNow _ k_s1
  have k_r : Keeps s0 r.snd := keeps_readTime k_s2
  split
  · exact k_s2
  · split
    · exact k_s2
    · split
      · exact keeps_fault _ _ _ _ k_s2
      · split
        · exact k_s2
        · extract_lets s3
          have k_s3 : Keeps s0 s3 := keeps_updBar _ _ _ _ k_r
          split
          · exact keeps_barRelease _ _ k_s3
          · exact k_s3

@[simp] theorem keeps_takeAck {s0 s : State} (f : Frame) (hk : Keeps s0 s) :
    Keeps s0 (State.takeAck s f) := by
  unfold State.takeAck
  extract_lets c d vc hit
  split
  · exact keeps_sysCount _ hk
  · extract_lets gone
    split
    · exact hk
    · exact keeps_txPump (keeps_updTx _ _ _ _ hk)

@[simp] theorem keeps_resendFrom {s0 s : State} (c : Nat) (d : Nat) (vc : Nat) (from_ : U32) (p : OutSlab → Bool) (hk : Keeps s0 s) :
    Keeps s0 (State.resendFrom s c d vc from_ p) := by
  unfold State.resendFrom
  split
  · exact hk
  · split
    · exact hk
    · extract_lets v out s1
      have k_s1 : Keeps s0 s1 := keeps_updTx _ _ _ _ hk
      exact Keeps.foldl (fun t a kt => keeps_emit _ _ _ kt) _ k_s1

@[simp] theorem keeps_slabFault {s0 s : State} (o : OutSlab) (code : Nat) (reason : Nat) (peer : Nat) (hk : Keeps s0 s) :
    Keeps s0 (State.slabFault s o code reason peer) := by
  unfold State.slabFault
  split
  · split
    · exact keeps_fault _ _ _ _ hk
    · exact hk
  · exact hk

@[simp] theorem keeps_slabDone {s0 s : State} (c : Nat) (d : Nat) (vc : Nat) (o : OutSlab) (hk : Keeps s0 s) :
    Keeps s0 (State.slabDone s c d vc o) := by
  unfold State.slabDone
  exact keeps_updTx _ _ _ _ hk

@[simp] theorem keeps_slabStale {s0 s : State} (c : Nat) (d : Nat) (vc : Nat) (o : OutSlab) (hk : Keeps s0 s) :
    Keeps s0 (State.slabStale s c d vc o) := by
  unfold State.slabStale
  extract_lets s1 s2
  have k_s1 : Keeps s0 s1 := keeps_slabDone _ _ _ _ hk
  have k_s2 : Keeps s0 s2 := by
    unfold s2
    split
    · exact keeps_dspStale _ _ k_s1
    · split
      · exact k_s1
      · split
        · exact keeps_granted _ _ _ _ k_s1
        · exact k_s1
    · exact k_s1
  exact keeps_txPump k_s2

@[simp] theorem keeps_takeNack {s0 s : State} (f : Frame) (hk : Keeps s0 s) :
    Keeps s0 (State.takeNack s f) := by
  unfold State.takeNack
  extract_lets c d vc reason slow r
  split
  · exact keeps_sysCount _ hk
  · split
    · exact hk
    · split
      · exact hk
      · clear_value reason
        split
        · exact keeps_slabFault _ _ _ _ (keeps_stick _ _ _ hk)
        · exact keeps_slabFault _ _ _ _ hk
        · exact keeps_slabStale _ _ _ _ hk
        · exact keeps_slabFault _ _ _ _ (keeps_slabDone _ _ _ _ hk)
        · exact keeps_slabFault _ _ _ _ hk
        · refine Keeps.ite (fun _ => Keeps.ite (fun _ => keeps_updTx _ _ _ _ hk) (fun _ => keeps_resendFrom _ _ _ _ _ hk)) (fun _ => ?_)
          split
          · exact hk
          · exact keeps_updTx _ _ _ _ hk
          · exact keeps_resendFrom _ _ _ _ _ hk

-- RingRx.lean

@[simp] theorem keeps_ringAnswer {s0 s : State} (f : Frame) (kind : Nat) (seq : Nat) (code : Nat) (next : Nat) (hk : Keeps s0 s) :
    Keeps s0 (State.ringAnswer s f kind seq code next) := by
  unfold State.ringAnswer
  extract_lets c
  exact keeps_emit _ _ _ hk

@[simp] theorem keeps_ringRefuse {s0 s : State} (f : Frame) (reason : Nat) (next : Nat) (hk : Keeps s0 s) :
    Keeps s0 (State.ringRefuse s f reason next) := by
  unfold State.ringRefuse
  split
  · exact keeps_ringAnswer _ _ _ _ _ hk
  · exact hk

@[simp] theorem keeps_ringGate {s0 s : State} (f : Frame) (hk : Keeps s0 s) :
    ∀ t, State.ringGate s f = some t → Keeps s0 t := by
  intro t ht
  have k0 : Keeps s0 (s.chargeIn 16 f) := keeps_chargeIn _ _ hk
  unfold State.ringGate at ht
  dsimp only at ht
  split at ht
  · cases ht; exact keeps_sysCount _ k0
  · split at ht
    · cases ht
      exact Keeps.ite (fun _ => keeps_sysCount _ k0) (fun _ => keeps_ringAnswer _ _ _ _ _ (keeps_sysCount _ k0))
    · split at ht
      · cases ht; exact keeps_ringRefuse _ _ _ (keeps_sysCount _ k0)
      · split at ht
        · cases ht; exact keeps_ringRefuse _ _ _ (keeps_stick _ _ _ (keeps_ctxCount _ _ _ k0))
        · exact nomatch ht

@[simp] theorem keeps_ringRx {s0 s : State} (p : Nat) (kind : Nat) (f : Frame) (eff : State → State) (heff : ∀ t, Keeps s0 t → Keeps s0 (eff t)) (hk : Keeps s0 s) :
    Keeps s0 (State.ringRx s p kind f eff) := by
  unfold State.ringRx
  split
  · exact hk
  · split
    next h x s1 heq =>
      have k_heq := keeps_ringGate _ hk _ heq
      exact k_heq
    · exact heff _ (keeps_chargeIn _ _ hk)

@[simp] theorem keeps_ringMismatch {s0 s : State} (slot : Nat) (f : Frame) (hk : Keeps s0 s) :
    Keeps s0 (State.ringMismatch s slot f) := by
  unfold State.ringMismatch
  exact keeps_ringTell _ _ (keeps_ctxCount _ _ _ hk)

@[simp] theorem keeps_ringTake {s0 s : State} (slot : Nat) (r : RingSlot) (f : Frame) (hk : Keeps s0 s) :
    Keeps s0 (State.ringTake s slot r f) := by
  unfold State.ringTake
  extract_lets c g hop d e s1 s2 s4 nx s3
  have k_s1 : Keeps s0 s1 := keeps_updRing _ _ hk
  have k_s2 : Keeps s0 s2 := keeps_chargeWrites _ _ (keeps_ringAnswer _ _ _ _ _ k_s1)
  have k_s4 : Keeps s0 s4 := keeps_ringPlace _ _ _ _ _ k_s2
  have k_s3 : Keeps s0 s3 := by
    unfold s3
    split
    · split
      · exact keeps_ringSum _ _ _ _ _ _ _ _ k_s2
      · exact keeps_ringCopy _ _ _ _ _ _ _ _ k_s2
    · split
      · exact k_s4
      · exact keeps_ringData _ _ _ _ _ _ _ _ _ k_s4
    · exact k_s4
  exact keeps_ringCheck _ (keeps_ringSeen _ _ k_s3)

@[simp] theorem keeps_ringDataTake {s0 s : State} (f : Frame) (hk : Keeps s0 s) :
    Keeps s0 (State.ringDataTake s f) := by
  unfold State.ringDataTake
  extract_lets c
  split
  · exact keeps_ringAnswer _ _ _ _ _ (keeps_ctxCount _ _ _ hk)
  · split
    · exact keeps_ringAnswer _ _ _ _ _ (keeps_ctxCount _ _ _ hk)
    · split
      · exact keeps_ringAnswer _ _ _ _ _ (keeps_ctxCount _ _ _ hk)
      · exact keeps_ringAnswer _ _ _ _ _ (keeps_ctxCount _ _ _ hk)
      · split
        · exact keeps_ctxCount _ _ _ hk
        · split
          · exact keeps_ringMismatch _ _ hk
          · split
            · exact keeps_ringAnswer _ _ _ _ _ (keeps_ctxCount _ _ _ hk)
            · exact keeps_ringTake _ _ _ hk

@[simp] theorem keeps_updRingTx {s0 s : State} (slot : Nat) (dst : Nat) (dir : Nat) (g : RingTx → RingTx) (hk : Keeps s0 s) :
    Keeps s0 (State.updRingTx s slot dst dir g) := by
  unfold State.updRingTx
  exact keeps_updRing _ _ hk

@[simp] theorem keeps_ringAnsGate {s0 s : State} (f : Frame) (hk : Keeps s0 s) :
    ∀ t, State.ringAnsGate s f = some t → Keeps s0 t := by
  intro t ht
  unfold State.ringAnsGate at ht
  split at ht
  · exact nomatch ht
  · split at ht
    · cases ht; exact keeps_ctxCount _ _ _ hk
    · split at ht
      · cases ht; exact keeps_ringMismatch _ _ hk
      · exact nomatch ht

@[simp] theorem keeps_rackGo {s0 s : State} (f : Frame) (hk : Keeps s0 s) :
    Keeps s0 (State.rackGo s f) := by
  unfold State.rackGo
  extract_lets old ctl
  have k_ctl : Keeps s0 ctl := by
    unfold ctl
    split
    · exact Keeps.upd hk
    · exact hk
  split
  · split
    · extract_lets s1 s2
      have k_s1 : Keeps s0 s1 := keeps_updRingTx _ _ _ _ hk
      have k_s2 : Keeps s0 s2 := keeps_updRing _ _ k_s1
      exact keeps_ringCheck _ (keeps_ringSeen _ _ (keeps_ringPump _ k_s2))
    · exact k_ctl
  · exact k_ctl

@[simp] theorem keeps_rackTake {s0 s : State} (f : Frame) (hk : Keeps s0 s) :
    Keeps s0 (State.rackTake s f) := by
  unfold State.rackTake
  cases e : s.ringAnsGate f with
  | none => exact keeps_rackGo _ hk
  | some t => exact keeps_ringAnsGate _ hk _ e

@[simp] theorem keeps_ringResendFrom {s0 s : State} (slot : Nat) (t : RingTx) (from_ : Nat) (hk : Keeps s0 s) :
    Keeps s0 (State.ringResendFrom s slot t from_) := by
  unfold State.ringResendFrom
  split
  · exact hk
  · split
    · exact hk
    · extract_lets s1
      have k_s1 : Keeps s0 s1 := keeps_updRingTx _ _ _ _ hk
      exact Keeps.foldl (fun t1' a kt => keeps_emit _ _ _ kt) _ k_s1

@[simp] theorem keeps_rnackGo {s0 s : State} (f : Frame) (hk : Keeps s0 s) :
    Keeps s0 (State.rnackGo s f) := by
  unfold State.rnackGo
  split
  · exact hk
  · split
    · exact hk
    · split
      · exact keeps_ringTell _ _ (keeps_stick _ _ _ hk)
      · exact keeps_ringTell _ _ hk
      · split
        · extract_lets slow r s01'
          have k_s01' : Keeps s0 s01' := keeps_updRing _ _ hk
          split
          · exact k_s01'
          · exact keeps_updRingTx _ _ _ _ k_s01'
          · exact keeps_ringResendFrom _ _ _ k_s01'
        · exact keeps_sysCount _ hk

@[simp] theorem keeps_rnackTake {s0 s : State} (f : Frame) (hk : Keeps s0 s) :
    Keeps s0 (State.rnackTake s f) := by
  unfold State.rnackTake
  cases e : s.ringAnsGate f with
  | none => exact keeps_rnackGo _ hk
  | some t => exact keeps_ringAnsGate _ hk _ e

@[simp] theorem keeps_abortWaiting {s0 s : State} (hk : Keeps s0 s) :
    Keeps s0 (State.abortWaiting s) := by
  unfold State.abortWaiting
  refine Keeps.foldl (fun t a kt => ?_) _ hk
  split
  · split
    · exact keeps_startNow _ _ kt
    · exact kt
  · exact kt

@[simp] theorem keeps_reportTake {s0 s : State} (f : Frame) (hk : Keeps s0 s) :
    Keeps s0 (State.reportTake s f) := by
  unfold State.reportTake
  extract_lets c gid slot s1 lower agrees t
  have k_s1 : Keeps s0 s1 := keeps_ringAnswer _ _ _ _ _ hk
  have k_t : Keeps s0 t.snd := keeps_leaderTake _ _ _ _ _ _ _ _ k_s1
  clear_value slot
  split
  · exact keeps_ctxCount _ _ _ hk
  · split
    · cases slot with
      | none => exact keeps_ctxCount _ _ _ k_s1
      | some p => exact keeps_ringMismatch _ _ k_s1
    · split
      · exact keeps_ctxCount _ _ _ k_s1
      · split
        · exact k_t
        · cases slot with
          | none => exact Keeps.ite (fun _ => k_t) (fun _ => keeps_abortWaiting (keeps_abortPut _ k_t))
          | some p => exact Keeps.ite (fun _ => keeps_ringDecide _ _ _ k_t) (fun _ => k_t)

@[simp] theorem keeps_decideSeen {s0 s : State} (c : Nat) (gid : Nat) (gseq : U32) (att : Nat) (hk : Keeps s0 s) :
    Keeps s0 (State.decideSeen s c gid gseq att) := by
  unfold State.decideSeen
  exact Keeps.upd hk

@[simp] theorem keeps_decideTake {s0 s : State} (f : Frame) (hk : Keeps s0 s) :
    Keeps s0 (State.decideTake s f) := by
  unfold State.decideTake
  extract_lets c gid rerun s1
  have k_s1 : Keeps s0 s1 := keeps_ringAnswer _ _ _ _ _ hk
  split
  · split
    · exact keeps_ctxCount _ _ _ hk
    · split
      · exact hk
      · split
        · exact keeps_ringMismatch _ _ k_s1
        · split
          · exact keeps_ctxCount _ _ _ k_s1
          · split
            · exact k_s1
            · exact keeps_ringDecide _ _ _ (keeps_decideSeen _ _ _ _ k_s1)
  · split
    · exact keeps_ctxCount _ _ _ k_s1
    · split
      · exact k_s1
      · exact keeps_abortWaiting (keeps_abortPut _ (keeps_decideSeen _ _ _ _ k_s1))

-- Respond.lean

@[simp] theorem keeps_goneMemErr {s0 s : State} (q : Nat) (idx : U32) (a : Nat) (st : MemStatus) (hk : Keeps s0 s) :
    Keeps s0 (State.goneMemErr s q idx a st) := by
  unfold State.goneMemErr
  extract_lets own
  split
  · split
    · exact keeps_ctxError _ _ hk
    · exact hk
  · exact hk

@[simp] theorem keeps_cmdMemErr {s0 s : State} (q : Nat) (idx : U32) (a : Nat) (st : MemStatus) (hk : Keeps s0 s) :
    Keeps s0 (State.cmdMemErr s q idx a st) := by
  unfold State.cmdMemErr
  split
  · exact keeps_goneMemErr _ _ _ _ hk
  · split
    · extract_lets f
      split
      · exact keeps_ringUnc _ _ hk
      · exact keeps_ringFault _ _ _ hk
    · exact keeps_fault _ _ _ _ hk

@[simp] theorem keeps_slotMemErr {s0 s : State} (q : Nat) (st : MemStatus) (hk : Keeps s0 s) :
    Keeps s0 (State.slotMemErr s q st) := by
  unfold State.slotMemErr
  extract_lets x c a
  split
  · exact hk
  · exact keeps_fault _ _ _ _ (keeps_setQueue _ _ hk)

@[simp] theorem keeps_spoil {s0 s : State} (a : Nat) (st : MemStatus) (hk : Keeps s0 s) :
    Keeps s0 (State.spoil s a st) := by
  unfold State.spoil
  split
  · exact keeps_scramble _ hk
  · exact hk

@[simp] theorem keeps_controlMemErr {s0 s : State} (c : Nat) (a : Nat) (st : MemStatus) (hk : Keeps s0 s) :
    Keeps s0 (State.controlMemErr s c a st) := by
  unfold State.controlMemErr
  exact keeps_ctxError _ _ hk

@[simp] theorem keeps_fatalMemErr {s0 s : State} (unit : Nat) (a : Nat) (hk : Keeps s0 s) :
    Keeps s0 (State.fatalMemErr s unit a) := by
  unfold State.fatalMemErr
  exact keeps_fatal _ _ hk

@[simp] theorem keeps_bootFail {s0 s : State} (e : Nat) (hk : Keeps s0 s) :
    Keeps s0 (State.bootFail s e) := by
  unfold State.bootFail
  extract_lets s1
  have k_s1 : Keeps s0 s1 := keeps_setRf _ _ _ _ hk
  split
  · exact keeps_setRf _ _ _ _ k_s1
  · exact k_s1

@[simp] theorem keeps_bootMemErr {s0 s : State} (st : MemStatus) (hk : Keeps s0 s) :
    Keeps s0 (State.bootMemErr s st) := by
  unfold State.bootMemErr
  split
  · exact keeps_bootFail _ hk
  · exact hk

@[simp] theorem keeps_reclaimNow {s0 s : State} (c : Nat) (hk : Keeps s0 s) :
    Keeps s0 (State.reclaimNow s c) := by
  unfold State.reclaimNow
  extract_lets go s1
  have k_s1 : Keeps s0 s1 := by
    refine Keeps.foldl (fun t p kt => ?_) _ (Keeps.upd hk)
    refine Keeps.foldl (fun t i kt => ?_) _ kt
    exact Keeps.ite (fun _ => keeps_releaseBuf _ _ (keeps_setBufWord _ _ _ kt)) (fun _ => kt)
  exact keeps_setRbit _ _ _ k_s1

@[simp] theorem keeps_landingsOver {s0 s : State} (c : Nat) (hk : Keeps s0 s) :
    Keeps s0 (State.landingsOver s c) := by
  unfold State.landingsOver
  split
  · exact hk
  · extract_lets s1
    have k_s1 : Keeps s0 s1 := by
      unfold s1
      split
      · exact keeps_tdnFinish _ hk
      · exact hk
    split
    · exact keeps_reclaimNow _ k_s1
    · exact k_s1

@[simp] theorem keeps_landed {s0 s : State} (l : Landing) (hk : Keeps s0 s) :
    Keeps s0 (State.landed s l) := by
  unfold State.landed
  extract_lets rest older s2 s1
  have k_s2 : Keeps s0 s2 := Keeps.upd hk
  have k_s1 : Keeps s0 s1 := by
    unfold s1
    split
    · exact Keeps.upd hk
    · exact keeps_answer _ _ k_s2
    · exact k_s2
  exact keeps_landingsOver _ (keeps_readyAll _ (Keeps.foldl (fun t a kt => keeps_releaseHeld _ kt) _ k_s1))

@[simp] theorem keeps_landingErr {s0 s : State} (l : Landing) (st : MemStatus) (hk : Keeps s0 s) :
    Keeps s0 (State.landingErr s l st) := by
  unfold State.landingErr
  extract_lets s1 s2 a s3
  have k_s1 : Keeps s0 s1 := Keeps.upd hk
  have k_s2 : Keeps s0 s2 := by
    unfold s2
    split
    · exact keeps_scramble _ k_s1
    · exact k_s1
  have k_s3 : Keeps s0 s3 := Keeps.foldl (fun t a1' kt => keeps_releaseHeld _ kt) _ k_s2
  exact keeps_landingsOver _ (keeps_ctxError _ _ k_s3)

@[simp] theorem keeps_rerouted {s0 s : State} (hk : Keeps s0 s) :
    Keeps s0 (State.rerouted s) := by
  unfold State.rerouted
  extract_lets dst x s1
  have k_s1 : Keeps s0 s1 := Keeps.upd hk
  exact keeps_pump k_s1

end Sys2Proof.Machine
end

