-- ==== Sys2Proof/Laws/KeepsControl.lean ====
section
/-! SUPPORT. What Keeps says (pending, part, free numbers, canonical stores) holds of the control port, contexts, Catwalk, the error unit, boot: one lemma per
function on states, citing the lemmas of the functions it calls. -/
namespace Sys2Proof.Machine

-- Context.lean

@[simp] theorem keeps_writeCtxCfg {s0 s : State} (c : Nat) (w : Nat) (hk : Keeps s0 s) :
    Keeps s0 (State.writeCtxCfg s c w) := by
  unfold State.writeCtxCfg
  split
  · exact hk
  · extract_lets o r s1 st
    have k_s1 : Keeps s0 s1 := keeps_setReg _ _ hk
    split
    · exact keeps_setReg _ _ (keeps_setRf _ _ _ _ k_s1)
    · split
      · exact keeps_setRf _ _ _ _ k_s1
      · exact k_s1

@[simp] theorem keeps_writeTdn {s0 s : State} (c : Nat) (w : Nat) (hk : Keeps s0 s) :
    Keeps s0 (State.writeTdn s c w) := by
  unfold State.writeTdn
  extract_lets st s2 s1
  have k_s2 : Keeps s0 s2 := keeps_ctxError _ _ (keeps_setRbit _ _ _ hk)
  have k_s1 : Keeps s0 s1 := by
    unfold s1
    split
    · split
      · exact k_s2
      · exact keeps_setRbit _ _ _ k_s2
    · exact hk
  split
  · exact keeps_setRbit _ _ _ (keeps_setRf _ _ _ _ k_s1)
  · exact k_s1

@[simp] theorem keeps_writeSaveCtl {s0 s : State} (c : Nat) (w : Nat) (hk : Keeps s0 s) :
    Keeps s0 (State.writeSaveCtl s c w) := by
  unfold State.writeSaveCtl
  extract_lets k refuse begin_ s2 v s3 s1
  have hr : ∀ t, Keeps s0 t → Keeps s0 (refuse t) := fun t ht => keeps_setRbit _ _ _ (keeps_setRbit _ _ _ ht)
  have hb : ∀ t, Keeps s0 t → Keeps s0 (begin_ t) := fun t ht => keeps_setRbit _ _ _ (keeps_setRbit _ _ _ (keeps_latch _ ht))
  have k_s2 : Keeps s0 s2 := keeps_setRbit _ _ _ (hb _ hk)
  have k_s3 : Keeps s0 s3 := Keeps.upd k_s2
  have k_s1 : Keeps s0 s1 :=
    Keeps.ite (fun _ => hk) (fun _ => Keeps.ite (fun _ => hr _ hk) (fun _ => Keeps.foldl (fun t a kt => keeps_kill _ kt) _ k_s3))
  clear_value s1
  refine Keeps.ite (fun _ => k_s1) (fun _ => ?_)
  split
  · exact hr _ k_s1
  · exact Keeps.ite (fun _ => hr _ k_s1) (fun _ => Keeps.ite (fun _ => keeps_ctxError _ _ (hr _ k_s1))
      (fun _ => keeps_restoreTry _ (keeps_setRbit _ _ _ (hb _ k_s1))))

@[simp] theorem keeps_writeFloor {s0 s : State} (c : Nat) (w : Nat) (hk : Keeps s0 s) :
    Keeps s0 (State.writeFloor s c w) := by
  unfold State.writeFloor
  extract_lets g r
  have k_r : Keeps s0 r.snd := keeps_retireTags _ _ (keeps_setReg _ _ hk)
  split
  · exact hk
  · split
    · exact keeps_teardown _ _ k_r
    · exact k_r

@[simp] theorem keeps_casStick {s0 s : State} (c : Nat) (b : Nat) (hk : Keeps s0 s) :
    Keeps s0 (State.casStick s c b) := by
  unfold State.casStick
  exact keeps_stick _ _ _ hk

@[simp] theorem keeps_casServe {s0 s : State} (c : Nat) (w : Nat) (hk : Keeps s0 s) :
    Keeps s0 (State.casServe s c w) := by
  unfold State.casServe
  extract_lets n stat got
  have hs : ∀ t f, Keeps s0 t → Keeps s0 (stat t f) := fun t f ht => keeps_setReg _ _ ht
  cases e : got with
  | none => exact hs _ _ (keeps_setReg _ _ (keeps_casStick _ _ (keeps_allocFail _ _ hk)))
  | some p =>
    obtain ⟨h, a, s1⟩ := p
    refine hs _ _ (keeps_setReg _ _ (keeps_setReg _ _ (keeps_setReg _ _ ?_)))
    unfold got at e
    split at e
    · exact nomatch e
    · exact keeps_alloc _ _ _ _ hk _ e

@[simp] theorem keeps_writeCasReq {s0 s : State} (c : Nat) (w : Nat) (hk : Keeps s0 s) :
    Keeps s0 (State.writeCasReq s c w) := by
  unfold State.writeCasReq
  extract_lets n s1 s2
  have k_s1 : Keeps s0 s1 := by
    unfold s1
    split
    · exact Keeps.take hk
    · exact hk
  have k_s2 : Keeps s0 s2 := keeps_casServe _ _ k_s1
  split
  · exact keeps_casStick _ _ k_s1
  · split
    · exact keeps_casStick _ _ k_s1
    · exact Keeps.upd k_s2

@[simp] theorem keeps_casDouble {s0 s : State} (c : Nat) (h : Nat) (hk : Keeps s0 s) :
    Keeps s0 (State.casDouble s c h) := by
  unfold State.casDouble
  exact keeps_ctxError _ _ (keeps_casStick _ _ hk)

@[simp] theorem keeps_writeCasFree {s0 s : State} (c : Nat) (h : Nat) (hk : Keeps s0 s) :
    Keeps s0 (State.writeCasFree s c h) := by
  unfold State.writeCasFree
  split
  · exact keeps_dropRef _ hk
  · exact keeps_casStick _ _ hk
  · exact keeps_casStick _ _ hk
  · exact keeps_casStick _ _ hk
  · exact keeps_casStick _ _ hk
  · exact keeps_casDouble _ _ hk

@[simp] theorem keeps_writeCasRef {s0 s : State} (c : Nat) (h : Nat) (hk : Keeps s0 s) :
    Keeps s0 (State.writeCasRef s c h) := by
  unfold State.writeCasRef
  split
  · exact keeps_takeRef _ hk
  · exact keeps_casStick _ _ hk
  · exact keeps_casStick _ _ hk
  · exact keeps_casStick _ _ hk
  · exact keeps_casStick _ _ hk
  · exact keeps_casDouble _ _ hk

@[simp] theorem keeps_writeReclaim {s0 s : State} (w : Nat) (hk : Keeps s0 s) :
    Keeps s0 (State.writeReclaim s w) := by
  unfold State.writeReclaim
  extract_lets c s1 s2
  have k_s1 : Keeps s0 s1 := keeps_setRf _ _ _ _ hk
  have k_s2 : Keeps s0 s2 := keeps_setRf _ _ _ _ k_s1
  split
  · exact k_s1
  · split
    · exact keeps_setRbit _ _ _ k_s1
    · exact keeps_landingsOver _ (Keeps.upd k_s2)

@[simp] theorem keeps_writeEvCtl {s0 s : State} (e : Nat) (w : Nat) (hk : Keeps s0 s) :
    Keeps s0 (State.writeEvCtl s e w) := by
  unfold State.writeEvCtl
  extract_lets k n s1
  have k_s1 : Keeps s0 s1 := Keeps.upd hk
  split
  · exact keeps_setReg _ _ hk
  · split
    · exact keeps_setRbit _ _ _ hk
    · exact keeps_setRbit _ _ _ (keeps_setReg _ _ (keeps_setReg _ _ (keeps_setReg _ _ (keeps_setReg _ _ k_s1))))

@[simp] theorem keeps_writeEvRd {s0 s : State} (e : Nat) (v : Nat) (hk : Keeps s0 s) :
    Keeps s0 (State.writeEvRd s e v) := by
  unfold State.writeEvRd
  extract_lets k s1
  have k_s1 : Keeps s0 s1 := keeps_setReg _ _ hk
  split
  · split
    · exact Keeps.upd k_s1
    · exact k_s1
  · exact hk

@[simp] theorem keeps_writeEvStatus {s0 s : State} (e : Nat) (w : Nat) (hk : Keeps s0 s) :
    Keeps s0 (State.writeEvStatus s e w) := by
  unfold State.writeEvStatus
  extract_lets k o c
  exact keeps_evThresh _ (keeps_setReg _ _ hk)

-- Catwalk.lean

@[simp] theorem keeps_fireNow {s0 s : State} (f : Fire) (late : Bool) (hk : Keeps s0 s) :
    Keeps s0 (State.fireNow s f late) := by
  unfold State.fireNow
  extract_lets t x s1 s2 s3 n x1' s4 p
  have k_s1 : Keeps s0 s1 := Keeps.upd hk
  have k_s2 : Keeps s0 s2 := keeps_setRegs _ _ (keeps_setRf _ _ _ _ (keeps_setRbit _ _ _ k_s1))
  have k_s3 : Keeps s0 s3 := keeps_traceRec _ _ _ _ k_s2
  have k_s4 : Keeps s0 s4 := by
    unfold s4
    split
    · exact Keeps.upd k_s3
    · exact k_s3
  have k_p : Keeps s0 p.snd := keeps_readTime k_s4
  exact keeps_postSys _ _ _ k_p

@[simp] theorem keeps_cwRx {s0 s : State} (p : Nat) (kind : Nat) (f : Frame) (eff : State → State) (heff : ∀ t, Keeps s0 t → Keeps s0 (eff t)) (hk : Keeps s0 s) :
    Keeps s0 (State.cwRx s p kind f eff) := by
  unfold State.cwRx
  split
  · exact hk
  · extract_lets s01'
    have k_s01' : Keeps s0 s01' := keeps_chargeIn _ _ hk
    split
    · exact keeps_sysCount _ k_s01'
    · split
      · exact keeps_sysCount _ k_s01'
      · exact heff _ k_s01'

@[simp] theorem keeps_trigTake {s0 s : State} (f : Frame) (hk : Keeps s0 s) :
    Keeps s0 (State.trigTake s f) := by
  unfold State.trigTake
  extract_lets src tid s1 x s2 t fr r x1' x2'
  have k_s1 : Keeps s0 s1 := keeps_emit _ _ _ hk
  have k_s2 : Keeps s0 s2 := Keeps.upd k_s1
  have k_r : Keeps s0 r.snd := keeps_readTime k_s2
  have k_x1' : Keeps s0 x1' := k_r
  split
  · exact k_s1
  · split
    · exact keeps_sysCount _ k_s2
    · split
      · exact keeps_fireNow _ _ k_r
      · exact Keeps.upd k_r

@[simp] theorem keeps_traceDrop {s0 s : State} (f : Frame) (hk : Keeps s0 s) :
    Keeps s0 (State.traceDrop s f) := by
  unfold State.traceDrop
  extract_lets p s1
  have k_p : Keeps s0 p.snd := keeps_readTime hk
  have k_s1 : Keeps s0 s1 := keeps_traceLose _ _ _ _ k_p
  split
  · exact keeps_traceLoss k_s1
  · exact k_s1

@[simp] theorem keeps_traceTake {s0 s : State} (f : Frame) (hk : Keeps s0 s) :
    Keeps s0 (State.traceTake s f) := by
  unfold State.traceTake
  extract_lets n
  split
  · exact hk
  · split
    · exact keeps_traceDrop _ hk
    · refine Keeps.foldl (fun t a kt => ?_) _ (keeps_traceLoss hk)
      split
      · exact kt
      · exact keeps_traceLocal _ kt

@[simp] theorem keeps_writeFreezeClr {s0 s : State} (w : Nat) (hk : Keeps s0 s) :
    Keeps s0 (State.writeFreezeClr s w) := by
  unfold State.writeFreezeClr
  split
  · extract_lets x s1
    have k_s1 : Keeps s0 s1 := Keeps.upd hk
    exact keeps_setRbit _ _ _ k_s1
  · exact hk

@[simp] theorem keeps_writeTrCtl {s0 s : State} (w : Nat) (hk : Keeps s0 s) :
    Keeps s0 (State.writeTrCtl s w) := by
  unfold State.writeTrCtl
  extract_lets old en size v s01' x s1
  have k_s01' : Keeps s0 s01' := keeps_latch _ hk
  have k_s1 : Keeps s0 s1 := Keeps.upd k_s01'
  split
  · split
    · exact keeps_setRbit _ _ _ hk
    · exact keeps_setReg _ _ (keeps_setReg _ _ (keeps_setReg _ _ (keeps_setReg _ _ k_s1)))
  · exact keeps_setReg _ _ hk

@[simp] theorem keeps_writeDumpCtl {s0 s : State} (w : Nat) (hk : Keeps s0 s) :
    Keeps s0 (State.writeDumpCtl s w) := by
  unfold State.writeDumpCtl
  extract_lets e s1 x x1' s2
  have k_s1 : Keeps s0 s1 := keeps_setReg _ _ hk
  have k_x : Keeps s0 x := keeps_latch _ k_s1
  have k_s2 : Keeps s0 s2 := Keeps.upd k_x
  split
  · exact k_s1
  · split
    · exact keeps_setRbit _ _ _ (keeps_setRbit _ _ _ k_s2)
    · exact keeps_setRbit _ _ _ k_s1

@[simp] theorem keeps_dumpBody {s0 s : State} (hk : Keeps s0 s) :
    Keeps s0 (State.dumpBody s).2 := by
  unfold State.dumpBody
  extract_lets t h halt regs perCtx logw
  have k_t : Keeps s0 t.snd := keeps_readTime hk
  have k_h : Keeps s0 h.snd := keeps_freeBytes _ k_t
  exact k_h

-- ErrUnit.lean

@[simp] theorem keeps_uncOwned {s0 s : State} (a : Nat) (inst : Nat) (idx : Nat) (own : CodeOwner) (hk : Keeps s0 s) :
    Keeps s0 (State.uncOwned s a inst idx own) := by
  unfold State.uncOwned
  extract_lets corrected x
  have k_corrected : Keeps s0 corrected := keeps_logCorr _ hk
  split
  · exact k_corrected
  · split
    · exact keeps_ctxError _ _ hk
    · exact k_corrected
  · split
    · exact k_corrected
    · split
      · exact k_corrected
      · split
        · exact keeps_ringUnc _ _ hk
        · exact keeps_fault _ _ _ _ hk

@[simp] theorem keeps_uncCatwalk {s0 s : State} (idx : Nat) (hk : Keeps s0 s) :
    Keeps s0 (State.uncCatwalk s idx) := by
  unfold State.uncCatwalk
  extract_lets k s1 p
  have k_s1 : Keeps s0 s1 := keeps_logCorr _ (keeps_sysCount _ hk)
  have k_p : Keeps s0 p.snd := keeps_readTime k_s1
  clear_value s1
  split
  next off _ =>
    have g : s0.cntOk = true → FMap.wf 0 (FMap.set 0 s1.cnt48 off 0) = true := fun g => FMap.wf_set _ _ _ _ (k_s1.cnt g)
    exact keeps_setRbit _ _ _ ⟨k_s1.pending, k_s1.part, k_s1.free, k_s1.mem, k_s1.regs, g⟩
  · split
    · exact keeps_traceLose _ _ _ _ k_p
    · exact k_s1

@[simp] theorem keeps_scrubUnc {s0 s : State} (a : Nat) (inst : Nat) (idx : Nat) (own : CodeOwner) (hk : Keeps s0 s) :
    Keeps s0 (State.scrubUnc s a inst idx own) := by
  unfold State.scrubUnc
  extract_lets s1
  have k_s1 : Keeps s0 s1 := keeps_satAdd _ _ hk
  split
  · exact keeps_logCorr _ k_s1
  · exact keeps_logCorr _ k_s1
  · split
    · exact keeps_uncOwned _ _ _ _ (keeps_setRbit _ _ _ k_s1)
    · exact keeps_logCorr _ (keeps_setRbit _ _ _ k_s1)
  · exact keeps_fatal _ _ k_s1
  · exact keeps_fatal _ _ k_s1
  · exact keeps_uncCatwalk _ k_s1
  · split
    · exact keeps_fatal _ _ k_s1
    · exact keeps_uncOwned _ _ _ _ k_s1
  · exact keeps_uncOwned _ _ _ _ k_s1

@[simp] theorem keeps_readWord {s0 s : State} (a : Nat) (inst : Nat) (idx : Nat) (n : Nat) (own : CodeOwner) (hk : Keeps s0 s) :
    Keeps s0 (State.readWord s a inst idx n own) := by
  unfold State.readWord
  extract_lets x fixed bad s1
  have hf : ∀ t, Keeps s0 t → Keeps s0 (fixed t) := fun t ht => keeps_arrayWrite _ (keeps_logCorr _ (keeps_satAdd _ _ ht))
  have hb : ∀ t, Keeps s0 t → Keeps s0 (bad t) := fun t ht => keeps_arrayWrite _ (keeps_scrubUnc _ _ _ _ ht)
  have k_s1 : Keeps s0 s1 := Keeps.take hk
  split
  · exact hk
  · split
    · exact hf _ hk
    · split
      · exact hb _ hk
      · split
        · exact k_s1
        · exact hf _ k_s1
        · exact hb _ k_s1

@[simp] theorem keeps_writePop {s0 s : State} (w : Nat) (hk : Keeps s0 s) :
    Keeps s0 (State.writePop s w) := by
  unfold State.writePop
  split
  · exact Keeps.upd hk
  · exact hk

@[simp] theorem keeps_writeFirstClr {s0 s : State} (w : Nat) (hk : Keeps s0 s) :
    Keeps s0 (State.writeFirstClr s w) := by
  unfold State.writeFirstClr
  split
  · exact keeps_setRbit _ _ _ (keeps_setRegs _ _ hk)
  · exact hk

@[simp] theorem keeps_writeInject {s0 s : State} (w : Nat) (hk : Keeps s0 s) :
    Keeps s0 (State.writeInject s w) := by
  unfold State.writeInject
  extract_lets arm
  exact keeps_setReg _ _ hk

@[simp] theorem keeps_writeErrCtl {s0 s : State} (w : Nat) (hk : Keeps s0 s) :
    Keeps s0 (State.writeErrCtl s w) := by
  unfold State.writeErrCtl
  extract_lets o i t
  exact keeps_setReg _ _ hk

-- Boot.lean

@[simp] theorem keeps_bootBegin {s0 s : State} (hk : Keeps s0 s) :
    Keeps s0 (State.bootBegin s) := by
  unfold State.bootBegin
  split
  · exact keeps_setRf _ _ _ _ hk
  · extract_lets b x s1
    have k_s1 : Keeps s0 s1 := Keeps.upd hk
    exact keeps_setRf _ _ _ _ k_s1

@[simp] theorem keeps_bootErr8 {s0 s : State} (hk : Keeps s0 s) :
    Keeps s0 (State.bootErr8 s) := by
  unfold State.bootErr8
  split
  · exact keeps_setRf _ _ _ _ hk
  · exact hk

@[simp] theorem keeps_writeBootCtl {s0 s : State} (w : Nat) (hk : Keeps s0 s) :
    Keeps s0 (State.writeBootCtl s w) := by
  unfold State.writeBootCtl
  extract_lets s1 st s2 src x s21'
  have k_s1 : Keeps s0 s1 := keeps_setRf _ _ _ _ hk
  have k_s2 : Keeps s0 s2 := by
    unfold s2
    split
    · exact keeps_bootFail _ k_s1
    · split
      · exact keeps_setRf _ _ _ _ k_s1
      · exact k_s1
  have k_s21' : Keeps s0 s21' := Keeps.upd k_s1
  split
  · split
    · exact keeps_bootErr8 k_s2
    · exact k_s2
  · split
    · exact k_s1
    · split
      · split
        · exact keeps_setRf _ _ _ _ (keeps_latch _ k_s1)
        · exact k_s1
      · split
        · split
          · exact k_s1
          · exact keeps_setRf _ _ _ _ (keeps_latch _ k_s21')
        · exact keeps_bootErr8 k_s1

@[simp] theorem keeps_writeBootData {s0 s : State} (w : Nat) (hk : Keeps s0 s) :
    Keeps s0 (State.writeBootData s w) := by
  unfold State.writeBootData
  extract_lets st x
  split
  · split
    · exact keeps_bootErr8 hk
    · exact Keeps.upd hk
  · split
    · exact keeps_bootErr8 hk
    · exact hk

@[simp] theorem keeps_rebuildPool {s0 s : State} (p : Nat) (hk : Keeps s0 s) :
    Keeps s0 (State.rebuildPool s p) := by
  unfold State.rebuildPool
  extract_lets n free s1 s2
  have k_s1 : Keeps s0 s1 := Keeps.foldl (fun t a kt => keeps_setBufWord _ _ _ kt) _ hk
  have k_s2 : Keeps s0 s2 := Keeps.foldl (fun t1' a1' kt1' => keeps_wr32 _ _ kt1') _ k_s1
  exact keeps_setReg _ _ k_s2

@[simp] theorem keeps_stagedTrace {s0 s : State} (hk : Keeps s0 s) :
    Keeps s0 (State.stagedTrace s) := by
  unfold State.stagedTrace
  split
  · exact keeps_rerouted hk
  · exact Keeps.upd hk

@[simp] theorem keeps_writePace {s0 s : State} (w : Nat) (hk : Keeps s0 s) :
    Keeps s0 (State.writePace s w) := by
  unfold State.writePace
  extract_lets o b c
  exact keeps_setReg _ _ hk

-- Access.lean

@[simp] theorem keeps_writePlain {s0 s : State} (off : Nat) (w : Nat) (hk : Keeps s0 s) :
    Keeps s0 (State.writePlain s off w) := by
  unfold State.writePlain
  split
  · exact keeps_setReg _ _ hk
  · exact hk

@[simp] theorem keeps_writeLocked {s0 s : State} (lock : Bool) (off : Nat) (w : Nat) (hk : Keeps s0 s) :
    Keeps s0 (State.writeLocked s lock off w) := by
  unfold State.writeLocked
  split
  · exact hk
  · exact keeps_writePlain _ _ hk

@[simp] theorem keeps_writeRange {s0 s : State} (off : Nat) (w : Nat) (hi : Nat) (lo : Nat) (a : Nat) (b : Nat) (hk : Keeps s0 s) :
    Keeps s0 (State.writeRange s off w hi lo a b) := by
  unfold State.writeRange
  split
  · exact keeps_writePlain _ _ hk
  · exact hk

@[simp] theorem keeps_writeMapCtx {s0 s : State} (c : Nat) (off : Nat) (w : Nat) (hk : Keeps s0 s) :
    Keeps s0 (State.writeMapCtx s c off w) := by
  unfold State.writeMapCtx
  split
  · exact hk
  · split
    · split
      · exact keeps_setRbit _ _ _ hk
      · exact keeps_writePlain _ _ hk
    · split
      · exact keeps_setRbit _ _ _ hk
      · exact keeps_writePlain _ _ hk

@[simp] theorem keeps_writeFabCtl {s0 s : State} (c : Nat) (w : Nat) (hk : Keeps s0 s) :
    Keeps s0 (State.writeFabCtl s c w) := by
  unfold State.writeFabCtl
  extract_lets k o session s1 s2
  have k_s1 : Keeps s0 s1 := keeps_setReg _ _ hk
  have k_s2 : Keeps s0 s2 := Keeps.upd k_s1
  split
  · exact keeps_txPump k_s2
  · exact k_s1

@[simp] theorem keeps_writeTrigCtl {s0 s : State} (w : Nat) (hk : Keeps s0 s) :
    Keeps s0 (State.writeTrigCtl s w) := by
  unfold State.writeTrigCtl
  split
  · exact hk
  · exact keeps_writePlain _ _ hk

@[simp] theorem keeps_writeEvq {s0 s : State} (e : Nat) (r : Nat) (window : Bool) (w : Nat) (hk : Keeps s0 s) :
    Keeps s0 (State.writeEvq s e r window w) := by
  unfold State.writeEvq
  extract_lets k n s1
  have k_s1 : Keeps s0 s1 := by
    unfold s1
    split
    · exact Keeps.upd hk
    · exact hk
  split
  · exact hk
  · split
    · exact keeps_writeLocked _ _ _ hk
    · split
      · exact keeps_evThresh _ (keeps_writePlain _ _ k_s1)
      · split
        · exact keeps_writeEvCtl _ _ hk
        · split
          · exact keeps_writeEvRd _ _ hk
          · split
            · exact keeps_writeEvStatus _ _ hk
            · exact hk

@[simp] theorem keeps_writeWindow {s0 s : State} (c : Nat) (r : Nat) (w : Nat) (hk : Keeps s0 s) :
    Keeps s0 (State.writeWindow s c r w) := by
  unfold State.writeWindow
  extract_lets off fab
  repeat' with_reducible refine Keeps.ite (fun _ => ?_) (fun _ => ?_)
  all_goals with_reducible first
    | exact hk
    | exact keeps_doorbell _ _ _ hk
    | exact keeps_writeLocked _ _ _ hk
    | exact keeps_writePlain _ _ hk
    | exact keeps_writeRange _ _ _ _ _ _ hk
    | exact keeps_txPump (keeps_writeRange _ _ _ _ _ _ hk)
    | exact keeps_writeFabCtl _ _ hk
    | exact keeps_writeFloor _ _ hk
    | exact keeps_writeCasReq _ _ hk
    | exact keeps_writeCasFree _ _ hk
    | exact keeps_writeCasRef _ _ hk
    | exact keeps_writeEvq _ _ _ _ hk

@[simp] theorem keeps_writeBlock {s0 s : State} (off : Nat) (w : Nat) (hk : Keeps s0 s) :
    Keeps s0 (State.writeBlock s off w) := by
  unfold State.writeBlock
  repeat' with_reducible refine Keeps.ite (fun _ => ?_) (fun _ => ?_)
  all_goals first | exact hk | simp [hk]

@[simp] theorem keeps_writeReg {s0 s : State} (off : Nat) (w : Nat) (hk : Keeps s0 s) :
    Keeps s0 (State.writeReg s off w) := by
  unfold State.writeReg
  split
  · exact keeps_writeWindow _ _ _ hk
  · exact keeps_writeBlock _ _ hk

@[simp] theorem keeps_ctlRead {s0 s : State} (off : Nat) (priv : Bool) (f : State → State) (hf : ∀ t, Keeps s0 t → Keeps s0 (f t)) (hk : Keeps s0 s) :
    Keeps s0 (State.ctlRead s off priv f) := by
  unfold State.ctlRead
  split
  · exact hk
  · extract_lets s01'
    have k_s01' : Keeps s0 s01' := keeps_ctlBegin hk
    split
    · exact keeps_sysCount _ k_s01'
    · split
      · exact k_s01'
      · exact hf _ (Keeps.upd k_s01')

end Sys2Proof.Machine
end

