-- ==== Sys2Proof/Laws/State.lean ====
section
/-! SUPPORT. What each update of the state leaves alone: a register write, the advance of a 48-bit counter, a byte written
to memory and an update of a queue, field by field. -/
namespace Sys2Proof.Machine

@[simp] theorem State.pending_setReg (s : State) (a v : Nat) : (s.setReg a v).pending = s.pending := rfl
@[simp] theorem State.part_setReg (s : State) (a v : Nat) : (s.setReg a v).part = s.part := rfl
@[simp] theorem State.mem_setReg (s : State) (a v : Nat) : (s.setReg a v).mem = s.mem := rfl
@[simp] theorem State.cnt48_setReg (s : State) (a v : Nat) : (s.setReg a v).cnt48 = s.cnt48 := rfl
@[simp] theorem State.energyRem_setReg (s : State) (a v : Nat) : (s.setReg a v).energyRem = s.energyRem := rfl
@[simp] theorem State.hiLatch_setReg (s : State) (a v : Nat) : (s.setReg a v).hiLatch = s.hiLatch := rfl
@[simp] theorem State.lat_setReg (s : State) (a v : Nat) : (s.setReg a v).lat = s.lat := rfl
@[simp] theorem State.queues_setReg (s : State) (a v : Nat) : (s.setReg a v).queues = s.queues := rfl
@[simp] theorem State.jobs_setReg (s : State) (a v : Nat) : (s.setReg a v).jobs = s.jobs := rfl
@[simp] theorem State.regions_setReg (s : State) (a v : Nat) : (s.setReg a v).regions = s.regions := rfl
@[simp] theorem State.regWait_setReg (s : State) (a v : Nat) : (s.setReg a v).regWait = s.regWait := rfl
@[simp] theorem State.mapLines_setReg (s : State) (a v : Nat) : (s.setReg a v).mapLines = s.mapLines := rfl
@[simp] theorem State.tapRuns_setReg (s : State) (a v : Nat) : (s.setReg a v).tapRuns = s.tapRuns := rfl
@[simp] theorem State.exch_setReg (s : State) (a v : Nat) : (s.setReg a v).exch = s.exch := rfl
@[simp] theorem State.rets_setReg (s : State) (a v : Nat) : (s.setReg a v).rets = s.rets := rfl
@[simp] theorem State.fed_setReg (s : State) (a v : Nat) : (s.setReg a v).fed = s.fed := rfl
@[simp] theorem State.refs_setReg (s : State) (a v : Nat) : (s.setReg a v).refs = s.refs := rfl
@[simp] theorem State.tx_setReg (s : State) (a v : Nat) : (s.setReg a v).tx = s.tx := rfl
@[simp] theorem State.hellos_setReg (s : State) (a v : Nat) : (s.setReg a v).hellos = s.hellos := rfl
@[simp] theorem State.net_setReg (s : State) (a v : Nat) : (s.setReg a v).net = s.net := rfl
@[simp] theorem State.landings_setReg (s : State) (a v : Nat) : (s.setReg a v).landings = s.landings := rfl
@[simp] theorem State.landNo_setReg (s : State) (a v : Nat) : (s.setReg a v).landNo = s.landNo := rfl
@[simp] theorem State.feeds_setReg (s : State) (a v : Nat) : (s.setReg a v).feeds = s.feeds := rfl
@[simp] theorem State.arms_setReg (s : State) (a v : Nat) : (s.setReg a v).arms = s.arms := rfl
@[simp] theorem State.feedOut_setReg (s : State) (a v : Nat) : (s.setReg a v).feedOut = s.feedOut := rfl
@[simp] theorem State.tap_setReg (s : State) (a v : Nat) : (s.setReg a v).tap = s.tap := rfl
@[simp] theorem State.rings_setReg (s : State) (a v : Nat) : (s.setReg a v).rings = s.rings := rfl
@[simp] theorem State.ringCtl_setReg (s : State) (a v : Nat) : (s.setReg a v).ringCtl = s.ringCtl := rfl
@[simp] theorem State.leads_setReg (s : State) (a v : Nat) : (s.setReg a v).leads = s.leads := rfl
@[simp] theorem State.aborts_setReg (s : State) (a v : Nat) : (s.setReg a v).aborts = s.aborts := rfl
@[simp] theorem State.barriers_setReg (s : State) (a v : Nat) : (s.setReg a v).barriers = s.barriers := rfl
@[simp] theorem State.digests_setReg (s : State) (a v : Nat) : (s.setReg a v).digests = s.digests := rfl
@[simp] theorem State.fu_setReg (s : State) (a v : Nat) : (s.setReg a v).fu = s.fu := rfl
@[simp] theorem State.biasW_setReg (s : State) (a v : Nat) : (s.setReg a v).biasW = s.biasW := rfl
@[simp] theorem State.saves_setReg (s : State) (a v : Nat) : (s.setReg a v).saves = s.saves := rfl
@[simp] theorem State.err_setReg (s : State) (a v : Nat) : (s.setReg a v).err = s.err := rfl
@[simp] theorem State.cw_setReg (s : State) (a v : Nat) : (s.setReg a v).cw = s.cw := rfl
@[simp] theorem State.boot_setReg (s : State) (a v : Nat) : (s.setReg a v).boot = s.boot := rfl
@[simp] theorem State.rst_setReg (s : State) (a v : Nat) : (s.setReg a v).rst = s.rst := rfl
@[simp] theorem State.pace_setReg (s : State) (a v : Nat) : (s.setReg a v).pace = s.pace := rfl
@[simp] theorem State.ctl_setReg (s : State) (a v : Nat) : (s.setReg a v).ctl = s.ctl := rfl
@[simp] theorem State.fatalPin_setReg (s : State) (a v : Nat) : (s.setReg a v).fatalPin = s.fatalPin := rfl
@[simp] theorem State.refclk_setReg (s : State) (a v : Nat) : (s.setReg a v).refclk = s.refclk := rfl
@[simp] theorem State.ftime_setReg (s : State) (a v : Nat) : (s.setReg a v).ftime = s.ftime := rfl
@[simp] theorem State.arb_setReg (s : State) (a v : Nat) : (s.setReg a v).arb = s.arb := rfl
@[simp] theorem State.ticks_setReg (s : State) (a v : Nat) : (s.setReg a v).ticks = s.ticks := rfl
@[simp] theorem State.dcache_setReg (s : State) (a v : Nat) : (s.setReg a v).dcache = s.dcache := rfl
@[simp] theorem State.evHeld_setReg (s : State) (a v : Nat) : (s.setReg a v).evHeld = s.evHeld := rfl
@[simp] theorem State.evNew_setReg (s : State) (a v : Nat) : (s.setReg a v).evNew = s.evNew := rfl
@[simp] theorem State.casPend_setReg (s : State) (a v : Nat) : (s.setReg a v).casPend = s.casPend := rfl
@[simp] theorem State.reclaims_setReg (s : State) (a v : Nat) : (s.setReg a v).reclaims = s.reclaims := rfl
@[simp] theorem State.free_setReg (s : State) (a v : Nat) : (s.setReg a v).free = s.free := rfl

@[simp] theorem State.pending_cntAdd (s : State) (a n : Nat) : (s.cntAdd a n).pending = s.pending := rfl
@[simp] theorem State.part_cntAdd (s : State) (a n : Nat) : (s.cntAdd a n).part = s.part := rfl
@[simp] theorem State.mem_cntAdd (s : State) (a n : Nat) : (s.cntAdd a n).mem = s.mem := rfl
@[simp] theorem State.regs_cntAdd (s : State) (a n : Nat) : (s.cntAdd a n).regs = s.regs := rfl
@[simp] theorem State.energyRem_cntAdd (s : State) (a n : Nat) : (s.cntAdd a n).energyRem = s.energyRem := rfl
@[simp] theorem State.hiLatch_cntAdd (s : State) (a n : Nat) : (s.cntAdd a n).hiLatch = s.hiLatch := rfl
@[simp] theorem State.lat_cntAdd (s : State) (a n : Nat) : (s.cntAdd a n).lat = s.lat := rfl
@[simp] theorem State.queues_cntAdd (s : State) (a n : Nat) : (s.cntAdd a n).queues = s.queues := rfl
@[simp] theorem State.jobs_cntAdd (s : State) (a n : Nat) : (s.cntAdd a n).jobs = s.jobs := rfl
@[simp] theorem State.regions_cntAdd (s : State) (a n : Nat) : (s.cntAdd a n).regions = s.regions := rfl
@[simp] theorem State.regWait_cntAdd (s : State) (a n : Nat) : (s.cntAdd a n).regWait = s.regWait := rfl
@[simp] theorem State.mapLines_cntAdd (s : State) (a n : Nat) : (s.cntAdd a n).mapLines = s.mapLines := rfl
@[simp] theorem State.tapRuns_cntAdd (s : State) (a n : Nat) : (s.cntAdd a n).tapRuns = s.tapRuns := rfl
@[simp] theorem State.exch_cntAdd (s : State) (a n : Nat) : (s.cntAdd a n).exch = s.exch := rfl
@[simp] theorem State.rets_cntAdd (s : State) (a n : Nat) : (s.cntAdd a n).rets = s.rets := rfl
@[simp] theorem State.fed_cntAdd (s : State) (a n : Nat) : (s.cntAdd a n).fed = s.fed := rfl
@[simp] theorem State.refs_cntAdd (s : State) (a n : Nat) : (s.cntAdd a n).refs = s.refs := rfl
@[simp] theorem State.tx_cntAdd (s : State) (a n : Nat) : (s.cntAdd a n).tx = s.tx := rfl
@[simp] theorem State.hellos_cntAdd (s : State) (a n : Nat) : (s.cntAdd a n).hellos = s.hellos := rfl
@[simp] theorem State.net_cntAdd (s : State) (a n : Nat) : (s.cntAdd a n).net = s.net := rfl
@[simp] theorem State.landings_cntAdd (s : State) (a n : Nat) : (s.cntAdd a n).landings = s.landings := rfl
@[simp] theorem State.landNo_cntAdd (s : State) (a n : Nat) : (s.cntAdd a n).landNo = s.landNo := rfl
@[simp] theorem State.feeds_cntAdd (s : State) (a n : Nat) : (s.cntAdd a n).feeds = s.feeds := rfl
@[simp] theorem State.arms_cntAdd (s : State) (a n : Nat) : (s.cntAdd a n).arms = s.arms := rfl
@[simp] theorem State.feedOut_cntAdd (s : State) (a n : Nat) : (s.cntAdd a n).feedOut = s.feedOut := rfl
@[simp] theorem State.tap_cntAdd (s : State) (a n : Nat) : (s.cntAdd a n).tap = s.tap := rfl
@[simp] theorem State.rings_cntAdd (s : State) (a n : Nat) : (s.cntAdd a n).rings = s.rings := rfl
@[simp] theorem State.ringCtl_cntAdd (s : State) (a n : Nat) : (s.cntAdd a n).ringCtl = s.ringCtl := rfl
@[simp] theorem State.leads_cntAdd (s : State) (a n : Nat) : (s.cntAdd a n).leads = s.leads := rfl
@[simp] theorem State.aborts_cntAdd (s : State) (a n : Nat) : (s.cntAdd a n).aborts = s.aborts := rfl
@[simp] theorem State.barriers_cntAdd (s : State) (a n : Nat) : (s.cntAdd a n).barriers = s.barriers := rfl
@[simp] theorem State.digests_cntAdd (s : State) (a n : Nat) : (s.cntAdd a n).digests = s.digests := rfl
@[simp] theorem State.fu_cntAdd (s : State) (a n : Nat) : (s.cntAdd a n).fu = s.fu := rfl
@[simp] theorem State.biasW_cntAdd (s : State) (a n : Nat) : (s.cntAdd a n).biasW = s.biasW := rfl
@[simp] theorem State.saves_cntAdd (s : State) (a n : Nat) : (s.cntAdd a n).saves = s.saves := rfl
@[simp] theorem State.err_cntAdd (s : State) (a n : Nat) : (s.cntAdd a n).err = s.err := rfl
@[simp] theorem State.cw_cntAdd (s : State) (a n : Nat) : (s.cntAdd a n).cw = s.cw := rfl
@[simp] theorem State.boot_cntAdd (s : State) (a n : Nat) : (s.cntAdd a n).boot = s.boot := rfl
@[simp] theorem State.rst_cntAdd (s : State) (a n : Nat) : (s.cntAdd a n).rst = s.rst := rfl
@[simp] theorem State.pace_cntAdd (s : State) (a n : Nat) : (s.cntAdd a n).pace = s.pace := rfl
@[simp] theorem State.ctl_cntAdd (s : State) (a n : Nat) : (s.cntAdd a n).ctl = s.ctl := rfl
@[simp] theorem State.fatalPin_cntAdd (s : State) (a n : Nat) : (s.cntAdd a n).fatalPin = s.fatalPin := rfl
@[simp] theorem State.refclk_cntAdd (s : State) (a n : Nat) : (s.cntAdd a n).refclk = s.refclk := rfl
@[simp] theorem State.ftime_cntAdd (s : State) (a n : Nat) : (s.cntAdd a n).ftime = s.ftime := rfl
@[simp] theorem State.arb_cntAdd (s : State) (a n : Nat) : (s.cntAdd a n).arb = s.arb := rfl
@[simp] theorem State.ticks_cntAdd (s : State) (a n : Nat) : (s.cntAdd a n).ticks = s.ticks := rfl
@[simp] theorem State.dcache_cntAdd (s : State) (a n : Nat) : (s.cntAdd a n).dcache = s.dcache := rfl
@[simp] theorem State.evHeld_cntAdd (s : State) (a n : Nat) : (s.cntAdd a n).evHeld = s.evHeld := rfl
@[simp] theorem State.evNew_cntAdd (s : State) (a n : Nat) : (s.cntAdd a n).evNew = s.evNew := rfl
@[simp] theorem State.casPend_cntAdd (s : State) (a n : Nat) : (s.cntAdd a n).casPend = s.casPend := rfl
@[simp] theorem State.reclaims_cntAdd (s : State) (a n : Nat) : (s.cntAdd a n).reclaims = s.reclaims := rfl
@[simp] theorem State.free_cntAdd (s : State) (a n : Nat) : (s.cntAdd a n).free = s.free := rfl

@[simp] theorem State.pending_wr8 (s : State) (a : Nat) (b : Byte) : (s.wr8 a b).pending = s.pending := rfl
@[simp] theorem State.part_wr8 (s : State) (a : Nat) (b : Byte) : (s.wr8 a b).part = s.part := rfl
@[simp] theorem State.regs_wr8 (s : State) (a : Nat) (b : Byte) : (s.wr8 a b).regs = s.regs := rfl
@[simp] theorem State.cnt48_wr8 (s : State) (a : Nat) (b : Byte) : (s.wr8 a b).cnt48 = s.cnt48 := rfl
@[simp] theorem State.energyRem_wr8 (s : State) (a : Nat) (b : Byte) : (s.wr8 a b).energyRem = s.energyRem := rfl
@[simp] theorem State.hiLatch_wr8 (s : State) (a : Nat) (b : Byte) : (s.wr8 a b).hiLatch = s.hiLatch := rfl
@[simp] theorem State.lat_wr8 (s : State) (a : Nat) (b : Byte) : (s.wr8 a b).lat = s.lat := rfl
@[simp] theorem State.queues_wr8 (s : State) (a : Nat) (b : Byte) : (s.wr8 a b).queues = s.queues := rfl
@[simp] theorem State.jobs_wr8 (s : State) (a : Nat) (b : Byte) : (s.wr8 a b).jobs = s.jobs := rfl
@[simp] theorem State.regions_wr8 (s : State) (a : Nat) (b : Byte) : (s.wr8 a b).regions = s.regions := rfl
@[simp] theorem State.regWait_wr8 (s : State) (a : Nat) (b : Byte) : (s.wr8 a b).regWait = s.regWait := rfl
@[simp] theorem State.mapLines_wr8 (s : State) (a : Nat) (b : Byte) : (s.wr8 a b).mapLines = s.mapLines := rfl
@[simp] theorem State.tapRuns_wr8 (s : State) (a : Nat) (b : Byte) : (s.wr8 a b).tapRuns = s.tapRuns := rfl
@[simp] theorem State.exch_wr8 (s : State) (a : Nat) (b : Byte) : (s.wr8 a b).exch = s.exch := rfl
@[simp] theorem State.rets_wr8 (s : State) (a : Nat) (b : Byte) : (s.wr8 a b).rets = s.rets := rfl
@[simp] theorem State.fed_wr8 (s : State) (a : Nat) (b : Byte) : (s.wr8 a b).fed = s.fed := rfl
@[simp] theorem State.refs_wr8 (s : State) (a : Nat) (b : Byte) : (s.wr8 a b).refs = s.refs := rfl
@[simp] theorem State.tx_wr8 (s : State) (a : Nat) (b : Byte) : (s.wr8 a b).tx = s.tx := rfl
@[simp] theorem State.hellos_wr8 (s : State) (a : Nat) (b : Byte) : (s.wr8 a b).hellos = s.hellos := rfl
@[simp] theorem State.net_wr8 (s : State) (a : Nat) (b : Byte) : (s.wr8 a b).net = s.net := rfl
@[simp] theorem State.landings_wr8 (s : State) (a : Nat) (b : Byte) : (s.wr8 a b).landings = s.landings := rfl
@[simp] theorem State.landNo_wr8 (s : State) (a : Nat) (b : Byte) : (s.wr8 a b).landNo = s.landNo := rfl
@[simp] theorem State.feeds_wr8 (s : State) (a : Nat) (b : Byte) : (s.wr8 a b).feeds = s.feeds := rfl
@[simp] theorem State.arms_wr8 (s : State) (a : Nat) (b : Byte) : (s.wr8 a b).arms = s.arms := rfl
@[simp] theorem State.feedOut_wr8 (s : State) (a : Nat) (b : Byte) : (s.wr8 a b).feedOut = s.feedOut := rfl
@[simp] theorem State.tap_wr8 (s : State) (a : Nat) (b : Byte) : (s.wr8 a b).tap = s.tap := rfl
@[simp] theorem State.rings_wr8 (s : State) (a : Nat) (b : Byte) : (s.wr8 a b).rings = s.rings := rfl
@[simp] theorem State.ringCtl_wr8 (s : State) (a : Nat) (b : Byte) : (s.wr8 a b).ringCtl = s.ringCtl := rfl
@[simp] theorem State.leads_wr8 (s : State) (a : Nat) (b : Byte) : (s.wr8 a b).leads = s.leads := rfl
@[simp] theorem State.aborts_wr8 (s : State) (a : Nat) (b : Byte) : (s.wr8 a b).aborts = s.aborts := rfl
@[simp] theorem State.barriers_wr8 (s : State) (a : Nat) (b : Byte) : (s.wr8 a b).barriers = s.barriers := rfl
@[simp] theorem State.digests_wr8 (s : State) (a : Nat) (b : Byte) : (s.wr8 a b).digests = s.digests := rfl
@[simp] theorem State.fu_wr8 (s : State) (a : Nat) (b : Byte) : (s.wr8 a b).fu = s.fu := rfl
@[simp] theorem State.biasW_wr8 (s : State) (a : Nat) (b : Byte) : (s.wr8 a b).biasW = s.biasW := rfl
@[simp] theorem State.saves_wr8 (s : State) (a : Nat) (b : Byte) : (s.wr8 a b).saves = s.saves := rfl
@[simp] theorem State.err_wr8 (s : State) (a : Nat) (b : Byte) : (s.wr8 a b).err = s.err := rfl
@[simp] theorem State.cw_wr8 (s : State) (a : Nat) (b : Byte) : (s.wr8 a b).cw = s.cw := rfl
@[simp] theorem State.boot_wr8 (s : State) (a : Nat) (b : Byte) : (s.wr8 a b).boot = s.boot := rfl
@[simp] theorem State.rst_wr8 (s : State) (a : Nat) (b : Byte) : (s.wr8 a b).rst = s.rst := rfl
@[simp] theorem State.pace_wr8 (s : State) (a : Nat) (b : Byte) : (s.wr8 a b).pace = s.pace := rfl
@[simp] theorem State.ctl_wr8 (s : State) (a : Nat) (b : Byte) : (s.wr8 a b).ctl = s.ctl := rfl
@[simp] theorem State.fatalPin_wr8 (s : State) (a : Nat) (b : Byte) : (s.wr8 a b).fatalPin = s.fatalPin := rfl
@[simp] theorem State.refclk_wr8 (s : State) (a : Nat) (b : Byte) : (s.wr8 a b).refclk = s.refclk := rfl
@[simp] theorem State.ftime_wr8 (s : State) (a : Nat) (b : Byte) : (s.wr8 a b).ftime = s.ftime := rfl
@[simp] theorem State.arb_wr8 (s : State) (a : Nat) (b : Byte) : (s.wr8 a b).arb = s.arb := rfl
@[simp] theorem State.ticks_wr8 (s : State) (a : Nat) (b : Byte) : (s.wr8 a b).ticks = s.ticks := rfl
@[simp] theorem State.dcache_wr8 (s : State) (a : Nat) (b : Byte) : (s.wr8 a b).dcache = s.dcache := rfl
@[simp] theorem State.evHeld_wr8 (s : State) (a : Nat) (b : Byte) : (s.wr8 a b).evHeld = s.evHeld := rfl
@[simp] theorem State.evNew_wr8 (s : State) (a : Nat) (b : Byte) : (s.wr8 a b).evNew = s.evNew := rfl
@[simp] theorem State.casPend_wr8 (s : State) (a : Nat) (b : Byte) : (s.wr8 a b).casPend = s.casPend := rfl
@[simp] theorem State.reclaims_wr8 (s : State) (a : Nat) (b : Byte) : (s.wr8 a b).reclaims = s.reclaims := rfl
@[simp] theorem State.free_wr8 (s : State) (a : Nat) (b : Byte) : (s.wr8 a b).free = s.free := rfl

@[simp] theorem State.pending_setQueue (s : State) (q : Nat) (x : Queue) : (s.setQueue q x).pending = s.pending := rfl
@[simp] theorem State.part_setQueue (s : State) (q : Nat) (x : Queue) : (s.setQueue q x).part = s.part := rfl
@[simp] theorem State.mem_setQueue (s : State) (q : Nat) (x : Queue) : (s.setQueue q x).mem = s.mem := rfl
@[simp] theorem State.regs_setQueue (s : State) (q : Nat) (x : Queue) : (s.setQueue q x).regs = s.regs := rfl
@[simp] theorem State.cnt48_setQueue (s : State) (q : Nat) (x : Queue) : (s.setQueue q x).cnt48 = s.cnt48 := rfl
@[simp] theorem State.energyRem_setQueue (s : State) (q : Nat) (x : Queue) : (s.setQueue q x).energyRem = s.energyRem := rfl
@[simp] theorem State.hiLatch_setQueue (s : State) (q : Nat) (x : Queue) : (s.setQueue q x).hiLatch = s.hiLatch := rfl
@[simp] theorem State.lat_setQueue (s : State) (q : Nat) (x : Queue) : (s.setQueue q x).lat = s.lat := rfl
@[simp] theorem State.jobs_setQueue (s : State) (q : Nat) (x : Queue) : (s.setQueue q x).jobs = s.jobs := rfl
@[simp] theorem State.regions_setQueue (s : State) (q : Nat) (x : Queue) : (s.setQueue q x).regions = s.regions := rfl
@[simp] theorem State.regWait_setQueue (s : State) (q : Nat) (x : Queue) : (s.setQueue q x).regWait = s.regWait := rfl
@[simp] theorem State.mapLines_setQueue (s : State) (q : Nat) (x : Queue) : (s.setQueue q x).mapLines = s.mapLines := rfl
@[simp] theorem State.tapRuns_setQueue (s : State) (q : Nat) (x : Queue) : (s.setQueue q x).tapRuns = s.tapRuns := rfl
@[simp] theorem State.exch_setQueue (s : State) (q : Nat) (x : Queue) : (s.setQueue q x).exch = s.exch := rfl
@[simp] theorem State.rets_setQueue (s : State) (q : Nat) (x : Queue) : (s.setQueue q x).rets = s.rets := rfl
@[simp] theorem State.fed_setQueue (s : State) (q : Nat) (x : Queue) : (s.setQueue q x).fed = s.fed := rfl
@[simp] theorem State.refs_setQueue (s : State) (q : Nat) (x : Queue) : (s.setQueue q x).refs = s.refs := rfl
@[simp] theorem State.tx_setQueue (s : State) (q : Nat) (x : Queue) : (s.setQueue q x).tx = s.tx := rfl
@[simp] theorem State.hellos_setQueue (s : State) (q : Nat) (x : Queue) : (s.setQueue q x).hellos = s.hellos := rfl
@[simp] theorem State.net_setQueue (s : State) (q : Nat) (x : Queue) : (s.setQueue q x).net = s.net := rfl
@[simp] theorem State.landings_setQueue (s : State) (q : Nat) (x : Queue) : (s.setQueue q x).landings = s.landings := rfl
@[simp] theorem State.landNo_setQueue (s : State) (q : Nat) (x : Queue) : (s.setQueue q x).landNo = s.landNo := rfl
@[simp] theorem State.feeds_setQueue (s : State) (q : Nat) (x : Queue) : (s.setQueue q x).feeds = s.feeds := rfl
@[simp] theorem State.arms_setQueue (s : State) (q : Nat) (x : Queue) : (s.setQueue q x).arms = s.arms := rfl
@[simp] theorem State.feedOut_setQueue (s : State) (q : Nat) (x : Queue) : (s.setQueue q x).feedOut = s.feedOut := rfl
@[simp] theorem State.tap_setQueue (s : State) (q : Nat) (x : Queue) : (s.setQueue q x).tap = s.tap := rfl
@[simp] theorem State.rings_setQueue (s : State) (q : Nat) (x : Queue) : (s.setQueue q x).rings = s.rings := rfl
@[simp] theorem State.ringCtl_setQueue (s : State) (q : Nat) (x : Queue) : (s.setQueue q x).ringCtl = s.ringCtl := rfl
@[simp] theorem State.leads_setQueue (s : State) (q : Nat) (x : Queue) : (s.setQueue q x).leads = s.leads := rfl
@[simp] theorem State.aborts_setQueue (s : State) (q : Nat) (x : Queue) : (s.setQueue q x).aborts = s.aborts := rfl
@[simp] theorem State.barriers_setQueue (s : State) (q : Nat) (x : Queue) : (s.setQueue q x).barriers = s.barriers := rfl
@[simp] theorem State.digests_setQueue (s : State) (q : Nat) (x : Queue) : (s.setQueue q x).digests = s.digests := rfl
@[simp] theorem State.fu_setQueue (s : State) (q : Nat) (x : Queue) : (s.setQueue q x).fu = s.fu := rfl
@[simp] theorem State.biasW_setQueue (s : State) (q : Nat) (x : Queue) : (s.setQueue q x).biasW = s.biasW := rfl
@[simp] theorem State.saves_setQueue (s : State) (q : Nat) (x : Queue) : (s.setQueue q x).saves = s.saves := rfl
@[simp] theorem State.err_setQueue (s : State) (q : Nat) (x : Queue) : (s.setQueue q x).err = s.err := rfl
@[simp] theorem State.cw_setQueue (s : State) (q : Nat) (x : Queue) : (s.setQueue q x).cw = s.cw := rfl
@[simp] theorem State.boot_setQueue (s : State) (q : Nat) (x : Queue) : (s.setQueue q x).boot = s.boot := rfl
@[simp] theorem State.rst_setQueue (s : State) (q : Nat) (x : Queue) : (s.setQueue q x).rst = s.rst := rfl
@[simp] theorem State.pace_setQueue (s : State) (q : Nat) (x : Queue) : (s.setQueue q x).pace = s.pace := rfl
@[simp] theorem State.ctl_setQueue (s : State) (q : Nat) (x : Queue) : (s.setQueue q x).ctl = s.ctl := rfl
@[simp] theorem State.fatalPin_setQueue (s : State) (q : Nat) (x : Queue) : (s.setQueue q x).fatalPin = s.fatalPin := rfl
@[simp] theorem State.refclk_setQueue (s : State) (q : Nat) (x : Queue) : (s.setQueue q x).refclk = s.refclk := rfl
@[simp] theorem State.ftime_setQueue (s : State) (q : Nat) (x : Queue) : (s.setQueue q x).ftime = s.ftime := rfl
@[simp] theorem State.arb_setQueue (s : State) (q : Nat) (x : Queue) : (s.setQueue q x).arb = s.arb := rfl
@[simp] theorem State.ticks_setQueue (s : State) (q : Nat) (x : Queue) : (s.setQueue q x).ticks = s.ticks := rfl
@[simp] theorem State.dcache_setQueue (s : State) (q : Nat) (x : Queue) : (s.setQueue q x).dcache = s.dcache := rfl
@[simp] theorem State.evHeld_setQueue (s : State) (q : Nat) (x : Queue) : (s.setQueue q x).evHeld = s.evHeld := rfl
@[simp] theorem State.evNew_setQueue (s : State) (q : Nat) (x : Queue) : (s.setQueue q x).evNew = s.evNew := rfl
@[simp] theorem State.casPend_setQueue (s : State) (q : Nat) (x : Queue) : (s.setQueue q x).casPend = s.casPend := rfl
@[simp] theorem State.reclaims_setQueue (s : State) (q : Nat) (x : Queue) : (s.setQueue q x).reclaims = s.reclaims := rfl
@[simp] theorem State.free_setQueue (s : State) (q : Nat) (x : Queue) : (s.setQueue q x).free = s.free := rfl

end Sys2Proof.Machine
end

