-- ==== Sys2Proof/Laws/Mem.lean ====
section
/-! SUPPORT. Reading device memory after a write (R317, R393), what leaves memory alone, and what changes nothing but
memory and counters. -/
namespace Sys2Proof.Machine

-- reading after writing

theorem State.rd8_wr8 (s : State) (a b : Nat) (x : Byte) :
    (s.wr8 a x).rd8 b = if b % addrMod = a % addrMod then x else s.rd8 b := by
  simp only [State.rd8, State.wr8, FMap.get_set]

/-- A byte outside a write reads as before. -/
theorem State.rd8_wr_out (bs : List Byte) (s : State) (a b : Nat)
    (h : ∀ k, k < bs.length → (a + k) % addrMod ≠ b % addrMod) : (s.wr a bs).rd8 b = s.rd8 b := by
  induction bs generalizing s a with
  | nil => rfl
  | cons x bs ih =>
    rw [State.wr, ih, State.rd8_wr8, if_neg]
    · have := h 0 (by simp); simpa using fun h => this h.symm
    · intro k hk; have := h (k + 1) (by simp; omega); rwa [Nat.add_assoc, Nat.add_comm 1 k]

/-- Byte k of a write reads back, where no later byte of it has the same address. -/
theorem State.rd8_wr_in (bs : List Byte) (s : State) (a k : Nat) (x : Byte) (hk : bs[k]? = some x)
    (h : ∀ j, k < j → j < bs.length → (a + j) % addrMod ≠ (a + k) % addrMod) : (s.wr a bs).rd8 (a + k) = x := by
  induction bs generalizing s a k with
  | nil => simp at hk
  | cons y bs ih =>
    cases k with
    | zero =>
      simp only [List.getElem?_cons_zero, Option.some.injEq] at hk
      subst hk
      rw [State.wr, State.rd8_wr_out, State.rd8_wr8]; simp
      intro j hj; have := h (j + 1) (by omega) (by simp; omega); rwa [Nat.add_assoc, Nat.add_comm 1 j]
    | succ k =>
      rw [State.wr, show a + (k + 1) = a + 1 + k by omega]
      refine ih (s.wr8 a y) (a + 1) k (by simpa using hk) (fun j h1 h2 => ?_)
      have := h (j + 1) (by omega) (by simp; omega)
      rwa [show a + (j + 1) = a + 1 + j by omega, show a + (k + 1) = a + 1 + k by omega] at this

/-- Bytes that no write of a list touches read as before. -/
theorem State.rd8_puts_out (ws : List (Nat × List Byte)) (s : State) (a : Nat) (h : ¬ touches ws a) :
    (s.puts ws).rd8 a = s.rd8 a := by
  induction ws generalizing s with
  | nil => rfl
  | cons w ws ih =>
    obtain ⟨b, bs⟩ := w
    rw [State.puts, ih _ (fun ⟨w, hw, g⟩ => h ⟨w, List.mem_cons_of_mem _ hw, g⟩), State.rd8_wr_out]
    exact fun k hk hn => h ⟨(b, bs), by simp, k, hk, hn⟩

theorem State.puts_append (ws vs : List (Nat × List Byte)) (s : State) : s.puts (ws ++ vs) = (s.puts ws).puts vs := by
  induction ws generalizing s with
  | nil => rfl
  | cons w ws ih => exact ih _

/-- In a row that holds byte k, byte k + i of the byte string lies i bytes on (LINEAR). -/
theorem Desc.byteAt_add (d : Desc) (k i : Nat) (hl : d.layout = 0) (h : k % d.rowB + i < d.rowB) :
    d.byteAt (k + i) = d.byteAt k + i := by
  have h1 : (k + i) / d.rowB = k / d.rowB := by
    rw [← Nat.div_add_mod k d.rowB, Nat.add_assoc, Nat.mul_add_div (by omega), Nat.div_eq_of_lt h]
    rw [Nat.mul_add_div (by omega), Nat.div_eq_of_lt (Nat.mod_lt _ (by omega))]
  have h2 : (k + i) % d.rowB = k % d.rowB + i := by
    rw [← Nat.div_add_mod k d.rowB, Nat.add_assoc, Nat.mul_add_mod, Nat.mod_eq_of_lt h, Nat.mul_add_mod, Nat.mod_mod]
  simp only [Desc.byteAt, h1, h2, Desc.rowAt, Desc.at_, hl]; omega

/-- Every byte that a write into one row stores, and where. -/
theorem Desc.put_touch (d : Desc) (r : Nat) (bs : List Byte) (a : Nat) (hb : bs.length = d.rowB)
    (h : touches (d.put (r * d.rowB) bs) a) : ∃ o, o < d.rowB ∧ d.byteAt (r * d.rowB + o) % addrMod = a % addrMod := by
  obtain ⟨w, hw, k, hk, hn⟩ := h
  unfold Desc.put at hw
  split at hw
  · next hc =>
    simp only [List.mem_singleton] at hw; subst hw
    refine ⟨k, by simpa [hb] using hk, ?_⟩
    rw [d.byteAt_add _ _ hc.1 (by simp [hb] at hk; simpa using hk)]; exact hn
  · simp only [List.mem_map, List.mem_range] at hw
    obtain ⟨i, hi, rfl⟩ := hw
    simp at hk; subst hk
    exact ⟨i, by omega, by simpa using hn⟩

theorem touches_append (ws vs : List (Nat × List Byte)) (a : Nat) : touches (ws ++ vs) a ↔ touches ws a ∨ touches vs a := by
  constructor
  · rintro ⟨w, hw, h⟩
    rcases List.mem_append.1 hw with hw | hw
    · exact .inl ⟨w, hw, h⟩
    · exact .inr ⟨w, hw, h⟩
  · rintro (⟨w, hw, h⟩ | ⟨w, hw, h⟩)
    · exact ⟨w, List.mem_append.2 (.inl hw), h⟩
    · exact ⟨w, List.mem_append.2 (.inr hw), h⟩

/-- A write into one row stores its bytes where the byte string has them. -/
theorem State.rd8_put_in (s : State) (d : Desc) (r o : Nat) (bs : List Byte) (x : Byte) (hb : bs.length = d.rowB)
    (hx : bs[o]? = some x)
    (h : ∀ o', o' < d.rowB → o' ≠ o → d.byteAt (r * d.rowB + o') % addrMod ≠ d.byteAt (r * d.rowB + o) % addrMod) :
    (s.strWr d (r * d.rowB) bs).rd8 (d.byteAt (r * d.rowB + o)) = x := by
  have ho : o < bs.length := by
    rcases Nat.lt_or_ge o bs.length with h | h
    · exact h
    · simp [h] at hx
  unfold State.strWr Desc.put
  split
  · next hc =>
    have e (o' : Nat) (h' : o' < d.rowB) := d.byteAt_add (r * d.rowB) o' hc.1 (by simpa using h')
    rw [e o (by omega)]
    simp only [State.puts]
    refine State.rd8_wr_in bs s _ o x hx (fun j h1 h2 => ?_)
    have := h j (by omega) (by omega)
    rwa [e o (by omega), e j (by omega)] at this
  · obtain ⟨n, hn⟩ : ∃ n, n = bs.length := ⟨_, rfl⟩
    rw [← hn]
    have key : ∀ m, m ≤ n → o < m →
        (s.puts ((List.range m).map (fun i => (d.byteAt (r * d.rowB + i), [bs.getD i 0])))).rd8 (d.byteAt (r * d.rowB + o)) = x := by
      intro m hm hom
      induction m with
      | zero => omega
      | succ m ih =>
        rw [List.range_succ, List.map_append, State.puts_append]
        simp only [List.map_cons, List.map_nil, State.puts]
        by_cases ho' : m = o
        · subst ho'
          simp only [State.wr, State.rd8_wr8]
          simp [List.getD_eq_getElem?_getD, hx]
        · rw [State.rd8_wr_out _ _ _ _ (fun k hk => by
            simp at hk; subst hk; simpa using h m (by omega) ho')]
          exact ih (by omega) (by omega)
    exact key n (by omega) (by omega)

/-- Rows written one after the other. -/
theorem State.foldl_strWr (d : Desc) (row : Nat → List Byte) (l : List Nat) (s : State) :
    l.foldl (fun s r => s.strWr d (r * d.rowB) (row r)) s = s.puts (l.flatMap (fun r => d.put (r * d.rowB) (row r))) := by
  induction l generalizing s with
  | nil => rfl
  | cons r l ih => simp only [List.foldl_cons, List.flatMap_cons, State.puts_append, ih]; rfl

/-- After rows 0 to n - 1 have been written, a state with that memory holds them. -/
theorem holdsRows_puts (s u : State) (d : Desc) (n : Nat) (row : Nat → List Byte)
    (hu : ∀ a, u.rd8 a = (s.puts (d.rowsPut n row)).rd8 a) : HoldsRows u d n row := by
  intro hl r o x hr hx h
  rw [hu]
  have key : ∀ m, m ≤ n → r < m → (s.puts (d.rowsPut m row)).rd8 (d.byteAt (r * d.rowB + o)) = x := by
    intro m hm hrm
    induction m with
    | zero => omega
    | succ m ih =>
      unfold Desc.rowsPut
      rw [List.range_succ, List.flatMap_append, State.puts_append]
      simp only [List.flatMap_cons, List.flatMap_nil, List.append_nil]
      have ho : o < d.rowB := by
        rw [← hl r hr]
        rcases Nat.lt_or_ge o (row r).length with h | h
        · exact h
        · simp [h] at hx
      by_cases e : m = r
      · subst e
        exact State.rd8_put_in _ d m o _ x (hl m (by omega)) hx (fun o' h1 h2 => h m o' (by omega) h1 (by simp [h2]))
      · rw [State.rd8_puts_out]
        · exact ih (by omega) (by omega)
        · intro ht
          obtain ⟨o', h1, h2⟩ := d.put_touch m (row m) _ (hl m (by omega)) ht
          exact h m o' (by omega) h1 (by simp [e]) h2
  exact key n (Nat.le_refl _) hr

-- what leaves memory alone

theorem State.rd8_of_mem {s t : State} (h : t.mem = s.mem) (a : Nat) : t.rd8 a = s.rd8 a := by simp only [State.rd8, h]

@[simp] theorem State.mem_acct (s : State) (c k n : Nat) : (s.acct c k n).mem = s.mem := rfl
@[simp] theorem State.mem_energy (s : State) (c i n : Nat) : (s.energy c i n).mem = s.mem := rfl
theorem State.mem_setRbit (s : State) (o i : Nat) (b : Bool) : (s.setRbit o i b).mem = s.mem := s.mem_setReg _ _
theorem State.mem_ite (s t : State) (c : Prop) [Decidable c] (h : t.mem = s.mem) : (if c then t else s).mem = s.mem := by
  by_cases hc : c
  · rw [if_pos hc]; exact h
  · rw [if_neg hc]
@[simp] theorem State.mem_arrayWrite (s : State) (a : Nat) : (s.arrayWrite a).mem = s.mem := by
  unfold State.arrayWrite; exact s.mem_ite _ _ (s.mem_setRbit 0x1014 31 false)
@[simp] theorem State.mem_cwAdd (s : State) (a n : Nat) : (s.cwAdd a n).mem = s.mem := by simp [State.cwAdd]
@[simp] theorem State.mem_readTime (s : State) : s.readTime.2.mem = s.mem := rfl
@[simp] theorem State.mem_opCount (s : State) (o f n : Nat) : (s.opCount o f n).mem = s.mem := by
  unfold State.opCount
  simp only []
  split
  · rfl
  · split
    · simp
    · split <;> simp
@[simp] theorem State.mem_charge (s : State) (c : Nat) (l : List Nat) : (s.charge c l).mem = s.mem := by
  induction l generalizing s with
  | nil => rfl
  | cons k l ih => exact ih _
@[simp] theorem State.mem_chargeRows (s : State) (c k r n : Nat) (b : Bool) : (s.chargeRows c k r n b).mem = s.mem := rfl
@[simp] theorem State.mem_chargeReads (s : State) (c : Nat) (l : List (Nat × Nat × Bool)) : (s.chargeReads c l).mem = s.mem := by
  unfold State.chargeReads
  induction l generalizing s with
  | nil => rfl
  | cons x l ih => exact ih _
@[simp] theorem State.mem_chargeFills (s : State) (c n : Nat) : (s.chargeFills c n).mem = s.mem := rfl
@[simp] theorem State.mem_chargeWrites (s : State) (c : Nat) (ns : List Nat) : (s.chargeWrites c ns).mem = s.mem := by
  unfold State.chargeWrites
  induction ns generalizing s with
  | nil => rfl
  | cons x l ih => exact ih _
@[simp] theorem State.mem_mxCount (s : State) (a b r n : Nat) : (s.mxCount a b r n).mem = s.mem := by
  unfold State.mxCount; split <;> simp
@[simp] theorem State.mem_fuCharge (s : State) (o f n : Nat) (b : FuBank) (m : Nat) : (s.fuCharge o f n b m).mem = s.mem := by
  simp [State.fuCharge]

-- what changes memory, counters, the fabric time and free numbers only

theorem putFld_bit (v i : Nat) : putFld v i i 0 = v - v / 2 ^ i % 2 * 2 ^ i := by
  simp [putFld, fld]

theorem putFld_clear (v i : Nat) : putFld (putFld v i i 0) i i 0 = putFld v i i 0 := by
  rw [putFld_bit, putFld_bit]
  have h : (v - v / 2 ^ i % 2 * 2 ^ i) / 2 ^ i % 2 = 0 := by
    rw [Nat.mul_comm, Nat.sub_mul_div]; omega
  rw [h]; simp

theorem putFld_le (v i : Nat) : putFld v i i 0 ≤ v := by rw [putFld_bit]; omega

theorem Injected.refl (s : State) : Injected s s := ⟨fun _ _ => rfl, .inl rfl, rfl⟩
theorem Injected.trans {a b c : State} (h : Injected a b) (g : Injected b c) : Injected a c := by
  obtain ⟨h1, h2, h3⟩ := h
  obtain ⟨g1, g2, g3⟩ := g
  refine ⟨fun o ho => (g1 o ho).trans (h1 o ho), ?_, by rw [g3, h3]⟩
  rcases h2 with h2 | h2 <;> rcases g2 with g2 | g2 <;> rw [g2, h2]
  · exact .inl rfl
  · exact .inr rfl
  · exact .inr rfl
  · exact .inr (putFld_clear _ 31)

/-- Clearing ARM of KERR_INJECT, with a note in the error unit. -/
theorem State.setReg_injected (s : State) (v : Nat) (e : List (Nat × Nat)) (hv : v = putFld (s.reg 0x1014) 31 31 0) :
    Injected s { s.setReg 0x1014 v with err := { s.err with hurt := e } }
      ∧ { s.setReg 0x1014 v with err := { s.err with hurt := e } }
        = { s with regs := (s.setReg 0x1014 v).regs, err := { s.err with hurt := e } } := by
  have hl : v < 2 ^ 32 := hv ▸ Nat.lt_of_le_of_lt (putFld_le _ 31) (FMap.get 0 s.regs 0x1014).isLt
  refine ⟨⟨fun o ho => ?_, .inr (hv ▸ ?_), rfl⟩, rfl⟩
  · simp only [State.reg, State.setReg, FMap.get_set, if_neg ho]
  · simp only [State.reg, State.setReg, FMap.get_set, if_true, u32, BitVec.toNat_ofNat]
    exact Nat.mod_eq_of_lt hl

theorem Injected.ite {s t : State} (c : Prop) [Decidable c] (h : Injected s t ∧ t = { s with regs := t.regs, err := t.err }) :
    Injected s (if c then t else s)
      ∧ (if c then t else s) = { s with regs := (if c then t else s).regs, err := (if c then t else s).err } := by
  by_cases hc : c
  · rw [if_pos hc]; exact h
  · rw [if_neg hc]; exact ⟨.refl s, rfl⟩

theorem State.arrayWrite_eq (s : State) (v a : Nat) (hv : v = putFld (s.reg 0x1014) 31 31 (b2n false)) :
    s.arrayWrite a = if s.rbit 0x1014 31 ∧ s.rf 0x1014 7 0 = a then
      { s.setReg 0x1014 v with err := { s.err with hurt := s.err.hurt ++ [(a, s.rf 0x1014 9 8)] } } else s := by
  unfold State.arrayWrite State.setRbit State.setRf
  rw [← hv]
  rfl

/-- A write of a codeword applies an armed injection, or nothing (R363). -/
theorem State.arrayWrite_injected (s : State) (a : Nat) : Injected s (s.arrayWrite a)
    ∧ s.arrayWrite a = { s with regs := (s.arrayWrite a).regs, err := (s.arrayWrite a).err } := by
  obtain ⟨v, hv⟩ : ∃ v, v = putFld (s.reg 0x1014) 31 31 (b2n false) := ⟨_, rfl⟩
  rw [s.arrayWrite_eq v a hv]
  exact Injected.ite _ (s.setReg_injected v _ hv)

/-- t differs from s in device memory, the 48-bit counters with their energy remainders, the fabric time and the count of
free numbers only, but for an injection that is applied. -/
structure Moved (s t : State) : Prop where
  only : t = { s with mem := t.mem, cnt48 := t.cnt48, energyRem := t.energyRem, ftime := t.ftime, free := t.free,
                      regs := t.regs, err := t.err }
  inj  : Injected s t

theorem Moved.refl (s : State) : Moved s s := ⟨rfl, .refl s⟩
theorem Moved.trans {a b c : State} (h : Moved a b) (g : Moved b c) : Moved a c := by
  refine ⟨?_, h.inj.trans g.inj⟩
  rw [g.only, h.only]
theorem Moved.onlyMemory {s t : State} (h : Moved s t) : OnlyMemory s t ∧ t.queues = s.queues :=
  ⟨⟨by rw [h.only], h.inj⟩, by rw [h.only]⟩
/-- A change of none of the registers and of nothing in the error unit. -/
theorem Moved.plain {s t u : State} (h : Moved s t)
    (g : u = { t with mem := u.mem, cnt48 := u.cnt48, energyRem := u.energyRem, ftime := u.ftime, free := u.free }) : Moved s u :=
  h.trans ⟨by rw [g], by rw [g]; exact .refl t⟩
theorem Moved.cntAdd {s t : State} (a n : Nat) (h : Moved s t) : Moved s (t.cntAdd a n) := h.plain rfl
theorem Moved.arrayWrite {s t : State} (a : Nat) (h : Moved s t) : Moved s (t.arrayWrite a) :=
  have g := t.arrayWrite_injected a
  h.trans ⟨by rw [g.2], g.1⟩
theorem Moved.cwAdd {s t : State} (a n : Nat) (h : Moved s t) : Moved s (t.cwAdd a n) := (h.cntAdd a n).arrayWrite _
theorem Moved.wr8 {s t : State} (a : Nat) (b : Byte) (h : Moved s t) : Moved s (t.wr8 a b) := h.plain rfl
theorem Moved.wr {s t : State} (a : Nat) (bs : List Byte) (h : Moved s t) : Moved s (t.wr a bs) := by
  induction bs generalizing t a with
  | nil => exact h
  | cons b bs ih => exact ih (a + 1) (h.wr8 a b)
theorem Moved.puts {s t : State} (ws : List (Nat × List Byte)) (h : Moved s t) : Moved s (t.puts ws) := by
  induction ws generalizing t with
  | nil => exact h
  | cons w ws ih => obtain ⟨a, bs⟩ := w; exact ih (h.wr a bs)
theorem Moved.strWr {s t : State} (d : Desc) (k : Nat) (bs : List Byte) (h : Moved s t) : Moved s (t.strWr d k bs) := h.puts _
theorem Moved.acct {s t : State} (c k n : Nat) (h : Moved s t) : Moved s (t.acct c k n) := h.cntAdd _ _
theorem Moved.energy {s t : State} (c i n : Nat) (h : Moved s t) : Moved s (t.energy c i n) := h.plain rfl
theorem Moved.readTime {s t : State} (h : Moved s t) : Moved s t.readTime.2 := h.plain rfl
theorem Moved.opCount {s t : State} (o f n : Nat) (h : Moved s t) : Moved s (t.opCount o f n) := by
  unfold State.opCount
  simp only []
  split
  · exact h
  · split
    · exact h.cwAdd _ _
    · split
      · exact h.readTime.cwAdd _ _
      · exact h.readTime
theorem Moved.free {s t : State} (n : Nat) (h : Moved s t) : Moved s { t with free := n } := h.plain rfl
theorem Moved.charge {s t : State} (c : Nat) (l : List Nat) (h : Moved s t) : Moved s (t.charge c l) := by
  induction l generalizing t with
  | nil => exact h
  | cons k l ih => exact ih (((h.acct c k _).energy c _ _).free _)
theorem Moved.chargeRows {s t : State} (c k r n : Nat) (b : Bool) (h : Moved s t) : Moved s (t.chargeRows c k r n b) :=
  (h.acct _ _ _).energy _ _ _
theorem Moved.chargeReads {s t : State} (c : Nat) (l : List (Nat × Nat × Bool)) (h : Moved s t) : Moved s (t.chargeReads c l) := by
  unfold State.chargeReads
  induction l generalizing t with
  | nil => exact h
  | cons x l ih => exact ih (h.chargeRows _ _ _ _ _)
theorem Moved.chargeFills {s t : State} (c n : Nat) (h : Moved s t) : Moved s (t.chargeFills c n) := (h.free _).chargeRows _ _ _ _ _
theorem Moved.chargeWrites {s t : State} (c : Nat) (ns : List Nat) (h : Moved s t) : Moved s (t.chargeWrites c ns) := by
  unfold State.chargeWrites
  induction ns generalizing t with
  | nil => exact h
  | cons x l ih => exact ih (h.chargeRows _ _ _ _ _)
theorem Moved.mxCount {s t : State} (a b r n : Nat) (h : Moved s t) : Moved s (t.mxCount a b r n) := by
  unfold State.mxCount; split
  · exact h.opCount _ _ _
  · exact h
theorem Moved.fuCharge {s t : State} (o f n : Nat) (b : FuBank) (m : Nat) (h : Moved s t) : Moved s (t.fuCharge o f n b m) :=
  ((h.opCount _ _ _).acct _ _ _).energy _ _ _

theorem Moved.scramble {s t : State} (rs : List (Nat × Nat)) (h : Moved s t) : Moved s (t.scramble rs) := by
  induction rs generalizing t with
  | nil => exact h
  | cons r rs ih => obtain ⟨a, n⟩ := r; exact ih ((h.free _).wr a _)

/-- Undefined bytes are written to the given ranges only. -/
theorem State.rd8_scramble_out (rs : List (Nat × Nat)) (s : State) (a : Nat)
    (h : ∀ x ∈ rs, ∀ k, k < x.2 → (x.1 + k) % addrMod ≠ a % addrMod) : (s.scramble rs).rd8 a = s.rd8 a := by
  induction rs generalizing s with
  | nil => rfl
  | cons r rs ih =>
    obtain ⟨b, n⟩ := r
    rw [State.scramble, ih _ (fun x hx => h x (List.mem_cons_of_mem _ hx)), State.rd8_wr_out]
    · rfl
    · intro k hk
      refine h (b, n) (by simp) k ?_
      simpa [State.freeBytes] using hk

/-- The run of a command that runs is its outcome. -/
theorem State.runCmd_of_runs {s : State} {q : Nat} {i : U32} {op : Nat} {c : Cmd} (h : Runs s q i op c)
    (f : State → Nat → Cmd → RunRes) : s.runCmd q i op f = match f (s.shown q i c) (s.owner q) c with
      | .busy s1 => s1
      | .done s1 acts => s1.complete q i acts
      | .flt s1 f => s1.fault q i op f := by
  cases hr : f (s.shown q i c) (s.owner q) c <;>
    simp only [State.runCmd, h.found, h.live, h.phase, h.op, h.run, h.turn, Bool.not_false, and_self, if_true, hr]

/-- A command that keeps nothing of its outputs runs on memory as it stands. -/
@[simp] theorem State.shown_nil (s : State) (q : Nat) (i : U32) (c : Cmd) (h : c.saved = []) : s.shown q i c = s := by
  simp [State.shown, h]

end Sys2Proof.Machine
end

