-- ==== Sys2Proof/WellFormed.lean ====
section
/-! DEFINITION. Well-formed commands: the operands lie in the ranges that the boundary can carry (64 queues, 16
contexts and the system window, four Piers of six virtual channels, 4,096 chips, sixteen header words). The machine is
total on ill-formed commands too: they name no step, and leave the state as it is (log entry 3). -/
namespace Sys2Proof

/-- Sixteen header words and at most 4 MiB of payload (R108, R109, R370). -/
def Frame.wf (f : Frame) : Bool := f.hdr.length == 16 && decide (f.payload.length ≤ 4194304)

/-- Sixteen header words (section Tap of 13_boundary_ports). -/
def TapMsg.wf (m : TapMsg) : Bool := m.hdr.length == 16

def qOk (q : Nat) : Bool := decide (q < 64)
def ctxOk (c : Nat) : Bool := decide (c < 16)
def ownOk (c : Nat) : Bool := decide (c ≤ 16)
def pierOk (p : Nat) : Bool := decide (p < 4)
def chipOk (d : Nat) : Bool := decide (d < 4096)
def vcOk (v : Nat) : Bool := decide (v < 6)
/-- An aligned byte offset of the 1 MiB register window (R384). -/
def offOk (o : Nat) : Bool := decide (o < 2 ^ 20) && o % 4 == 0

/-- The target of a memory response names a queue, context, event queue or 48-bit address that exists. -/
def MemTarget.wf : MemTarget → Bool
  | .command q _ a => qOk q && decide (a < 2 ^ 48)
  | .slotFetch q => qOk q
  | .landing _ => true
  | .control c a => ownOk c && decide (a < 2 ^ 48)
  | .eventRing e => ownOk e
  | .caisson a => decide (a < 2 ^ 48)
  | .microcode => true
  | .forgotten => true

/-- The owner of a codeword names a queue or context that exists. -/
def CodeOwner.wf : CodeOwner → Bool
  | .none => true
  | .command q _ => qOk q
  | .context c => ctxOk c

/-- Well-formed commands. -/
def Instr.wf : Instr → Bool
  | .nop q _ => qOk q
  | .wait q _ => qOk q
  | .signal q _ => qOk q
  | .fence q _ => qOk q
  | .skipIf q _ => qOk q
  | .barrier q _ => qOk q
  | .mark q _ => qOk q
  | .trigger q _ => qOk q
  | .route q _ => qOk q
  | .scoreSelect q _ => qOk q
  | .seal q _ => qOk q
  | .admitJob q _ => qOk q
  | .sort q _ => qOk q
  | .countXchg q _ => qOk q
  | .dispatch q _ => qOk q
  | .ret q _ => qOk q
  | .drain q _ => qOk q
  | .groupTable q _ => qOk q
  | .feedArm q _ => qOk q
  | .combine q _ => qOk q
  | .copy q _ => qOk q
  | .gather q _ => qOk q
  | .scatter q _ => qOk q
  | .scatterAcc q _ => qOk q
  | .pagedGather q _ => qOk q
  | .ringReduce q _ => qOk q
  | .ringGather q _ => qOk q
  | .shift q _ => qOk q
  | .permute q _ => qOk q
  | .camberAccum q _ => qOk q
  | .camberUpdate q _ => qOk q
  | .ledgerAdmit q _ => qOk q
  | .ledgerStep q _ => qOk q
  | .ledgerRetire q _ => qOk q
  | .descCreate q _ => qOk q
  | .descRetire q _ => qOk q
  | .mapLoad q _ => qOk q
  | .publish q _ => qOk q
  | .fuLoad q _ => qOk q
  | .fuApply q _ => qOk q
  | .poolConfig q _ => qOk q
  | .digestBegin q _ => qOk q
  | .digestEnd q _ => qOk q
  | .doorbell w q _ _ => ownOk w && qOk q
  | .commandDecode q => qOk q
  | .commandStart q => qOk q
  | .waitPoll c => ownOk c
  | .commandCommit q => qOk q
  | .combinePrefetch q _ => qOk q
  | .queueEnable q _ _ => qOk q
  | .queueHold q _ _ => qOk q
  | .queueKill q _ _ => qOk q
  | .killComplete q => qOk q
  | .teardownGo c _ _ => ctxOk c
  | .teardownClear c _ _ => ctxOk c
  | .contextSave c _ _ => ctxOk c
  | .saveImageWrite c => ctxOk c
  | .contextRestore c _ _ => ctxOk c
  | .genFloorWrite c _ _ => ctxOk c
  | .casRequest c _ _ => ownOk c
  | .casFree c _ _ => ownOk c
  | .casRef c _ _ => ownOk c
  | .reclaim _ _ => true
  | .eventQueueEnable e _ _ => ownOk e
  | .eventRdWrite e _ _ _ => ownOk e
  | .eventCoalesceTimeout e => ownOk e
  | .readClear o _ => offOk o
  | .counterLoRead o _ => offOk o
  | .registerWrite o _ _ => offOk o
  | .paceWrite _ _ => true
  | .paceWindow b => decide (b ≤ 4095)
  | .bootGo _ _ => true
  | .bootData _ _ => true
  | .bootAccept _ _ => true
  | .bootReject _ _ => true
  | .microcodeLoaded im => decide (im.length ≤ 65536)
  | .arrayInitDone => true
  | .postReady => true
  | .powerOnReset _ => true
  | .systemReset _ => true
  | .coreReset _ => true
  | .isolationTimeout => true
  | .resetDeassert => true
  | .domainRelease => true
  | .refclkReturn => true
  | .pierLinkChange p _ => pierOk p
  | .pierCredit p v _ => pierOk p && vcOk v
  | .memoryReadResponse t _ => t.wf
  | .memoryWriteAck t _ => t.wf
  | .dispatchSlabRx p f => pierOk p && f.wf
  | .returnSlabRx p f => pierOk p && f.wf
  | .reserveRx p f => pierOk p && f.wf
  | .grantRx p f => pierOk p && f.wf
  | .countSlabRx p f => pierOk p && f.wf
  | .barrierArriveRx p f => pierOk p && f.wf
  | .barrierReleaseRx p f => pierOk p && f.wf
  | .barrierRelease c g b => ctxOk c && decide (g < 2 ^ 16) && decide (b < 2 ^ 8)
  | .markerRx p f => pierOk p && f.wf
  | .ackRx p f => pierOk p && f.wf
  | .nackRx p f => pierOk p && f.wf
  | .hello p f => pierOk p && f.wf
  | .helloAck p f => pierOk p && f.wf
  | .slabResend c d v => ctxOk c && chipOk d && vcOk v
  | .backoffExpiry c d v => ctxOk c && chipOk d && vcOk v
  | .streamTimeout c d v => ctxOk c && chipOk d && vcOk v
  | .helloResend d => chipOk d
  | .exchangeBroken q _ => qOk q
  | .ringDataRx p f => pierOk p && f.wf
  | .rackRx p f => pierOk p && f.wf
  | .rnackRx p f => pierOk p && f.wf
  | .reportRx p f => pierOk p && f.wf
  | .decideRx p f => pierOk p && f.wf
  | .ringResend c g _ d => ctxOk c && decide (g < 2 ^ 16) && chipOk d
  | .collectiveTimeout i => decide (i < 8)
  | .decideTimeout i => decide (i < 8)
  | .waitTimeout q => qOk q
  | .barrierTimeout q _ => qOk q
  | .drainTimeout q _ => qOk q
  | .tapHello m => m.wf
  | .tapTile m => m.wf
  | .tapStopped m => m.wf
  | .tapStopTimeout st => decide (st < 2 ^ 16)
  | .feedDone _ => true
  | .feedAbortAck _ => true
  | .feedAbortTimeout i => decide (i < 2 ^ 16)
  | .scrubVisit a i _ _ o => decide (a < 32) && decide (i < 16) && o.wf
  | .fatalTimeout => true
  | .logPop _ _ => true
  | .firstClear _ _ => true
  | .errorInject _ _ => true
  | .triggerFire => true
  | .trigRx p f => pierOk p && f.wf
  | .tackRx p f => pierOk p && f.wf
  | .trigResend d t => chipOk d && decide (t < 2 ^ 16)
  | .traceRx p f => pierOk p && f.wf
  | .freezeClear _ _ => true
  | .traceEnable _ _ => true
  | .dump _ _ => true
  | .dumpHalted => true
  | .refclkStop => true
  | .countXchgTimeout q _ => qOk q
  | .traceRateWindow => true

end Sys2Proof
end

