-- ==== Sys2Proof/Tests/Slice0.lean ====
section
/-! SUPPORT. Small tests of single steps, and for every statement with hypotheses concrete states and operands that meet
them. -/
section
set_option Elab.async false
open Sys2Proof Sys2Proof.Machine
namespace Sys2Proof.Tests

-- states and commands for the tests

/-- A block that is ready, with every register 0 and nothing else. -/
def up : State := { rst := { posted := true } }

/-- A command of an opcode with its slots, at index 0. -/
def cm (op : Nat) (ss : List U32) : Cmd := { words := [u32 op], slots := ss, phase := .started }

/-- up with one command at index 0 of queue 0. -/
def one (c : Cmd) : State := up.setQueue 0 { cmds := [c] }

theorem runs_one (s : State) (q : Nat) (i : U32) (op : Nat) (c : Cmd)
    (h : (s.live && (s.findCmd q i == some c) && (c.phase == .started) && (c.op == op) && (c.skip == .run)
      && !s.givesWay q c) = true) : Runs s q i op c := by
  simp only [Bool.and_eq_true, beq_iff_eq, Bool.not_eq_true'] at h
  exact ⟨h.1.1.1.1.1, h.1.1.1.1.2, h.1.1.1.2, h.1.1.2, h.1.2, h.2⟩

theorem reaches_of (s : State) (off : Nat) (p : Bool)
    (h : (s.ctlUp && (p || openTo off) && (s.rst.posted || earlyReg off)) = true) : Reaches s off p := by
  simp only [Bool.and_eq_true, Bool.or_eq_true] at h
  exact ⟨h.1.1, h.1.2, h.2⟩

theorem admits_of (s : State) (p k : Nat) (f : Frame)
    (h : (s.pierUp p && !f.hdrBad && (fVer f == 2) && (fKind f == k) && s.rbit (win (fCtx f) + 0x500) 0
      && s.rbit (kctx (fCtx f)) 0 && (fKey f == s.reg (win (fCtx f) + 0x504))
      && (!(k == 1 || k == 2 || k == 3 || k == 5) || (s.seqCheck f == .inOrder))
      && (k == 4 || k == 7 || k == 8 || !s.retired (fCtx f) (fGen f))) = true) : Admits s p k f := by
  simp only [Bool.and_eq_true, Bool.or_eq_true, Bool.not_eq_true', Bool.or_eq_false_iff, beq_iff_eq, beq_eq_false_iff_ne] at h
  obtain ⟨⟨⟨⟨⟨⟨⟨⟨a, b⟩, c⟩, d⟩, e⟩, f1⟩, g⟩, o⟩, t⟩ := h
  refine ⟨a, b, c, d, e, f1, g, fun hk => ?_, ?_⟩
  · rcases o with o | o
    · omega
    · exact o
  · rcases t with ((t | t) | t) | t <;> simp [t]

/-- up with a table of sixteen descriptors for context 0 at byte 0x1000. -/
def tab : State := (up.setReg 0x70000 0x1000).setReg 0x70008 16

/-- The stored entry of a LINEAR region of format f: base, D0, D1, and P1 (R209, R214). -/
def lin (f base d0 d1 p1 : Nat) : List Nat := [0x100 + f, base, 0, d0, d1, 1, 1, p1, 0, 0, 0, 0, 0, 0, p1 * d1, 0x80000000]

/-- Entry h of the table of context 0, as (address, words). -/
def at_ (h : Nat) (ws : List Nat) : Nat × List Nat := (0x1000 + 64 * h, ws)

/-- Memory that holds some words, given by rising address. -/
def memOf (l : List (Nat × List Nat)) : Memory :=
  l.flatMap (fun p => (((List.range (4 * p.2.length)).map (fun k => p.1 + k)).zip (wordsBytes p.2)).filter (fun x => x.2 != 0))

/-- The table's block with one command at index 0 of queue 0, and memory that holds some words. -/
def run (c : Cmd) (l : List (Nat × List Nat)) : State := { tab.setQueue 0 { cmds := [c] } with mem := memOf l }

-- ill-formed commands are refused

theorem test_wf_queue : (Instr.nop 63 0).wf = true ∧ (Instr.nop 64 0).wf = false := by decide
theorem test_wf_window : (Instr.doorbell 16 63 0 true).wf = true ∧ (Instr.doorbell 17 0 0 true).wf = false
    ∧ (Instr.doorbell 0 64 0 true).wf = false := by decide
theorem test_wf_context : (Instr.teardownGo 15 0 true).wf = true ∧ (Instr.teardownGo 16 0 true).wf = false := by decide
theorem test_wf_offset : (Instr.readClear 0xFFFFC true).wf = true ∧ (Instr.readClear 2 true).wf = false
    ∧ (Instr.readClear 0x100000 true).wf = false := by decide
theorem test_wf_window_beats : (Instr.paceWindow 4095).wf = true ∧ (Instr.paceWindow 4096).wf = false := by decide
theorem test_wf_pier : (Instr.pierCredit 3 5 1).wf = true ∧ (Instr.pierCredit 4 0 1).wf = false
    ∧ (Instr.pierCredit 0 6 1).wf = false := by decide
theorem test_wf_frame : (Instr.ackRx 0 { hdr := List.replicate 16 0, payload := [] }).wf = true
    ∧ (Instr.ackRx 0 { hdr := [], payload := [] }).wf = false
    ∧ (Instr.ackRx 4 { hdr := List.replicate 16 0, payload := [] }).wf = false := by decide
theorem test_wf_payload (p : List Byte) (h : 4194304 < p.length) :
    (Instr.ackRx 0 { hdr := List.replicate 16 0, payload := p }).wf = false := by
  simp only [Instr.wf, Frame.wf, List.length_replicate, beq_self_eq_true, Bool.true_and, Bool.and_eq_false_iff,
    decide_eq_false_iff_not]
  omega
theorem test_wf_tap : (Instr.tapTile { hdr := List.replicate 16 0, payload := [] }).wf = true
    ∧ (Instr.tapTile { hdr := [0], payload := [] }).wf = false ∧ (Instr.tapStopTimeout 65536).wf = false := by decide
theorem test_wf_stream : (Instr.slabResend 15 4095 5).wf = true ∧ (Instr.slabResend 0 4096 0).wf = false := by decide
theorem test_wf_ring : (Instr.ringResend 0 65535 0 0).wf = true ∧ (Instr.ringResend 0 65536 0 0).wf = false
    ∧ (Instr.collectiveTimeout 8).wf = false ∧ (Instr.decideTimeout 8).wf = false := by decide
theorem test_wf_barrier : (Instr.barrierRelease 15 65535 255).wf = true ∧ (Instr.barrierRelease 0 65536 0).wf = false
    ∧ (Instr.barrierRelease 0 0 256).wf = false := by decide
theorem test_wf_memory : (Instr.memoryReadResponse (.command 0 0 0) .ok).wf = true
    ∧ (Instr.memoryReadResponse (.command 64 0 0) .ok).wf = false
    ∧ (Instr.memoryReadResponse (.slotFetch 64) .ok).wf = false
    ∧ (Instr.memoryWriteAck (.control 17 0) .ok).wf = false ∧ (Instr.memoryWriteAck (.eventRing 17) .ok).wf = false
    ∧ (Instr.memoryWriteAck (.caisson (2 ^ 48)) .ok).wf = false := by decide
theorem test_wf_scrub : (Instr.scrubVisit 31 15 0 0 .none).wf = true ∧ (Instr.scrubVisit 32 0 0 0 .none).wf = false
    ∧ (Instr.scrubVisit 0 16 0 0 .none).wf = false ∧ (Instr.scrubVisit 0 0 0 0 (.context 16)).wf = false
    ∧ (Instr.scrubVisit 0 0 0 0 (.command 64 0)).wf = false := by decide
theorem test_wf_trigger : (Instr.trigResend 4095 65535).wf = true ∧ (Instr.trigResend 0 65536).wf = false
    ∧ (Instr.feedAbortTimeout 65536).wf = false := by decide

/-- No table word spells a command. -/
theorem test_no_words (n w : Nat) : decodeTableWord n w = none ∧ up.withFetchWord n w = up := ⟨rfl, rfl⟩

/-- The state after a step that goes on. -/
def after (o : Host.Outcome State Fault Refusal) : State := match o with
  | .next t => t
  | _ => up

/-- The phase of command i of queue q after a step that goes on. -/
def phaseOf (o : Host.Outcome State Fault Refusal) (q : Nat) (i : U32) : Option Phase := match o with
  | .next t => (t.findCmd q i).map (fun c => c.phase)
  | _ => none

/-- An exchange slot of context 0, tag 7, XID 5, of a COUNT_XCHG whose phase 0 has been sent. -/
def cxEx : Exch := { ctx := 0, gen := 7, xid := 5, xb := 3, dest := 2, ofs := 1, cxq := some (0, 0), cx0 := true }

/-- Some addresses are clear of some writes, as a check. -/
def missB (ws : List (Nat × List Byte)) (n : Nat) (f : Nat → Nat) : Bool :=
  (List.range n).all (fun o => ws.all (fun w => (List.range w.2.length).all (fun j => (w.1 + j) % addrMod != f o % addrMod)))

theorem miss_of (ws : List (Nat × List Byte)) (n : Nat) (f : Nat → Nat) (h : missB ws n f = true) :
    ∀ o, o < n → ¬ touches ws (f o) := by
  simp only [missB, List.all_eq_true, List.mem_range, bne_iff_ne] at h
  rintro o ho ⟨w, hw, j, hj, e⟩
  exact h o ho w hw j hj e

theorem pair_of {α β : Type} (p : α × β) (a : α) (h : p.1 = a) : p = (a, p.2) := by
  subst h
  rfl

-- the machine as a whole

theorem meets_StepRunsTheFrontCommand : up.pending = [] := rfl

/-- A ready block whose fatal timer is next. -/
def ticking : State := { up with pending := [.fatalTimeout] }

theorem meets_StepKeepsStoresCanonical : ∃ s t : State, s.Canon ∧ step s = .next t :=
  ⟨ticking, _, by unfold State.Canon; decide, rfl⟩

theorem meets_CommandsLeaveQueueAndPart : ∃ (c : Instr) (s t : State), exec c s = .next t := ⟨.fatalTimeout, up, _, rfl⟩

theorem meets_StoresReadBack : ∃ (a b k : Nat) (bs : List Byte) (x : Byte), bs.length ≤ 2 ^ 48
    ∧ bs[k]? = some x ∧ (∀ k, k < bs.length → (a + k) % 2 ^ 48 ≠ b % 2 ^ 48) :=
  ⟨2 ^ 48 - 1, 1, 1, [7, 9], 9, by decide +kernel, rfl, by decide +kernel⟩

/-- Held in reset; released and not ready; ready. -/
def held : State := State.reset
def booting : State := { up with rst := { posted := false } }

theorem meets_ControlPortRefuses :
    (∃ (c : Instr) (off : Nat) (p : Bool) (s : State), requestOf c = some (off, p) ∧ s.ctlUp = false)
    ∧ (∃ (c : Instr) (off : Nat) (s : State), requestOf c = some (off, false) ∧ s.ctlUp = true ∧ openTo off = false)
    ∧ (∃ (c : Instr) (off : Nat) (p : Bool) (s : State), requestOf c = some (off, p) ∧ s.ctlUp = true
      ∧ (p = true ∨ openTo off = true) ∧ s.rst.posted = false ∧ earlyReg off = false) :=
  ⟨⟨.bootGo 1 true, 0x204, true, held, by decide +kernel⟩, ⟨.queueEnable 63 1 false, kq 63 + 0xC, up, by decide +kernel⟩,
    ⟨.queueEnable 0 1 true, kq 0 + 0xC, true, booting, by decide +kernel⟩⟩

/-- A request without privilege is counted in system counter 5 and does nothing else (R307). -/
theorem test_unprivileged_counts : (after (exec (.queueEnable 63 1 false) up)).cnt (0x1A800 + 8 * 5) = 1
    ∧ (after (exec (.queueEnable 63 1 false) up)).reg (kq 63 + 0xC) = 0 := by decide +kernel

-- control commands and data movers

/-- A command with an output of two bytes at 0x2000. -/
def outC : Cmd := { cm 0x30 [] with wrote := [(0x2000, 2)] }
/-- The same, where the command keeps what it has put there (R34). -/
def keptC : Cmd := { outC with saved := [(0x2000, [7, 9])] }

theorem meets_CompletionTouchesOneCommand :
    (∃ (s : State) (q p : Nat) (i j : U32) (c : Cmd) (a : Nat), s.findCmd q i = some c ∧ j ≠ i ∧ p ≠ q ∧ c.op ≠ 0x29 ∧ c.saved = []
      ∧ c.wrote ≠ [] ∧ (∀ x ∈ c.wrote, ∀ k, k < x.2 → (x.1 + k) % addrMod ≠ a % addrMod))
    ∧ (∃ (s : State) (q : Nat) (i : U32) (c : Cmd), s.findCmd q i = some c ∧ c.op ≠ 0x29 ∧ c.saved ≠ [] ∧ c.wrote ≠ [])
    ∧ (∃ (s : State) (q : Nat) (i : U32) (c : Cmd), s.findCmd q i = some c ∧ c.op = 0x29)
    ∧ (∃ (s : State) (q : Nat) (i : U32) (c : Cmd), s.findCmd q i = some c ∧ c.wrote = []) :=
  ⟨⟨one outC, 0, 1, 0, 1, outC, 0x2002, by decide +kernel, by decide, by decide, by decide, by decide, by decide, by decide +kernel⟩,
    ⟨one keptC, 0, 0, keptC, by decide +kernel⟩,
    ⟨one (cm 0x29 []), 0, 0, cm 0x29 [], by decide +kernel⟩, ⟨one (cm 0 []), 0, 0, cm 0 [], by decide +kernel⟩⟩

/-- The output bytes are held for the commit (R34). -/
theorem test_outputs_held : (((one outC).wr 0x2000 [7, 9]).complete 0 0 []).queues.map (fun p => p.2.cmds.map (fun c => c.acts))
    = [[[.write 0x2000 [7, 9]]]]
    ∧ ((one keptC).complete 0 0 []).queues.map (fun p => p.2.cmds.map (fun c => c.acts)) = [[[.write 0x2000 [7, 9]]]] := by decide +kernel

/-- A FENCE on a command of queue 1 that has committed. -/
def fenceC : Cmd := { cm 3 [] with fence := [(1, 5)] }

/-- A SKIP_IF over two slots, all of them behind TAIL. -/
def skipC : Cmd := cm 0x04 [0, 0x200]
def skipS : State := (one skipC).setReg (kq 0 + 0x14) 3

theorem meets_ControlCommandsComplete :
    (∃ s q i c, Runs s q i 0x00 c) ∧ (∃ s q i c, Runs s q i 0x01 c) ∧ (∃ s q i c, Runs s q i 0x02 c)
    ∧ (∃ s q i c, Runs s q i 0x03 c ∧ c.fence ≠ [] ∧ ∀ p ∈ c.fence, s.committed p.1 p.2 = true)
    ∧ (∃ s q i c, Runs s q i 0x04 c ∧ fld (c.s 1) 15 8 < (u32 (s.reg (kq q + 0x14)) - c.idx).toNat)
    ∧ (∃ s q i c, Runs s q i 0x06 c) ∧ (∃ s q i c, Runs s q i 0x07 c) :=
  ⟨⟨one (cm 0 []), 0, 0, cm 0 [], runs_one _ _ _ _ _ (by decide +kernel)⟩, ⟨one (cm 1 []), 0, 0, cm 1 [], runs_one _ _ _ _ _ (by decide +kernel)⟩,
    ⟨one (cm 2 []), 0, 0, cm 2 [], runs_one _ _ _ _ _ (by decide +kernel)⟩,
    ⟨one fenceC, 0, 0, fenceC, runs_one _ _ _ _ _ (by decide +kernel), by decide +kernel, by decide +kernel⟩,
    ⟨skipS, 0, 0, skipC, runs_one _ _ _ _ _ (by decide +kernel), by decide +kernel⟩,
    ⟨one (cm 6 [5]), 0, 0, cm 6 [5], runs_one _ _ _ _ _ (by decide +kernel)⟩, ⟨one (cm 7 [0x10005]), 0, 0, cm 7 [0x10005], runs_one _ _ _ _ _ (by decide +kernel)⟩⟩

theorem test_nop : phaseOf (exec (.nop 0 0) (one (cm 0 []))) 0 0 = some .complete := by decide +kernel
theorem test_nop_other_opcode : phaseOf (exec (.nop 0 0) (one (cm 1 []))) 0 0 = some .started := by decide +kernel
theorem test_skipIf_waits_for_window : phaseOf (exec (.skipIf 0 0) (skipS.setReg (kq 0 + 0x14) 2)) 0 0 = some .started
    ∧ phaseOf (exec (.skipIf 0 0) skipS) 0 0 = some .complete := by decide +kernel
theorem test_trigger_lead : ((after (exec (.trigger 0 0) (one (cm 7 [0x10005])))).findCmd 0 0).map (fun c => c.acts)
    = some [.trigger 5 10 true] := by decide +kernel

/-- A COPY of two rows of two FP32 elements from 0x2000 to 0x2100, pitches 16 and 32. -/
def copyC : Cmd := cm 0x30 [2, 1, 2, 0xE4, 0, 0]
def copyS : State := run copyC [at_ 1 (lin 2 0x2000 2 2 16), at_ 2 (lin 2 0x2100 2 2 32), (0x2000, [1, 2]), (0x2010, [3, 4])]

theorem runs_copy : Runs copyS 0 0 0x30 copyC := runs_one _ _ _ _ _ (by decide +kernel)

theorem meets_CopyWritesItsRows : ∃ (s v : State) (q : Nat) (i : U32) (c : Cmd) (sd dd : Desc) (row : Nat → List Byte),
    Runs s q i 0x30 c ∧ v = s.shown q i c ∧ sd = v.dsc (s.owner q) c 1 ∧ dd = v.dsc (s.owner q) c 2 ∧ c.s 0 = 2 ∧
    (row = fun r => if c.s 5 = 0 then (convAny sd.fmt dd.fmt dd.d0 (v.copyRow sd dd (c.s 3) (c.s 4) r)).1
      else (v.fuRow (c.fuB.getD 0) (c.s 5) sd.fmt dd.fmt dd.d0 (v.copyRow sd dd (c.s 3) (c.s 4) r)).1) :=
  ⟨copyS, _, 0, 0, copyC, _, _, _, runs_copy, rfl, rfl, rfl, rfl, rfl⟩

theorem test_copy : (after (exec (.copy 0 0) copyS)).rd 0x2120 8 = wordsBytes [3, 4] := by decide +kernel

/-- A GATHER of three rows of one FP32 from 0x2000 to 0x2100, by indices 1, 5 (out of bounds) and 0 at 0x2200. -/
def gatherC : Cmd := cm 0x31 [3, 1, 2, 3]
def idxD : List (Nat × List Nat) := [at_ 1 (lin 2 0x2000 1 2 16), at_ 2 (lin 7 0x2200 3 1 12), at_ 3 (lin 2 0x2100 1 3 16)]
def idxS (c : Cmd) (a : Nat) (ix : List Nat) : State := run c (idxD ++ [(0x2000, [a, 0, 0, 0, 22]), (0x2200, ix)])

/-- A source row is clear of some writes, as a check. -/
def clearB (s : State) (own : Nat) (sd : Desc) (ws : List (Nat × List Byte)) (k : Nat) : Bool :=
  if sd.layout = 2 then
    missB ws 64 (fun o => s.descAddr own sd.plist + o)
    && missB ws 8 (fun o => (s.desc own sd.plist).byteAt (8 * (k / (2 ^ sd.ps / sd.p1)) + o))
    && match s.pagedRow own sd k with
      | .error _ => false
      | .ok none => true
      | .ok (some a) => missB ws sd.rowB (fun o => a + o)
  else missB ws sd.rowB (fun o => sd.byteAt (k * sd.rowB + o))

theorem clears_of (s : State) (own : Nat) (sd : Desc) (ws : List (Nat × List Byte)) (ix : List (Option Nat))
    (h : (ix.filterMap id).all (clearB s own sd ws) = true) : ∀ x, some x ∈ ix → s.rowClear own sd ws x := by
  intro x hx
  have h1 := List.all_eq_true.mp h x (List.mem_filterMap.mpr ⟨some x, hx, rfl⟩)
  unfold clearB at h1
  unfold State.rowClear
  by_cases hl : sd.layout = 2
  · rw [if_pos hl] at h1 ⊢
    simp only [Bool.and_eq_true] at h1
    refine ⟨miss_of _ _ _ h1.1.1, miss_of _ _ _ h1.1.2, ?_⟩
    have h2 := h1.2
    generalize s.pagedRow own sd x = z at h2 ⊢
    match z with
    | .error _ => exact absurd h2 Bool.false_ne_true
    | .ok none => trivial
    | .ok (some _) => exact miss_of _ _ _ h2
  · rw [if_neg hl] at h1 ⊢
    exact miss_of _ _ _ h1

theorem gather_meets (s v : State) (q op : Nat) (c : Cmd) (sd dd : Desc) (ix : List (Option Nat)) (row : Nat → List Byte)
    (h0 : v = s.shown q 0 c) (h1 : sd = v.dsc (s.owner q) c 1) (h2 : dd = v.dsc (s.owner q) c 3)
    (h3 : ix = v.indices (v.dsc (s.owner q) c 2) (c.s 0) sd.rows) (h4 : row = fun r => v.gatherRow (s.owner q) sd dd (ix.getD r none))
    (h5 : (ix.filterMap id).all (clearB v (s.owner q) sd (dd.rowsPut (c.s 0) row)) = true)
    (h6 : Runs s q 0 op c) (h7 : ix = [some 1, none, some 0]) :
    ∃ (s v : State) (q : Nat) (i : U32) (c : Cmd) (sd dd : Desc) (ix : List (Option Nat)) (row : Nat → List Byte),
      Runs s q i op c ∧ v = s.shown q i c ∧ sd = v.dsc (s.owner q) c 1 ∧ dd = v.dsc (s.owner q) c 3
      ∧ ix = v.indices (v.dsc (s.owner q) c 2) (c.s 0) sd.rows ∧ ix = [some 1, none, some 0]
      ∧ (row = fun r => v.gatherRow (s.owner q) sd dd (ix.getD r none))
      ∧ (∀ x, some x ∈ ix → v.rowClear (s.owner q) sd (dd.rowsPut (c.s 0) row) x) :=
  ⟨s, v, q, 0, c, sd, dd, ix, row, h6, h0, h1, h2, h3, h7, h4, clears_of _ _ _ _ _ h5⟩

theorem meets_GatherWritesItsRows : ∃ (s v : State) (q : Nat) (i : U32) (c : Cmd) (sd dd : Desc) (ix : List (Option Nat))
      (row : Nat → List Byte), Runs s q i 0x31 c ∧ v = s.shown q i c ∧ sd = v.dsc (s.owner q) c 1 ∧ dd = v.dsc (s.owner q) c 3
      ∧ ix = v.indices (v.dsc (s.owner q) c 2) (c.s 0) sd.rows ∧ ix = [some 1, none, some 0]
      ∧ (row = fun r => v.gatherRow (s.owner q) sd dd (ix.getD r none))
      ∧ (∀ x, some x ∈ ix → v.rowClear (s.owner q) sd (dd.rowsPut (c.s 0) row) x) :=
  gather_meets (idxS gatherC 11 [1, 5, 0]) _ 0 0x31 gatherC _ _ _ _ rfl rfl rfl rfl rfl (by decide +kernel) (runs_one _ _ _ _ _ (by decide +kernel))
    (by decide +kernel)

/-- A PAGED_GATHER of the same indices: pages of 4,096 bytes, rows every 256 bytes, page 0 at 0x4000 (R217, R228). -/
def pagedC : Cmd := cm 0x34 [3, 1, 2, 3]
def pagedS : State :=
  (run pagedC [at_ 1 [0x0C000522, 0, 0, 1, 2, 1, 1, 256, 0, 0, 0, 0, 0x55, 4, 0, 0x80000000], at_ 2 (lin 7 0x2200 3 1 12),
    at_ 3 (lin 2 0x2100 1 3 16), at_ 4 (lin 9 0x2300 1 1 8), (0x2200, [1, 5, 0]), (0x2300, [0x4001]), (0x4000, [33]),
    (0x4100, [44])]).setReg 0x70010 1

theorem meets_GatherWritesItsRows_paged : ∃ (s v : State) (q : Nat) (i : U32) (c : Cmd) (sd dd : Desc) (ix : List (Option Nat))
      (row : Nat → List Byte), Runs s q i 0x34 c ∧ v = s.shown q i c ∧ sd = v.dsc (s.owner q) c 1 ∧ dd = v.dsc (s.owner q) c 3
      ∧ ix = v.indices (v.dsc (s.owner q) c 2) (c.s 0) sd.rows ∧ ix = [some 1, none, some 0]
      ∧ (row = fun r => v.gatherRow (s.owner q) sd dd (ix.getD r none))
      ∧ (∀ x, some x ∈ ix → v.rowClear (s.owner q) sd (dd.rowsPut (c.s 0) row) x) :=
  gather_meets pagedS _ 0 0x34 pagedC _ _ _ _ rfl rfl rfl rfl rfl (by decide +kernel) (runs_one _ _ _ _ _ (by decide +kernel))
    (by decide +kernel)

/-- Rows 1 and 0 of the pages, and FILL between them (R228). -/
theorem test_pagedGather : (List.range 3).map (fun r => (after (exec (.pagedGather 0 0) pagedS)).rd32 (0x2100 + 16 * r))
    = [44, 0x55, 33] := by decide +kernel

/-- Rows 1 and 0 of the source, and between them FILL (0) for the index out of bounds (R224). -/
theorem test_gather : (List.range 3).map (fun r => (after (exec (.gather 0 0) (idxS gatherC 11 [1, 5, 0]))).rd32 (0x2100 + 16 * r))
    = [22, 0, 11] := by decide +kernel

/-- A SCATTER of two rows to rows 1 and 1, and a SCATTER_ACC of one row to row 1. -/
def scatterC : Cmd := cm 0x32 [2, 1, 2, 3]
def scatterS : State := idxS scatterC 11 [1, 1]
def accC : Cmd := cm 0x33 [2, 1, 2, 3]
def accS : State := idxS accC 0x3F800000 [1, 9]

theorem meets_ScattersStoreNamedRows :
    (∃ (s v : State) (q : Nat) (i : U32) (c : Cmd) (sd dd : Desc) (ix : List (Option Nat)) (row : Nat → List Byte),
      Runs s q i 0x32 c ∧ v = s.shown q i c ∧ sd = v.dsc (s.owner q) c 1 ∧ dd = v.dsc (s.owner q) c 3
      ∧ ix = v.indices (v.dsc (s.owner q) c 2) (c.s 0) dd.rows ∧ ix = [some 1, some 1]
      ∧ (row = fun j => (convAny sd.fmt dd.fmt sd.d0 (v.strRd sd (j * sd.rowB) sd.rowB)).1))
    ∧ (∃ (s v : State) (q : Nat) (i : U32) (c : Cmd) (sd dd : Desc) (ps : List (Nat × Nat)) (n : Nat), Runs s q i 0x33 c
      ∧ v = s.shown q i c ∧ sd = v.dsc (s.owner q) c 1 ∧ dd = v.dsc (s.owner q) c 3 ∧ n = dd.d0 * ebOf dd.fmt
      ∧ ps = scatterPairs (v.indices (v.dsc (s.owner q) c 2) (c.s 0) dd.rows) ∧ ps = [(0, 1)]) :=
  ⟨⟨scatterS, _, 0, 0, scatterC, _, _, _, _, runs_one _ _ _ _ _ (by decide +kernel), rfl, rfl, rfl, rfl, by decide +kernel, rfl⟩,
    ⟨accS, _, 0, 0, accC, _, _, _, _, runs_one _ _ _ _ _ (by decide +kernel), rfl, rfl, rfl, rfl, rfl, by decide +kernel⟩⟩

/-- The last index that names a row wins (R225). -/
theorem test_scatter_last_wins : (after (exec (.scatter 0 0) scatterS)).rd32 0x2110 = 22
    ∧ (after (exec (.scatter 0 0) scatterS)).rd32 0x2100 = 0 := by decide +kernel

/-- 1.0 + 2.0 = 3.0 in FP32, where the index is in bounds (R226). -/
theorem test_scatterAcc : (after (exec (.scatterAcc 0 0) (accS.wr32 0x2110 0x40000000))).rd32 0x2110
    = 0x40400000 := by decide +kernel

/-- An FU_APPLY of one row of two FP32 elements with an empty function. -/
def fuC : Cmd := cm 0x4D [1, 1, 2, 1]
def fuS : State := run fuC [at_ 1 (lin 2 0x2000 2 1 16), at_ 2 (lin 2 0x2100 2 1 16), (0x2000, [0x3F800000, 0xBF800000])]

theorem meets_FuApplyWritesItsRows : ∃ (s : State) (q : Nat) (i : U32) (c : Cmd) (sd dd : Desc) (row : Nat → List Byte),
    Runs s q i 0x4D c ∧ sd = s.dsc (s.owner q) c 1 ∧ dd = s.dsc (s.owner q) c 2 ∧ (row = fun r =>
      (s.fuRow (c.fuB.getD 0) (c.s 3) sd.fmt dd.fmt dd.d0 (s.strRd sd (r * sd.rowB) sd.rowB)).1) :=
  ⟨fuS, 0, 0, fuC, _, _, _, runs_one _ _ _ _ _ (by decide +kernel), rfl, rfl, rfl⟩

/-- A MAP_LOAD of one entry, chip 0 and slot 0, into the shadow bank of slot 0; the same image without its E. -/
def mapC : Cmd := cm 0x4A [1, 0, 1]
def mapS (e : Nat) : State :=
  ((run mapC [at_ 1 (lin 7 0x2000 20 1 80), (0x2000, [e, 1])]).setReg 0x30100 0x100).setReg 0x30000 0x100000

/-- FU_LOADs: two seed words from index 5 on, one of them over 36 bits in the second state; one record, empty or not. -/
def seedC : Cmd := cm 0x4C [2, 1, 5, 1]
def seedS (hi : Nat) : State := run seedC [at_ 1 (lin 9 0x2000 2 1 16), (0x2000, [7, 0, 9, hi])]
def recC : Cmd := cm 0x4C [1, 0, 5, 1]
def recS (ws : List Nat) : State := run recC [at_ 1 (lin 3 0x2000 1024 1 1024), (0x2000, ws)]

theorem meets_LoadsFillShadowBanks :
    (∃ (s : State) (q : Nat) (i : U32) (c : Cmd) (sl sh : Nat) (d : Desc), Runs s q i 0x4A c
      ∧ s.layerSlot (s.owner q) (c.s 1) = some sl ∧ sh = 1 - s.mapEpoch sl % 2 ∧ d = s.dsc (s.owner q) c 2
      ∧ s.mapImgChecks (s.owner q) c = none ∧ 0 < c.s 0)
    ∧ (∃ (s : State) (q : Nat) (i : U32) (c : Cmd) (sl : Nat) (f : Flt), Runs s q i 0x4A c
      ∧ s.layerSlot (s.owner q) (c.s 1) = some sl ∧ s.mapImgChecks (s.owner q) c = some f)
    ∧ (∃ (s : State) (q : Nat) (i : U32) (c : Cmd) (d : Desc), Runs s q i 0x4C c ∧ d = s.dsc (s.owner q) c 3
      ∧ bitOf (c.s 1) 0 = true ∧ 0 < c.s 0 ∧ (∀ k, k < c.s 0 → fuSeedOk (leNat (s.strRd d (8 * k) 8)) = true))
    ∧ (∃ (s : State) (q : Nat) (i : U32) (c : Cmd) (d : Desc), Runs s q i 0x4C c ∧ d = s.dsc (s.owner q) c 3
      ∧ bitOf (c.s 1) 0 = true ∧ (∃ k, k < c.s 0 ∧ fuSeedOk (leNat (s.strRd d (8 * k) 8)) = false))
    ∧ (∃ (s : State) (q : Nat) (i : U32) (c : Cmd) (d : Desc), Runs s q i 0x4C c ∧ d = s.dsc (s.owner q) c 3
      ∧ bitOf (c.s 1) 0 = false ∧ 0 < c.s 0 ∧ (∀ k, k < c.s 0 → fuRecOk (s.strRd d (1024 * k) 1024) = true))
    ∧ (∃ (s : State) (q : Nat) (i : U32) (c : Cmd) (d : Desc), Runs s q i 0x4C c ∧ d = s.dsc (s.owner q) c 3
      ∧ bitOf (c.s 1) 0 = false ∧ (∃ k, k < c.s 0 ∧ fuRecOk (s.strRd d (1024 * k) 1024) = false)) :=
  ⟨⟨mapS 1, 0, 0, mapC, 0, _, _, runs_one _ _ _ _ _ (by decide +kernel), by decide +kernel, rfl, rfl, by decide +kernel,
      by decide +kernel⟩,
    ⟨mapS 2, 0, 0, mapC, 0, flt eBadField 7, runs_one _ _ _ _ _ (by decide +kernel), by decide +kernel, by decide +kernel⟩,
    ⟨seedS 0, 0, 0, seedC, _, runs_one _ _ _ _ _ (by decide +kernel), rfl, by decide +kernel, by decide +kernel, by decide +kernel⟩,
    ⟨seedS 16, 0, 0, seedC, _, runs_one _ _ _ _ _ (by decide +kernel), rfl, by decide +kernel, by decide +kernel⟩,
    ⟨recS [], 0, 0, recC, _, runs_one _ _ _ _ _ (by decide +kernel), rfl, by decide +kernel, by decide +kernel, by decide +kernel⟩,
    ⟨recS [0x80000000], 0, 0, recC, _, runs_one _ _ _ _ _ (by decide +kernel), rfl, by decide +kernel, by decide +kernel⟩⟩

theorem test_mapLoad : (after (exec (.mapLoad 0 0) (mapS 1))).rd32 ((mapS 1).mapLine 0 1) = 1
    ∧ phaseOf (exec (.mapLoad 0 0) (mapS 1)) 0 0 = some .complete := by decide +kernel
theorem test_fuLoad_shadow : (after (exec (.fuLoad 0 0) (seedS 0))).fu.bank1.seed = [(5, 7), (6, 9)]
    ∧ (after (exec (.fuLoad 0 0) (seedS 0))).fu.bank0.seed = [] := by decide +kernel

/-- A loaded shadow map in slot 0; a loaded shadow bank of the FU tables. -/
def shadowed : State := (up.setMapStat 0 1 true).setRbit 0x80004 1 true

theorem meets_PublishFlipsLoadedBanks :
    (∃ s q i c, Runs s q i 0x4B c)
    ∧ (∃ (s : State) (sl : Nat), sl < 256 ∧ s.mapStat sl 1 = true ∧ s.mapLoading sl = false)
    ∧ (∃ (s : State) (sl : Nat), s.mapStat sl 1 = false)
    ∧ (∃ s : State, s.rbit 0x80004 1 = true ∧ s.anyStarted (fun _ x => x.op == 0x4C) = false)
    ∧ (∃ s : State, s.rbit 0x80004 1 = false) :=
  ⟨⟨one (cm 0x4B [0]), 0, 0, cm 0x4B [0], runs_one _ _ _ _ _ (by decide +kernel)⟩,
    ⟨shadowed, 0, by decide +kernel⟩, ⟨up, 0, by decide +kernel⟩, ⟨shadowed, by decide +kernel⟩, ⟨up, by decide +kernel⟩⟩

/-- A flip makes the epoch one more, the map live and the mark clear (R95). -/
theorem test_flip : (shadowed.flipSlot true false 0).mapEpoch 0 = 1 ∧ (shadowed.flipSlot true false 0).mapStat 0 0 = true
    ∧ shadowed.flipFu.reg 0x80000 = 1 := by decide +kernel

-- tables

/-- A DESC_CREATE of handle 5, from an image at 0x2000 of one LINEAR FP32 row of 4 at 0x3000, started, and waiting to start. -/
def descC : Cmd := cm 0x48 [5, 0x2000, 0]
def descS (p : Phase) : State := (run { descC with phase := p } [(0x2000, [2, 0x3000, 0, 4, 1, 1, 1])]).setReg 0x70010 1
/-- A DESC_RETIRE of handles 3 and 4 that has marked handle 3, alone and beside a command that binds handle 4. -/
def retireC : Cmd := { cm 0x49 [3, 2] with retire := [3] }
def retireS : State := run retireC [at_ 3 (lin 2 0x2000 1 1 4)]
def retireBusy : State := retireS.setQueue 1 { cmds := [{ cm 0x30 [] with binds := [4] }] }

theorem meets_DescriptorsAreStoredAndRetired :
    (∃ s q i c, Runs s q i 0x48 c)
    ∧ (∃ (s : State) (q : Nat) (c : Cmd) (a : Nat) (ws : List Nat) (d : Desc), a = c.s 1 + 2 ^ 32 * c.s 2
      ∧ ws = (List.range 16).map (fun k => s.rd32 (a + 4 * k)) ∧ d = descOf (fun k => ws.getD k 0)
      ∧ s.descChecks (s.owner q) c (fun k => ws.getD k 0) = none)
    ∧ (∃ (s : State) (own h x : Nat) (ws : List Nat), ws.length = 14 ∧ (∀ w ∈ ws, w < 2 ^ 32) ∧ x < 2 ^ 48
      ∧ (∀ y ∈ s.dcache, y.own = own → y.h ≠ h))
    ∧ (∃ (s : State) (q : Nat) (i : U32) (c : Cmd) (hs : List Nat), Runs s q i 0x49 c
      ∧ hs = (List.range (min (c.s 1) (s.reg (kdsc (s.owner q) + 8) - c.h 0))).map (fun k => c.h 0 + k)
      ∧ s.anyBinds (s.owner q) hs = true)
    ∧ (∃ (s : State) (q : Nat) (i : U32) (c : Cmd) (hs : List Nat), Runs s q i 0x49 c
      ∧ hs = (List.range (min (c.s 1) (s.reg (kdsc (s.owner q) + 8) - c.h 0))).map (fun k => c.h 0 + k)
      ∧ s.anyBinds (s.owner q) hs = false ∧ c.retire ≠ []) :=
  ⟨⟨descS .started, 0, 0, descC, runs_one _ _ _ _ _ (by decide +kernel)⟩, ⟨descS .waiting, 0, descC, _, _, _, rfl, rfl, rfl, by decide +kernel⟩,
    ⟨up, 0, 5, 2 ^ 48 - 1, lin 2 0x3000 4 1 16 |>.take 14, by decide +kernel⟩,
    ⟨retireBusy, 0, 0, retireC, _, runs_one _ _ _ _ _ (by decide +kernel), rfl, by decide +kernel⟩,
    ⟨retireS, 0, 0, retireC, _, runs_one _ _ _ _ _ (by decide +kernel), rfl, by decide +kernel, by decide +kernel⟩⟩

/-- EXTENT 16 and VALID in the stored entry (R214). -/
theorem test_descCreate : (match startDescCreate (descS .waiting) 0 descC with
    | .go _ c => c.acts
    | _ => []) = [.write 0x1140 (wordsBytes [2, 0x3000, 0, 4, 1, 1, 1, 0, 0, 0, 0, 0, 0, 0, 16, 0x80000000]), .descSync 5 1] := by decide +kernel

/-- A POOL_CONFIG of three buffers in pool 2, metadata at 0x3000; a DIGEST_BEGIN of session 1 and a DIGEST_END of it; a
GROUP_TABLE of one expert entry. -/
def poolC : Cmd := cm 0x4E [3, 0xC02, 0x10000, 0, 0x3000, 0, 1]
def dgbC : Cmd := cm 0x50 [0, 1]
def dgeC : Cmd := cm 0x51 [0, 1, 1]
def dgeS : State := { run dgeC [at_ 1 (lin 3 0x2000 256 1 256)] with digests := [{ ctx := 0, sid := 1, q := 0 }] }
def grpC : Cmd := cm 0x28 [1, 1, 2, 0]
def grpS : State := run grpC [at_ 1 (lin 3 0x2000 32 1 32), at_ 2 (lin 3 0x3000 256 1 256), at_ 6 (lin 2 0x4000 8 4 64),
  (0x2000, [3, 0, 8, 0, 0, 0, 6, 0])]

theorem meets_TableCommandsWriteTheirTables :
    (∃ (s : State) (q : Nat) (i : U32) (c : Cmd) (n mt : Nat), Runs s q i 0x4E c ∧ n = c.s 0 ∧ mt = c.s 4 + 2 ^ 32 * c.s 5 ∧ 0 < n)
    ∧ (∃ s q i c, Runs s q i 0x50 c)
    ∧ (∃ (s : State) (q : Nat) (i : U32) (c : Cmd) (d : Digest), Runs s q i 0x51 c
      ∧ s.digests.find? (fun d => d.ctx == s.owner q && d.sid == fld (c.s 1) 1 0 && d.q == q) = some d)
    ∧ (∃ (s : State) (q : Nat) (i : U32) (c : Cmd) (fl got : Desc), Runs s q i 0x28 c ∧ fl = s.dsc (s.owner q) c 1
      ∧ got = s.dsc (s.owner q) c 2 ∧ bitOf (c.s 3) 0 = false ∧ 0 < c.s 0) :=
  ⟨⟨run poolC [], 0, 0, poolC, _, _, runs_one _ _ _ _ _ (by decide +kernel), rfl, rfl, by decide +kernel⟩,
    ⟨run dgbC [], 0, 0, dgbC, runs_one _ _ _ _ _ (by decide +kernel)⟩,
    ⟨dgeS, 0, 0, dgeC, { ctx := 0, sid := 1, q := 0 }, runs_one _ _ _ _ _ (by decide +kernel), by decide +kernel⟩,
    ⟨grpS, 0, 0, grpC, _, _, runs_one _ _ _ _ _ (by decide +kernel), rfl, rfl, by decide +kernel, by decide +kernel⟩⟩

/-- Buffer 0 is on top of the free stack (R264). -/
theorem test_pool_stack : (List.range 3).map (fun k => (after (exec (.poolConfig 0 0) (run poolC []))).rd32 (0x3000 + 12 + 4 * k))
    = [2, 1, 0] := by decide +kernel

-- Camber and the Ledger

/-- A CAMBER_ACCUM of one expert's count 7 for layer 0, held in slot 0; CAMBER_UPDATEs that load and that are local. -/
def camC : Cmd := cm 0x3C [1, 1]
def camS : State := (run camC [at_ 1 (lin 3 0x3000 70000 1 70000), (0x3024, [1, 1]), (0x3000 + destEcnt, [7])]).setReg 0x30100 0x100
def cmuC (w : U32) : Cmd := cm 0x3D [0x100, w]
def cmuS (w : U32) : State := (run (cmuC w) []).setReg 0x30100 0x100

/-- A CAMBER_UPDATE that reduces over group 1, a box of this one chip, with nothing to sum. -/
def cmuSlot : RingSlot := { ctx := 0, q := 0, idx := 0, gid := 1, gseq := 0, op := 1, dfmt := 3, retry := 0, members := [0], started := true }
def cmuR : State :=
  { ((run (cmuC 0) [(0x5020, [0, 0, 0x111])]).setReg (win 0 + 0x804) 0x5000).setReg (win 0 + 0x80C) 2 with rings := [(0, cmuSlot)] }

theorem group_alone (s : State) (h : (s.groupOf 0 1 == ([0], none)) = true) : s.group 0 1 = .ok [0] := by
  unfold State.group
  rw [beq_iff_eq.mp h]

theorem meets_CamberCommandsComplete :
    (∃ (s : State) (q : Nat) (i : U32) (c : Cmd) (sl : Nat) (d : Desc), Runs s q i 0x3C c
      ∧ s.accumSlot (s.owner q) c = some sl ∧ d = s.dsc (s.owner q) c 1 ∧ (s.destHdr d).t ≠ 0)
    ∧ (∃ (cs : List Nat) (j : Nat), cs.length ≤ 65536 ∧ j < cs.length)
    ∧ (∃ (s : State) (q : Nat) (i : U32) (c : Cmd) (sl e : Nat), Runs s q i 0x3D c ∧ fld (c.s 1) 1 0 = 2
      ∧ s.camberSlots (s.owner q) c = [(sl, e)])
    ∧ (∃ (s : State) (q : Nat) (i : U32) (c : Cmd) (sl : List (Nat × Nat)) (buf : Desc) (b : State), Runs s q i 0x3D c
      ∧ fld (c.s 1) 1 0 ≠ 2 ∧ bitOf (c.s 1) 2 = true ∧ sl = s.camberSlots (s.owner q) c ∧ buf = s.dsc (s.owner q) c 6
      ∧ b = (s.strWr buf 0 (s.camberCounts sl)).unhide q i ∧ b.camberSlots (s.owner q) c = sl ∧ b.dsc (s.owner q) c 6 = buf)
    ∧ (∃ (s : State) (q : Nat) (i : U32) (c : Cmd) (slot : Nat) (r : RingSlot), Runs s q i 0x3D c ∧ fld (c.s 1) 1 0 ≠ 2
      ∧ bitOf (c.s 1) 2 = false ∧ s.rings = [(slot, r)] ∧ r.q = q ∧ r.idx = i ∧ r.started = true ∧ r.reported = none
      ∧ r.decided = none ∧ r.finals = r.want ∧ r.tx = [] ∧ r.members = [s.chip] ∧ s.group r.ctx r.gid = .ok [s.chip]
      ∧ s.findLead r.ctx r.gid r.gseq r.attempt = none ∧ s.rbit 0x1A040 0 = false) :=
  ⟨⟨camS, 0, 0, camC, 0, _, runs_one _ _ _ _ _ (by decide +kernel), by decide +kernel, rfl, by decide +kernel⟩,
    ⟨[5], 0, by decide⟩, ⟨cmuS 2, 0, 0, cmuC 2, 0, 0, runs_one _ _ _ _ _ (by decide +kernel), by decide +kernel, by decide +kernel⟩,
    ⟨cmuS 4, 0, 0, cmuC 4, _, _, _, runs_one _ _ _ _ _ (by decide +kernel), by decide +kernel, by decide +kernel, rfl, rfl, rfl,
      by decide +kernel, by decide +kernel⟩,
    ⟨cmuR, 0, 0, cmuC 0, 0, cmuSlot, runs_one _ _ _ _ _ (by decide +kernel), by decide +kernel, by decide +kernel, by decide +kernel,
      rfl, rfl, rfl, rfl, rfl, by decide +kernel, rfl, by decide +kernel, group_alone _ (by decide +kernel), by decide +kernel,
      by decide +kernel⟩⟩

theorem test_camberRing : phaseOf (exec (.camberUpdate 0 0) cmuR) 0 0 = some .complete := by decide +kernel
theorem test_camberAccum : ((after (exec (.camberAccum 0 0) camS)).findCmd 0 0).map (fun c => c.acts) = some [.camberAdd 0 [7]] := by
  decide +kernel

def ldgC (op w : U32) : Cmd := { words := [op], slots := [0, w, 0, 0, 0, w], phase := .started }

def stateIs (n : Nat) (l : List (Nat × List Nat)) : Nat := (l.filter (fun p => lState p.2 == n)).length

theorem meets_LedgerCommandsComplete :
    (∃ (s : State) (q : Nat) (i : U32) (c : Cmd) (own : Nat) (used : List (Nat × List Nat)) (act done : List (Nat × List Nat) → Nat)
        (d : Desc) (x : AdmitSt), own = s.owner q ∧ used = s.ldgUsed own
      ∧ (act = fun l => (l.filter (fun p => lState p.2 == 1)).length) ∧ (done = fun l => (l.filter (fun p => lState p.2 == 2)).length)
      ∧ Runs s q i 0x40 c ∧ d = s.dsc own c 1
      ∧ x = (List.range (c.s 0)).foldl (fun x k => x.take ((List.range 8).map (fun j => s.str32 d (64 + 32 * k + 4 * j))))
          { rids := used.map (fun p => lRid p.2), free := (List.range 4096).filter (fun e => !(used.map (fun p => p.1)).contains e),
            aseq := s.ldgHdr own 1 })
    ∧ (∃ (s : State) (q : Nat) (i : U32) (c : Cmd) (own : Nat) (used left : List (Nat × List Nat)) (saved : Nat × List Nat → Bool),
        own = s.owner q ∧ used = s.ldgUsed own ∧ Runs s q i 0x41 c ∧ bitOf (c.s 5) 16 = true
      ∧ (saved = fun p => lState p.2 == 1 || (lState p.2 == 2 && p.2.getD 7 0 == s.ldgHdr own 0))
      ∧ left = (used.filter saved).map (fun p => (p.1, ldgUndone p.2)) ++ used.filter (fun p => !saved p))
    ∧ (∃ (s : State) (q : Nat) (i : U32) (c : Cmd) (own sseq : Nat) (used : List (Nat × List Nat)) (r : BuildSt × BuildSt),
        own = s.owner q ∧ used = s.ldgUsed own ∧ Runs s q i 0x41 c ∧ bitOf (c.s 5) 16 = false
      ∧ r = build used (c.s 0) (c.s 4) (fld (c.s 5) 15 0) ∧ sseq = (s.ldgHdr own 0 + 1) % 2 ^ 32)
    ∧ (∀ m ∈ [(0 : U32), 1], ∃ (s : State) (q : Nat) (i : U32) (c : Cmd) (own : Nat) (used left : List (Nat × List Nat))
        (hit : List (Nat × Option (Nat × List Nat))) (gone : List Nat), own = s.owner q ∧ used = s.ldgUsed own ∧ Runs s q i 0x42 c
      ∧ fld (c.s 1) 1 0 = m.toNat
      ∧ hit = (if fld (c.s 1) 1 0 = 1 then (List.range (c.s 0)).map (fun k => (s.str32 (s.dsc own c 2) (4 * k),
            used.find? (fun p => lRid p.2 == s.str32 (s.dsc own c 2) (4 * k))))
          else (used.filter (fun p => fld (c.s 1) 1 0 != 0 || lState p.2 == 2)).map (fun p => (lRid p.2, some p)))
      ∧ gone = hit.flatMap (fun h => (h.2.map (fun p => p.1)).toList) ∧ left = used.filter (fun p => !gone.contains p.1)) := by
  refine ⟨⟨run (ldgC 0x40 0) [], 0, 0, ldgC 0x40 0, _, _, stateIs 1, stateIs 2, _, _, rfl, rfl, rfl, rfl,
      runs_one _ _ _ _ _ (by decide +kernel), rfl, rfl⟩,
    ⟨run (ldgC 0x41 0x10000) [], 0, 0, ldgC 0x41 0x10000, _, _, _, _, rfl, rfl, runs_one _ _ _ _ _ (by decide +kernel),
      by decide +kernel, rfl, rfl⟩,
    ⟨run (ldgC 0x41 4) [], 0, 0, ldgC 0x41 4, _, _, _, _, rfl, rfl, runs_one _ _ _ _ _ (by decide +kernel), by decide +kernel, rfl, rfl⟩,
    fun m hm => ?_⟩
  simp only [List.mem_cons, List.not_mem_nil, or_false] at hm
  rcases hm with rfl | rfl
  · exact ⟨run (ldgC 0x42 0) [], 0, 0, ldgC 0x42 0, _, _, _, _, _, rfl, rfl, runs_one _ _ _ _ _ (by decide +kernel),
      by decide +kernel, rfl, rfl, rfl⟩
  · exact ⟨run (ldgC 0x42 1) [], 0, 0, ldgC 0x42 1, _, _, _, _, _, rfl, rfl, runs_one _ _ _ _ _ (by decide +kernel),
      by decide +kernel, rfl, rfl, rfl⟩

/-- One intake record is taken into the lowest free slot, and ASEQ moves on (R292). -/
theorem test_admit_takes : (({ rids := [], free := [3, 4], aseq := 8 } : AdmitSt).take [9, 2, 5, 0, 0, 0, 0, 0]).ents
      = [(3, [1, 9, 2, 0, 5, 0, 8, 0, 0, 0, 0, 0, 0, 0, 0, 0])]
    ∧ (({ rids := [9], free := [3, 4], aseq := 8 } : AdmitSt).take [9, 2, 5, 0, 0, 0, 0, 0]).ans = [(0xFFFF, 2)] := by decide

/-- Two active requests of 3 and 2 tokens and a budget of 4: the first is taken, the second passed over (R293). -/
theorem test_build : (build [(0, [1, 1, 1, 0, 3, 0, 1]), (1, [1, 2, 1, 0, 2, 0, 2])] 4 0 100).2.used = 3 := by decide +kernel

-- routing

/-- A route job of one row and one expert, its block: E 1, k 1, FN 0; scored columns none; and sealed. -/
def rowJob : Job := { ctx := 0, job := 1, q := 0, t := 1, param := 0, stage := 0, rpb := [0x100001], cols := 1, rows := [[]] }
def scored : Job := { rowJob with rows := [[{ live := true, x := 5, v := 5, key := 5 }]] }
def sealed_ : Job := { scored with sel := [{ ents := [(0, 0x3F800000)] }] }
def admitted : Job := { sealed_ with
  admitted := true, asel := sealed_.sel, cap := 4,
  krecs := [{ token := 0, kslot := 0, expert := 0, repl := 0, chip := 0, lslot := 0, weight := 0x3F800000, nolive := false }] }
def selC : Cmd := cm 0x11 [0, 0, 1, 0, 1, 5]
def selS : State := { run selC [at_ 5 (lin 2 0x2000 1 1 4), (0x2000, [0x3F800000])] with
  jobs := [rowJob], regions := [{ pipe := 0, ctx := 0, job := true }] }
def sealC : Cmd := cm 0x12 [1, 0x100000, 0]
def sealS : State := { run sealC [] with jobs := [scored] }
def admC : Cmd := cm 0x13 [1, 0, 0]
def sortC : Cmd := cm 0x14 [1, 1, 2]
def sortS : State := { run sortC [at_ 1 (lin 3 0x2000 32 1 32), at_ 2 (lin 3 0x3000 400000 1 400000)] with jobs := [admitted] }

theorem meets_SortKeepsFirstOfEachBucket : ∃ (c : Nat) (rs : List KRec) (r : KRec), r ∈ rs ∧ r.nolive = false ∧ 0 < c :=
  ⟨1, admitted.krecs, admitted.krecs.headD default, by decide +kernel⟩

theorem meets_SeparateFormFillsAndEndsTheJob :
    (∃ (s : State) (q : Nat) (i : U32) (c : Cmd) (j : Job) (own : Nat), Runs s q i 0x11 c ∧ own = s.owner q
      ∧ s.findJob own (c.s 2) = some j
      ∧ (∀ b ∈ s.passBlocks j.t 0, s.placed { pipe := 0, ctx := own, job := true, q := j.q } b = true)
      ∧ (∀ x ∈ j.rows, c.s 3 ≤ x.length) ∧ j.t ≠ 0)
    ∧ (∃ (s : State) (q : Nat) (i : U32) (c : Cmd) (j : Job) (own : Nat), Runs s q i 0x12 c ∧ own = s.owner q
      ∧ s.findJob own (c.s 0) = some j ∧ (∀ x ∈ j.rows, j.block.cols j.stage ≤ x.length) ∧ j.t ≠ 0)
    ∧ (∃ (s : State) (q : Nat) (i : U32) (c : Cmd) (j : Job) (own : Nat), Runs s q i 0x13 c ∧ own = s.owner q
      ∧ s.findJob own (c.s 0) = some j ∧ bitOf (c.s 1) 20 = false ∧ j.sel.length = j.t)
    ∧ (∃ (s : State) (q : Nat) (i : U32) (c : Cmd) (j : Job) (own : Nat) (o : Sorted) (ws : List (Nat × List Byte)),
      Runs s q i 0x14 c ∧ own = s.owner q ∧ s.findJob own (c.s 0) = some j ∧ j.t ≠ 0 ∧ o = sortRecs j.cap j.krecs
      ∧ ws = sortWrites s.chip ((j.mapB.getD (0, 0)).2.toNat) j.cap j.t j.block.e j.block.layer (s.dsc own c 1)
          (s.dsc own c 2) j.asel o) :=
  ⟨⟨selS, 0, 0, selC, rowJob, 0, runs_one _ _ _ _ _ (by decide +kernel), by decide +kernel, by decide +kernel, by decide +kernel,
      by decide +kernel, by decide⟩,
    ⟨sealS, 0, 0, sealC, scored, 0, runs_one _ _ _ _ _ (by decide +kernel), by decide +kernel, by decide +kernel, by decide +kernel,
      by decide⟩,
    ⟨{ run admC [] with jobs := [sealed_] }, 0, 0, admC, sealed_, 0, runs_one _ _ _ _ _ (by decide +kernel), by decide +kernel,
      by decide +kernel, by decide +kernel, by decide +kernel⟩,
    ⟨sortS, 0, 0, sortC, admitted, 0, _, _, runs_one _ _ _ _ _ (by decide +kernel), by decide +kernel, by decide +kernel, by decide,
      rfl, rfl⟩⟩

theorem test_seal_selects : ((after (exec (.seal 0 0) sealS)).findJob 0 1).map (fun j => j.sel.map (fun x => x.ents.map (fun p => p.1)))
    = some [[0]] := by decide +kernel

/-- A ROUTE of one row of one FP32 logit at 0x2000, in LMODE 2, with the block of rowJob. -/
def routeC : Cmd := { cm 0x10 [1, 0, 2, 3, 0x200005] with rpb := [0x100001] }
def routeS : State := { run routeC [at_ 2 (lin 3 0x3000 32 1 32), at_ 3 (lin 3 0x4000 400000 1 400000), at_ 5 (lin 2 0x2000 1 1 4),
  (0x2000, [0x3F800000])] with regions := [{ pipe := 0, ctx := 0, job := false }], tapRuns := [{ q := 0, idx := 0, ctx := 0, stream := none, rows := [[]] }] }

theorem meets_RouteWritesRecordsAndDest : ∃ (s : State) (q : Nat) (i : U32) (c : Cmd) (own : Nat) (r : Rpb)
    (rows : List (List Score)) (sels : List Sel) (m : Nat × U32) (o : Sorted) (ws : List (Nat × List Byte)),
    Runs s q i 0x10 c ∧ own = s.owner q
    ∧ s.findRun q i = some { q := q, idx := i, ctx := own, stream := none, rows := List.replicate (c.s 0) [] }
    ∧ c.stage = 0 ∧ c.lmode = 2 ∧ c.s 0 ≠ 0 ∧ s.multiPass (c.s 0) = false ∧ r = c.block
    ∧ (∀ b ∈ s.passBlocks (c.s 0) 0, s.placed (c.region own q) b = true)
    ∧ (∀ y ∈ s.dcache, y.own = own → y.words = s.descWords own y.h) ∧
    (rows = (List.range (c.s 0)).map (fun k => s.scoreRow (s.scoreEnv r 0 c.fuB c.biasB) default (s.dsc own c 4) k 0 (r.cols 0))) ∧
    (sels = (List.range (c.s 0)).map (fun k => r.seal 0 (s.scoreEnv r 0 c.fuB c.biasB).fu default (rows.getD k []))) ∧
    m = c.mapB.getD (0, 0) ∧ o = sortRecs (s.capOf r (c.s 0) m.1 (m.2.toNat % 2)) (s.allRecs m.1 (m.2.toNat % 2) r.repl sels) ∧
    ws = sortWrites s.chip m.2.toNat (s.capOf r (c.s 0) m.1 (m.2.toNat % 2)) (c.s 0) r.e r.layer (s.dsc own c 2)
      (s.dsc own c 3) sels o :=
  ⟨routeS, 0, 0, routeC, _, _, _, _, _, _, _, runs_one _ _ _ _ _ (by decide +kernel), rfl, by decide +kernel, by decide +kernel,
    by decide +kernel, by decide +kernel, by decide +kernel, rfl, by decide +kernel, by decide +kernel, rfl, rfl, rfl, rfl, rfl⟩

theorem test_route : phaseOf (exec (.route 0 0) routeS) 0 0 = some .complete := by decide +kernel

-- exchanges

/-- An XB at 0x2000 whose one member is this chip; a DEST at 0x3000 of one token, one expert, one bucket of two rows for
slot 5 of this chip; an offset table at 0x2800. -/
def xchD : List (Nat × List Nat) := [at_ 1 (lin 3 0x2800 8 1 8), at_ 2 (lin 3 0x3000 400000 1 400000), at_ 3 (lin 3 0x2000 1024 1 1024),
  (0x2000, [0x10, 1]), (0x3014, [1]), (0x3024, [1, 1]), (0x3000 + destBuckets 1 1, [0x5000, 0, 0, 2])]
def cxC : Cmd := cm 0x15 [0, 0, 2, 3, 0x50007, 1]
def cxE : Exch := { ctx := 0, gen := 7, xid := 5, xb := 3, dest := 2, ofs := 1, cxq := some (0, 0), cx0 := true,
                    ph1 := [{ src := 0, mis := false, epoch := 0, cap := 0, layer := 0,
                              ents := [{ lslot := 5, repl := 0, expert := 0, a := 4, b := 1 }] }] }
def cxS : State := { run cxC xchD with exch := [cxE] }

theorem meets_CountXchgFixesRows : ∃ (s : State) (q : Nat) (i : U32) (c : Cmd) (own : Nat) (e : Exch)
    (bs : List (Nat × Nat × Nat × Nat × Nat × Nat)), Runs s q i 0x15 c ∧ own = s.owner q ∧
    s.findExch own c.gen c.xid = some e ∧ e.cx0 = true ∧
    (∀ m ∈ (s.readXb (s.dsc own c 3)).members, ∃ p ∈ e.ph1, p.src = m) ∧ s.txBusy q i = false ∧
    (∀ p ∈ e.ph1, p.mis = false) ∧ bs = s.bucketsOf (s.dsc own c 2) (s.destHdr (s.dsc own c 2)) ∧
    (∀ b ∈ bs, (bucketAnswer e.ph1 b.1 b.2.1).isSome = true) ∧ bs.length = 1 :=
  ⟨cxS, 0, 0, cxC, 0, cxE, _, runs_one _ _ _ _ _ (by decide +kernel), by decide +kernel, by decide +kernel, by decide,
    by decide +kernel, by decide +kernel, by decide, rfl, by decide +kernel, by decide +kernel⟩

/-- One of the two records of the bucket is admitted at row 4, the other dropped (R85, R165). -/
theorem test_countXchg : ((after (exec (.countXchg 0 0) cxS)).findCmd 0 0).map (fun c => (c.phase, c.recs))
    = some (.complete, [⟨0, true, 4⟩, ⟨1, false, 0⟩]) := by decide +kernel

def dspC : Cmd := cm 0x20 [0, 0, 2, 0, 3, 0x50007]
def dspE : Exch := { cxE with listed := true, upd := [⟨0, true, 4⟩, ⟨1, false, 0⟩] }
def dspS : State := { run dspC xchD with exch := [dspE] }

theorem meets_DispatchCompletesWhenAnswered : ∃ (s : State) (q : Nat) (i : U32) (c : Cmd) (own : Nat) (e : Exch),
    Runs s q i 0x20 c ∧ own = s.owner q ∧ s.findExch own c.gen c.xid = some e ∧ e.listed = true ∧ e.todo = [] ∧ e.asked = []
    ∧ s.ordOf own = false ∧ s.txBusy q i = false ∧ (fld (c.s 5) 26 24 = 0 ∨ fld (c.s 5) 26 24 = 2 ∨ ∀ m ∈ dspDests (s.bucketsOf (s.dsc own c 2) (s.destHdr (s.dsc own c 2))),
      m = s.chip ∨ s.peerVer m ≠ 1) ∧ isMx (wireFmt (fld (c.s 5) 26 24)) = false :=
  ⟨dspS, 0, 0, dspC, 0, dspE, runs_one _ _ _ _ _ (by decide +kernel), by decide +kernel, by decide +kernel, by decide, by decide,
    by decide, by decide +kernel, by decide +kernel, by decide +kernel, by decide +kernel⟩

theorem test_dispatch : ((after (exec (.dispatch 0 0) dspS)).findCmd 0 0).map (fun c => (c.phase, c.recs.length, c.acts.head?))
    = some (.complete, 2, some (.count 4 1)) := by decide +kernel

/-- A RETURN whose one Bay has a final list of no landing. -/
def retC : Cmd := cm 0x21 [0, 0, 3, 0x50007]
def retR : RetRun := { q := 0, idx := 0, ctx := 0, gen := 7, xid := 5, bays := [{ lslot := 5, out := 1, elems := 4, land := 2, nland := some 0 }] }
def retS : State := { run retC xchD with rets := [retR] }

theorem meets_ReturnCompletesWhenHandedOn : ∃ (s : State) (q : Nat) (i : U32) (c : Cmd) (own gen xid : Nat) (r : RetRun)
    (pitch : RetBay → Nat), Runs s q i 0x21 c ∧ own = s.owner q ∧ gen = fld (c.s 3) 15 0 ∧ xid = fld (c.s 3) 23 16
    ∧ s.findRet own gen xid = some r ∧ (pitch = fun b => pitchOf (rowBytes (s.readXb (s.dsc own c 2)).rfmt b.elems))
    ∧ s.retDone r pitch = true ∧ s.txBusy q i = false :=
  ⟨retS, 0, 0, retC, 0, 7, 5, retR, _, runs_one _ _ _ _ _ (by decide +kernel), by decide +kernel, by decide +kernel,
    by decide +kernel, by decide +kernel, rfl, by decide +kernel, by decide +kernel⟩

/-- A COMBINE of one token without an answer, into one row of two FP32 at 0x2800. -/
def comC : Cmd := { cm 0x2A [1, 3, 2, 3, 1, 0x50007, 0x100000, 5] with pre := true }
def comS (p : Bool) : State := run { comC with pre := p } [at_ 1 (lin 2 0x2800 2 1 8), at_ 2 (lin 3 0x3000 400000 1 400000),
  at_ 3 (lin 3 0x2000 1024 1 1024), (0x2800, [1, 2]), (0x3024, [1, 1])]

/-- A COMBINE of one token with one answer, [1.0, 3.0] of weight 2.0, into one row of two FP32 at 0x2800. -/
def comD : Cmd := { cm 0x2A [1, 6, 2, 3, 1, 0x50007, 0x100000, 5] with pre := true }
def comA : State := run comD [at_ 1 (lin 2 0x2800 2 1 8), at_ 2 (lin 3 0x3000 400000 1 400000), at_ 3 (lin 3 0x2000 1024 1 1024),
  at_ 5 (lin 2 0x2600 2 1 8), at_ 6 (lin 3 0x2700 16 1 16), (0x2000, [0x12, 1, 0, 0, 5]), (0x2600, [0x3F800000, 0x40400000]),
  (0x2700, [0x80000000, 0, 0, 0x40000000]), (0x3004, [1]), (0x3024, [1, 1])]

def comZ : Cmd := cm 0x2A [0, 3, 2, 3, 1, 0x50007, 0x100000, 5]

theorem meets_CombineWritesItsRows :
    (∃ (s : State) (q : Nat) (i : U32) (c : Cmd) (own : Nat) (out : Desc), Runs s q i 0x2A c ∧ own = s.owner q
      ∧ out = s.dsc own c 4 ∧ (c.pre = true ∨ c.s 0 = 0) ∧ isFloat out.fmt = true ∧ c.s 0 = 1
      ∧ s.weightTab (s.dsc own c 1) (s.destHdr (s.dsc own c 2)).akept = []
      ∧ bitOf (s.strLe (s.dsc own c 2) (destTstat (s.destHdr (s.dsc own c 2)).e) 1) 4 = false)
    ∧ (∃ (s : State) (q : Nat) (i : U32) (c : Cmd) (own : Nat) (out d : Desc) (b : Xb) (ts : Nat) (ps : List Desc)
        (wrs : List (Nat × List Byte)) (tab : List (Nat × Nat × Nat)) (ans : Nat → List (K36 × List K36)), Runs s q i 0x2A c
      ∧ own = s.owner q ∧ out = s.dsc own c 4 ∧ c.pre = true ∧ c.s 0 = 1 ∧ d = s.dsc own c 2 ∧ b = s.readXb (s.dsc own c 3)
      ∧ ts = destTstat (s.destHdr d).e ∧ ps = b.planes.map (fun p => s.desc own p)
      ∧ wrs = out.rowsPut (c.s 0) (fun _ => List.replicate (out.d0 * ebOf out.fmt) 0)
      ∧ tab = s.weightTab (s.dsc own c 1) (s.destHdr d).akept
      ∧ (ans = fun t => (List.range ps.length).flatMap (fun k =>
          ((tab.filter (fun x => x.1 == t && x.2.1 == k)).getLast?.map (fun x => (kOf32 x.2.2, rowVals b.rfmt out.d0
            (s.strRd (ps.getD k default) (t * (ps.getD k default).rowB) (out.d0 * ebOf b.rfmt))))).toList))
      ∧ missB wrs 1 (fun t => d.byteAt (ts + t)) = true
      ∧ ps.all (fun pd => missB wrs (out.d0 * ebOf b.rfmt) (fun o => pd.byteAt o)) = true ∧ (ans 0).length = 1)
    ∧ (∃ (s : State) (q : Nat) (i : U32) (c : Cmd), s.findCmd q i = some c ∧ s.live = true ∧ c.op = 0x2A
      ∧ s.ctxRuns (s.owner q) = true)
    ∧ (∃ (s : State) (q : Nat) (i : U32) (c : Cmd) (out : Desc), Runs s q i 0x2A c ∧ out = s.dsc (s.owner q) c 4 ∧ c.s 0 = 0
      ∧ isFloat out.fmt = true) :=
  ⟨⟨comS true, 0, 0, comC, 0, _, runs_one _ _ _ _ _ (by decide +kernel), by decide +kernel, rfl, by decide, by decide +kernel,
      by decide +kernel, by decide +kernel, by decide +kernel⟩,
    ⟨comA, 0, 0, comD, _, _, _, _, _, _, _, _, _, runs_one _ _ _ _ _ (by decide +kernel), rfl, rfl, rfl, by decide +kernel, rfl, rfl, rfl,
      rfl, rfl, rfl, rfl, by decide +kernel, by decide +kernel, by decide +kernel⟩,
    ⟨(comS false).setReg (kctx 0 + 4) 1, 0, 0, { comC with pre := false }, by decide +kernel, by decide +kernel, by decide +kernel,
      by decide +kernel⟩,
    ⟨run comZ [at_ 1 (lin 2 0x2800 2 1 8)], 0, 0, comZ, _, runs_one _ _ _ _ _ (by decide +kernel), rfl, by decide, by decide +kernel⟩⟩

theorem test_combine_zeros : (after (exec (.combine 0 0) (comS true))).rd 0x2800 12 = List.replicate 12 0 := by decide +kernel
/-- 2.0 × [1.0, 3.0] = [2.0, 6.0], in ordered mode (R155, R156). -/
theorem test_combine_weighs : (after (exec (.combine 0 0) (comA.setReg (win 0 + 0x700) 1))).rd 0x2800 8
    = wordsBytes [0x40000000, 0x40C00000] := by decide +kernel
/-- Counter 0 reads 0, and 0 - 5 is below 0: the prefetch wait is not met (R28, R153). -/
theorem test_prefetch_waits : ((after (exec (.combinePrefetch 0 0) ((comS false).setReg (kctx 0 + 4) 1))).findCmd 0 0).map
    (fun c => c.pre) = some false := by decide +kernel

def drainC : Cmd := cm 0x22 [7]
def drainS (ls : List Landing) : State := { run drainC [] with landings := ls }
def land7 : Landing := { n := 0, ctx := 0, gen := 7, spans := [(0x8000, 4)] }
def barC : Cmd := cm 0x05 [0, 0, 0x50007]
def bar0 : Barrier := { ctx := 0, q := 0, idx := 0, gen := 7, bid := 5, members := [0], lead := 0 }
def barS (b : Barrier) : State := { run barC [] with barriers := [b] }

theorem meets_DrainAndBarrierComplete :
    (∃ s q i c, Runs s q i 0x22 c ∧ s.drained (s.owner q) (fld (c.s 0) 15 0) (bitOf (c.s 0) 16) = true)
    ∧ (∃ s q i c, Runs s q i 0x22 c ∧ s.drained (s.owner q) (fld (c.s 0) 15 0) (bitOf (c.s 0) 16) = false)
    ∧ (∃ (s : State) (q : Nat) (i : U32) (c : Cmd) (b : Barrier), Runs s q i 0x05 c ∧ c.ran = false
      ∧ s.findBar (s.owner q) (fld (c.s 2) 15 0) (fld (c.s 2) 23 16) = some b ∧ b.q = q ∧ b.idx = i
      ∧ b.members = [s.chip] ∧ b.trel = none ∧ b.mis = false ∧ b.released = false)
    ∧ (∃ (s : State) (c gen bid : Nat) (b : Barrier) (tr : U64), s.findBar c gen bid = some b ∧ b.trel = some tr
      ∧ s.live = true ∧ b.released = false ∧ b.mis = false) :=
  ⟨⟨drainS [], 0, 0, drainC, runs_one _ _ _ _ _ (by decide +kernel), by decide +kernel⟩,
    ⟨drainS [land7], 0, 0, drainC, runs_one _ _ _ _ _ (by decide +kernel), by decide +kernel⟩,
    ⟨barS bar0, 0, 0, barC, bar0, runs_one _ _ _ _ _ (by decide +kernel), by decide +kernel⟩,
    ⟨barS { bar0 with trel := some 9 }, 0, 7, 5, { bar0 with trel := some 9 }, 9, by decide +kernel⟩⟩

theorem test_drain : phaseOf (exec (.drain 0 0) (drainS [])) 0 0 = some .complete
    ∧ phaseOf (exec (.drain 0 0) (drainS [land7])) 0 0 = some .started := by decide +kernel
theorem test_barrier_alone : phaseOf (exec (.barrier 0 0) (barS bar0)) 0 0 = some .complete := by decide +kernel
theorem test_barrierRelease : phaseOf (exec (.barrierRelease 0 7 5) (barS { bar0 with trel := some 9 })) 0 0 = some .complete := by
  decide +kernel

/-- A gate table of one entry at 0x3000 and its FEED_ARM; a feed of an entry with 3 rows ready of 4, whole, and being killed. -/
def faC : Cmd := cm 0x29 [0, 1, 0, 0]
def feed0 (ab : Option AbortWhy) (e : FeedEnt) : Feed := { id := 9, q := 0, idx := 0, ctx := 0, gen := 0, xid := 0, gate := true, got := 1,
                                                            ents := [e], abort := ab }
def faS (fs : List Feed) : State := { run faC [at_ 1 (lin 3 0x3000 256 1 256), (0x3000, [0x2001])] with feeds := fs }
def part3 : FeedEnt := { lslot := 5, m := 4, ready := 3 }
def whole4 : FeedEnt := { lslot := 5, m := 4, ready := 4, done := 4, closed := true }
/-- An expert table of one Bay, local slot 5 of one row of four elements, and pool 1 of two buffers with f free; the
control block lies at 0x6800. -/
def faX : Cmd := cm 0x29 [1, 1, 0, 0x50007, 0]
def faP (f : Nat) : State := { (((((((run faX [at_ 1 (lin 3 0x3000 256 1 256), (0x3000, [1]), (0x3040, [5, 1, 0, 0, 0, 4]), (0x6028, [0x6800]),
    (0x8000, [0x800101, 0, 1])]).setReg (kcas 1) (2 + 8 * 2 ^ 21)).setReg (kcas 1 + 4) 0x10000).setReg (kcas 1 + 0xC) 0x8000).setReg (kcas 1 + 0x14)
    0x10003).setReg (kcas 1 + 0x18) f).setReg (win 0 + 0x518) 0x6000) with feeds := [] }
/-- A Bay of 128 rows at the same place, its one tile full. -/
def bayFull : State := { up.setReg (win 0 + 0x518) 0x6000 with mem := memOf [(0x6028, [0x6800]), (0x6800, [1, 128]), (0x6834, [0x7000]), (0x7000, [128])] }
def feedIdle (fs : List Feed) : State := { tab with feeds := fs }

theorem faX_arms : ∀ n ∈ [0, 1], ∃ (s : State) (q : Nat) (i : U32) (c : Cmd) (own gen xid : Nat) (d : Desc) (ps : List Nat) (u v : State),
        Runs s q i 0x29 c ∧ own = s.owner q ∧ d = s.dsc own c 1
      ∧ s.feeds.any (fun f => f.q == q && f.idx == i && !f.ended) = false ∧ gen = fld (c.s 3) 15 0 ∧ xid = fld (c.s 3) 23 16
      ∧ c.h 2 = 0 ∧ s.gotGate d = false ∧ s.oldFeed q i = none ∧ (ps = (List.range (min 8 (fld (s.str32 (s.dsc own c 2) 0) 7 4))).map
          (fun k => (s.desc own (fld (s.str32 (s.dsc own c 2) (16 + 4 * k)) 19 0)).base)) ∧ s.gotSlots d = [5]
      ∧ (n = 1 → s.armBays own gen xid d 0 (s.gotL d) = (none, u) ∧ u.cmdTakes own gen xid 10 .plane ps = (none, v))
      ∧ (n = 0 → s.armBays own gen xid d 0 (s.gotL d) = (some (flt ePoolEmpty 0x10), u)) := by
  intro n hn
  simp only [List.mem_cons, List.not_mem_nil, or_false] at hn
  rcases hn with rfl | rfl
  · exact ⟨faP 0, 0, 0, faX, _, _, _, _, _, _, up, runs_one _ _ _ _ _ (by decide +kernel), rfl, rfl, by decide +kernel, rfl, rfl,
      by decide +kernel, by decide +kernel, by decide +kernel, rfl, by decide +kernel, fun h => absurd h (by decide),
      fun _ => pair_of _ _ (by decide +kernel)⟩
  · exact ⟨faP 1, 0, 0, faX, _, _, _, _, _, _, _, runs_one _ _ _ _ _ (by decide +kernel), rfl, rfl, by decide +kernel, rfl, rfl,
      by decide +kernel, by decide +kernel, by decide +kernel, rfl, by decide +kernel,
      fun _ => ⟨pair_of _ _ (by decide +kernel), pair_of _ _ (by decide +kernel)⟩, fun h => absurd h (by decide)⟩

theorem meets_FeedsOpenAndEnd :
    (∃ (s : State) (q : Nat) (i : U32) (c : Cmd) (own : Nat) (d : Desc), Runs s q i 0x29 c ∧ own = s.owner q ∧ d = s.dsc own c 1
      ∧ s.feeds.any (fun f => f.q == q && f.idx == i && !f.ended) = false ∧ c.h 2 = 0 ∧ s.gotGate d = true ∧ s.oldFeed q i = none)
    ∧ (∀ n ∈ [0, 1], ∃ (s : State) (q : Nat) (i : U32) (c : Cmd) (own gen xid : Nat) (d : Desc) (ps : List Nat) (u v : State),
        Runs s q i 0x29 c ∧ own = s.owner q ∧ d = s.dsc own c 1
      ∧ s.feeds.any (fun f => f.q == q && f.idx == i && !f.ended) = false ∧ gen = fld (c.s 3) 15 0 ∧ xid = fld (c.s 3) 23 16
      ∧ c.h 2 = 0 ∧ s.gotGate d = false ∧ s.oldFeed q i = none ∧ (ps = (List.range (min 8 (fld (s.str32 (s.dsc own c 2) 0) 7 4))).map
          (fun k => (s.desc own (fld (s.str32 (s.dsc own c 2) (16 + 4 * k)) 19 0)).base)) ∧ s.gotSlots d = [5]
      ∧ (n = 1 → s.armBays own gen xid d 0 (s.gotL d) = (none, u) ∧ u.cmdTakes own gen xid 10 .plane ps = (none, v))
      ∧ (n = 0 → s.armBays own gen xid d 0 (s.gotL d) = (some (flt ePoolEmpty 0x10), u)))
    ∧ (∃ (s : State) (own e o cap w5 pitch n b : Nat) (d : Desc), o = 64 + 64 * e ∧ cap = s.str32 d (o + 4) ∧ w5 = s.str32 d (o + 20)
      ∧ pitch = pitchOf (rowBytes (wireFmt (fld w5 19 17)) (elemsOf w5))
      ∧ n = 256 * ((cap * pitch + 8 * cap + cap / 128 + 255) / 256) ∧ b = s.bcb own (fld (s.str32 d o) 11 0)
      ∧ (s.alloc own n false false).isSome = true ∧ b + 64 ≤ 2 ^ 48 ∧ missB (d.put o (List.replicate 64 0)) 64 (fun k => b + k) = true)
    ∧ (∃ (s : State) (c b : Nat) (x : FeedEnt), x.closed = false ∧ s.rf 0x10000 3 0 ≠ 1 ∧ b = s.bcb c x.lslot ∧ s.readyOf c x = 128)
    ∧ (∃ (s : State) (q : Nat) (i : U32) (c : Cmd) (f : Feed), Runs s q i 0x29 c ∧ s.feeds = [f] ∧ f.q = q ∧ f.idx = i
      ∧ f.ended = false ∧ f.abort = none ∧ f.gate = true ∧ (∀ e ∈ f.ents, e.complete = true))
    ∧ (∃ (s : State) (r : FeedResp) (f : Feed) (x : FeedEnt), s.live = true ∧ s.findFeed r.feed = some f ∧ r.parity = false
      ∧ r.type = 1 ∧ f.ents[r.entry]? = some x ∧ s.doneOk x r.count = true
      ∧ (∀ g ∈ s.feeds, (s.findCmd g.q g.idx).all (fun y => y.op == 0x29) = true))
    ∧ (∃ (s : State) (r : FeedResp) (f : Feed), s.live = true ∧ s.findFeed r.feed = some f ∧ r.parity = false ∧ r.type = 2
      ∧ f.abort = some .kill ∧ s.rst.iso = false)
    ∧ (∃ (s : State) (n : Nat) (f : Feed), s.findFeed n = some f ∧ s.live = true ∧ s.refclk = true ∧ f.abort = some .kill
      ∧ (∀ y ∈ s.started, y.2.op ≠ 0x29 ∨ y.2.phase ≠ .started)) :=
  ⟨⟨faS [], 0, 0, faC, 0, _, runs_one _ _ _ _ _ (by decide +kernel), by decide +kernel, rfl, by decide +kernel, by decide +kernel,
      by decide +kernel, by decide +kernel⟩,
    faX_arms, ⟨faP 1, 0, 0, _, _, _, _, _, _, (faP 1).desc 0 1, rfl, rfl, rfl, rfl, rfl, rfl, by decide +kernel⟩,
    ⟨bayFull, 0, _, { lslot := 5 }, rfl, by decide +kernel, rfl, by decide +kernel⟩,
    ⟨faS [feed0 none whole4], 0, 0, faC, feed0 none whole4, runs_one _ _ _ _ _ (by decide +kernel), by decide +kernel⟩,
    ⟨faS [feed0 none part3], { w0 := 0x90001, w1 := 0, w2 := 3, w3 := 0 }, feed0 none part3, part3, by decide +kernel⟩,
    ⟨faS [feed0 (some .kill) part3], { w0 := 0x90002, w1 := 0, w2 := 0, w3 := 0 }, feed0 (some .kill) part3, by decide +kernel⟩,
    ⟨feedIdle [feed0 (some .kill) part3], 9, feed0 (some .kill) part3, by decide +kernel⟩⟩

theorem test_feedDone : (after (exec (.feedDone { w0 := 0x90001, w1 := 0, w2 := 3, w3 := 0 }) (faS [feed0 none part3]))).feeds.map
    (fun f => f.ents.map (fun e => e.done)) = [[3]] := by decide +kernel

/-- A collective on group 1 of context 0, a box of this one chip: not begun; begun and all final; led by chip 4. -/
def ringC (op : Nat) : Cmd := cm op [0, 0, 0, 0]
def slot0 : RingSlot := { ctx := 0, q := 0, idx := 0, gid := 1, gseq := 0, op := 2, dfmt := 0, retry := 0, members := [0] }
def slotF : RingSlot := { slot0 with started := true, finals := 1 }
def slotL : RingSlot := { slotF with finals := 2, members := [4, 0] }
def ringS (op : Nat) (r : RingSlot) : State :=
  { ((run (ringC op) [(0x5020, [0, 0, 0x111])]).setReg (win 0 + 0x804) 0x5000).setReg (win 0 + 0x80C) 2 with rings := [(0, r)] }

theorem meets_CollectivesBeginAndDecide (op : Nat) (h : op ∈ [0x38, 0x39, 0x3A, 0x3B]) :
    (∃ (s : State) (q : Nat) (i : U32) (c : Cmd) (slot : Nat) (r : RingSlot), Runs s q i op c ∧ s.rings = [(slot, r)] ∧ r.q = q
      ∧ r.idx = i ∧ r.started = false)
    ∧ (∃ (s : State) (q : Nat) (i : U32) (c : Cmd) (slot : Nat) (r : RingSlot), Runs s q i op c ∧ s.rings = [(slot, r)] ∧ r.q = q
      ∧ r.idx = i ∧ r.started = true ∧ r.reported = none ∧ r.decided = none ∧ r.finals = r.want ∧ r.tx = [] ∧ r.members = [s.chip]
      ∧ s.group r.ctx r.gid = .ok [s.chip] ∧ s.findLead r.ctx r.gid r.gseq r.attempt = none ∧ s.rbit 0x1A040 0 = false)
    ∧ (∃ (s : State) (q : Nat) (i : U32) (c : Cmd) (slot : Nat) (r : RingSlot) (l : Nat), Runs s q i op c ∧ s.rings = [(slot, r)]
      ∧ r.q = q ∧ r.idx = i ∧ r.started = true ∧ r.reported = none ∧ r.decided = none ∧ r.finals = r.want ∧ r.tx = [] ∧ r.members.head? = some l
      ∧ l ≠ s.chip) := by
  have run_ : ∀ r ∈ [slot0, slotF, slotL], ∀ n ∈ [0x38, 0x39, 0x3A, 0x3B], ((ringS n r).live
    && ((ringS n r).findCmd 0 0 == some (ringC n)) && ((ringC n).phase == .started) && ((ringC n).op == n)
    && ((ringC n).skip == .run) && !(ringS n r).givesWay 0 (ringC n)) = true := by decide +kernel
  have rest : ∀ n ∈ [0x38, 0x39, 0x3A, 0x3B], ((ringS n slotF).groupOf 0 1 == ([0], none)) = true
    ∧ (ringS n slotF).rbit 0x1A040 0 = false ∧ 4 ≠ (ringS n slotL).chip := by decide +kernel
  exact ⟨⟨ringS op slot0, 0, 0, ringC op, 0, slot0, runs_one _ _ _ _ _ (run_ _ (by simp) _ h), rfl, rfl, rfl, rfl⟩,
    ⟨ringS op slotF, 0, 0, ringC op, 0, slotF, runs_one _ _ _ _ _ (run_ _ (by simp) _ h), rfl, rfl, rfl, rfl, rfl, rfl,
      rfl, rfl, rfl, group_alone _ (rest _ h).1, rfl, (rest _ h).2.1⟩,
    ⟨ringS op slotL, 0, 0, ringC op, 0, slotL, 4, runs_one _ _ _ _ _ (run_ _ (by simp) _ h), rfl, rfl, rfl, rfl, rfl, rfl,
      rfl, rfl, rfl, (rest _ h).2.2⟩⟩

theorem test_gather_alone : phaseOf (exec (.ringGather 0 0) (ringS 0x39 slotF)) 0 0 = some .complete := by decide +kernel
theorem test_report_leaves : (after (exec (.ringGather 0 0) (ringS 0x39 slotL))).ringCtl.map (fun k => (k.dst, fKind k.f))
    = [(4, 4)] := by decide +kernel

-- queues

/-- Queue 0 of context 0 with 64 slots at 0x10000, disabled; enabled and served, with TAIL t. An error has been
recorded before (FIRST_VALID), so that a fault leaves KERRFIRST as it is. -/
def qOff : State := (((tab.setReg 0x1004 8).setReg (kq 0) 0x10000).setReg (kq 0 + 8) 6).setReg (kctx 0) 0xFF0001
def qOn (t : Nat) : State := { (((qOff.setReg (kq 0 + 0xC) 1).setReg (kq 0 + 0x14) t).setReg (kq 0 + 0x18) 1).setReg (kctx 0 + 4) 1 with
  lat := [(kq 0, 0x10000), (kq 1, 0x10000)] }

theorem meets_DoorbellMovesTail :
    (∃ (s : State) (w q : Nat) (priv : Bool), q < 64 ∧ w ≤ 16 ∧ s.rst.low = false ∧ 2 ≤ s.rst.rel ∧ s.rst.posted = true
      ∧ (w ≠ 16 ∨ priv = true) ∧ s.owner q ≠ w)
    ∧ (∃ (s : State) (w q : Nat) (priv : Bool), q < 64 ∧ w ≤ 16 ∧ s.rst.low = false ∧ 2 ≤ s.rst.rel ∧ s.rst.posted = true
      ∧ (w ≠ 16 ∨ priv = true) ∧ s.owner q = w ∧ s.rbit (kq q + 0xC) 0 = false)
    ∧ (∃ (s : State) (w q : Nat) (v : U32) (priv : Bool), q < 64 ∧ w ≤ 16 ∧ s.rst.low = false ∧ 2 ≤ s.rst.rel ∧ s.rst.posted = true
      ∧ (w ≠ 16 ∨ priv = true) ∧ s.owner q = w ∧ s.rbit (kq q + 0xC) 0 = true
      ∧ 0 < (v - u32 (s.reg (kq q + 0x14))).toInt ∧ (v - u32 (s.reg (kq q + 0x10))).toNat ≤ s.qSize q)
    ∧ (∃ (s : State) (w q : Nat) (v : U32) (priv : Bool), q < 64 ∧ w ≤ 16 ∧ s.rst.low = false ∧ 2 ≤ s.rst.rel ∧ s.rst.posted = true
      ∧ (w ≠ 16 ∨ priv = true) ∧ s.owner q = w ∧ s.rbit (kq q + 0xC) 0 = true
      ∧ ¬(0 < (v - u32 (s.reg (kq q + 0x14))).toInt ∧ (v - u32 (s.reg (kq q + 0x10))).toNat ≤ s.qSize q))
    ∧ (∃ (s : State) (q : Nat), q < 64 ∧ 6 ≤ s.rf (kq q + 8) 4 0 ∧ s.rf (kq q + 8) 4 0 ≤ 20
      ∧ (s.owner q = 16 ∨ s.rbit (kctx (s.owner q)) 0 = true)) :=
  ⟨⟨qOn 0, 1, 0, false, by decide +kernel⟩, ⟨qOff, 0, 0, false, by decide +kernel⟩, ⟨qOn 0, 0, 0, 64, false, by decide +kernel⟩,
    ⟨qOn 0, 0, 0, 65, false, by decide +kernel⟩, ⟨qOff, 0, by decide +kernel⟩⟩

/-- The queue takes 64 slots and no more (R22). -/
theorem test_doorbell_edge : (after (exec (.doorbell 0 0 64 false) (qOn 0))).reg (kq 0 + 0x14) = 64
    ∧ (after (exec (.doorbell 0 0 65 false) (qOn 0))).reg (kq 0 + 0x14) = 0
    ∧ (after (exec (.doorbell 0 0 65 false) (qOn 0))).rbit (kq 0 + 0x18) 3 = true := by decide +kernel

/-- The queue with a NOP in slot 0, TAIL 1; a slot of SEQ 1 there; a COPY in slot 1 whose
source handle the DESC_CREATE before it creates. -/
def decS (w : List Nat) : State := { qOn 1 with mem := memOf [at_ 1 (lin 2 0x2000 1 1 4), at_ 2 (lin 2 0x2100 1 1 4), (0x10000, w)] }
def creating : State := { (qOn 2).setQueue 0 { dec := 1, cmds := [{ cm 0x48 [1] with phase := .waiting }] } with
  mem := memOf [(0x10040, [0x10030, 0, 0, 0, 0, 0, 0, 0, 1, 1, 2, 0xE4])] }

/-- Queues 0, of a best-effort context, and 1, a system queue, with a NOP each, after fifteen decodes past queue 0. -/
def passed : State := { (((((decS [0]).setReg (kq 1) 0x10000).setReg (kq 1 + 8) 0x1006).setReg (kq 1 + 0xC) 1).setReg (kq 1 + 0x14)
  1).setReg (kq 1 + 0x18) 1 with arb := { n := 15 } }

theorem meets_DecodeTakesTheNextSlot :
    (∃ (s : State) (q : Nat) (x : Queue), x = s.queue q ∧ i32diff (s.reg (kq q + 0x14)) x.dec.toNat ≤ 0)
    ∧ (∃ (s : State) (q : Nat), s.decodeTurn ≠ some q)
    ∧ (∃ (s : State) (q : Nat) (x : Queue) (c : Cmd) (bs : List Nat), x = s.queue q ∧ c = { idx := x.dec, words := s.slotWords q x.dec }
      ∧ s.decodeTurn = some q ∧ s.serves q = true ∧ x.killing = false ∧ 0 < i32diff (s.reg (kq q + 0x14)) x.dec.toNat ∧ s.decodeChecks q x c = .ok bs
      ∧ ∃ u : State, u = ((({ s with arb := s.arbAfter q } : State).setQueue q (x.push { c with binds := bs })).descFills (s.owner q) bs).arrayWrite 8)
    ∧ (∃ (s : State) (q : Nat) (x : Queue) (c : Cmd), x = s.queue q ∧ c = { idx := x.dec, words := s.slotWords q x.dec }
      ∧ s.decodeChecks q x c = .later)
    ∧ (∃ (s : State) (q : Nat) (x : Queue) (c : Cmd), x = s.queue q ∧ c = { idx := x.dec, words := s.slotWords q x.dec }
      ∧ s.decodeTurn = some q ∧ s.serves q = true ∧ x.killing = false ∧ 0 < i32diff (s.reg (kq q + 0x14)) x.dec.toNat
      ∧ fld (c.w 0) 31 16 ≠ x.dec.toNat % 65536)
    ∧ (∃ (s : State) (p : Nat), s.decodeTurn = some p ∧ s.decClass p = 2 ∧ s.arb.n < 15)
    ∧ (∃ (s : State) (p r : Nat), s.decodeTurn = some p ∧ 15 ≤ s.arb.n ∧ r < 64 ∧ s.decClass r = 2 ∧ s.canDecode r = true)
    ∧ (∃ (s : State) (k l p r : Nat), s.turnOf k l = some p ∧ r < 64 ∧ s.decClass r = k ∧ s.canDecode r = true) :=
  ⟨⟨qOn 0, 0, _, rfl, by decide +kernel⟩, ⟨qOn 0, 0, by decide +kernel⟩,
    ⟨decS [0], 0, _, _, [], rfl, rfl, by decide +kernel, by decide +kernel, by decide +kernel, by decide +kernel, rfl, _, rfl⟩,
    ⟨creating, 0, _, _, rfl, rfl, rfl⟩, ⟨decS [0x10000], 0, _, _, rfl, rfl, by decide +kernel⟩,
    ⟨decS [0], 0, by decide +kernel⟩, ⟨passed, 0, 0, by decide +kernel⟩, ⟨decS [0], 2, 7, 0, 0, by decide +kernel⟩⟩

/-- A system queue is decoded before the queue of a best-effort context, unless that one has been passed by (R50). -/
theorem test_decode_turn : passed.decodeTurn = some 0 ∧ ({ passed with arb := {} } : State).decodeTurn = some 1 := by decide +kernel

theorem test_decode : ((after (exec (.commandDecode 0) (decS [0]))).queue 0).cmds.map (fun c => (c.idx, c.op)) = [(0, 0)] := by
  decide +kernel
/-- A slot whose SEQ is wrong faults the queue (R51 check 1). -/
theorem test_decode_bad_seq : (after (exec (.commandDecode 0) (decS [0x10000]))).rf (kq 0 + 0x18) 1 0 = 3 := by decide +kernel

/-- A waiting NOP; one that waits for counter 0 to reach 5. -/
def nopW (ws : List U32) : Cmd := { words := ws }
def waitS (c : Cmd) : State := (qOn 1).setQueue 0 { dec := 1, cmds := [c] }
def nop5 : Cmd := nopW [0, 0, 0x100000, 5]
def copyW : List U32 := [0x30, 0, 0, 0, 0, 0, 0, 0, 2, 1, 2, 0xE4]

/-- The state from which a command whose waits are over starts. -/
def nowStarting (s : State) (q : Nat) (c : Cmd) : State :=
  let y := s.waitsOver (s.owner q) q c
  if s.findCmd q y.idx = some y then s
  else ({ s.updCmd q y.idx (fun _ => y) with ticks := s.ticks + 1 } : State).waitRecs (s.owner q) q y

/-- The conditions under which command c is the one that COMMAND_START takes, up to the checks of its opcode. -/
def StartsNow (s : State) (q : Nat) (c : Cmd) : Prop :=
  (s.queue q).cmds.find? (fun y => y.phase == .waiting && y.skip == .run) = some c
    ∧ (c.ready = true ∨ s.waitsMet (s.owner q) c = true) ∧ s.serves q = true ∧ (s.queue q).killing = false
    ∧ s.rbit (kq q + 0xC) 2 = false ∧ (s.queue q).undecided c.idx = false ∧ (s.queue q).fenced c = false
    ∧ (s.queue q).inflight < 8 ∧ s.started.length < 256 ∧ (s.waitsOver (s.owner q) q c).bad = none
    ∧ (nowStarting s q c).indChecks ((nowStarting s q c).owner q) (s.waitsOver (s.owner q) q c) = none
    ∧ (nowStarting s q c).yields q (s.waitsOver (s.owner q) q c) = false

theorem startsNow_of (s : State) (q : Nat) (c : Cmd)
    (h : (((s.queue q).cmds.find? (fun y => y.phase == .waiting && y.skip == .run) == some c)
      && (c.ready || s.waitsMet (s.owner q) c) && s.serves q && !(s.queue q).killing
      && !s.rbit (kq q + 0xC) 2 && !(s.queue q).undecided c.idx && !(s.queue q).fenced c
      && decide ((s.queue q).inflight < 8) && decide (s.started.length < 256) && ((s.waitsOver (s.owner q) q c).bad == none)
      && ((nowStarting s q c).indChecks ((nowStarting s q c).owner q) (s.waitsOver (s.owner q) q c) == none)
      && !(nowStarting s q c).yields q (s.waitsOver (s.owner q) q c)) = true) : StartsNow s q c := by
  simp only [Bool.and_eq_true, Bool.or_eq_true, Bool.not_eq_true', beq_iff_eq, decide_eq_true_eq] at h
  obtain ⟨⟨⟨⟨⟨⟨⟨⟨⟨⟨⟨a, b⟩, d⟩, e⟩, f⟩, g⟩, k⟩, l⟩, m⟩, n⟩, o⟩, p⟩ := h
  exact ⟨a, b, d, e, f, g, k, l, m, n, o, p⟩

theorem meets_StartTakesTheOldestReady :
    (∃ (s : State) (q : Nat) (x : Queue) (c : Cmd), x = s.queue q
      ∧ x.cmds.find? (fun y => y.phase == .waiting && y.skip == .run) = some c ∧ s.rbit (kq q + 0xC) 2 = true)
    ∧ (∃ (s : State) (q : Nat) (x : Queue) (c : Cmd), x = s.queue q
      ∧ x.cmds.find? (fun y => y.phase == .waiting && y.skip == .run) = some c ∧ c.ready = false ∧ s.waitsMet (s.owner q) c = false)
    ∧ (∃ (s : State) (q : Nat) (x : Queue) (c : Cmd), x = s.queue q
      ∧ x.cmds.find? (fun y => y.phase == .waiting && y.skip == .run) = some c ∧ c.op = 0x00 ∧ c.bad = none ∧ fld (c.w 2) 31 24 = 0
      ∧ s.serves q = true ∧ x.killing = false ∧ s.rbit (kq q + 0xC) 2 = false ∧ x.undecided c.idx = false ∧ x.fenced c = false
      ∧ x.inflight < 8 ∧ s.started.length < 256 ∧ s.waitsMet (s.owner q) c = true
      ∧ s.indChecks (s.owner q) { c with slots := (List.range 8).map (fun k => u32 (c.w (8 + k))) } = none)
    ∧ (∃ (s v : State) (q : Nat) (c z : Cmd), StartsNow s q c ∧ (nowStarting s q c).startOp q (s.waitsOver (s.owner q) q c) = .go v z
      ∧ (nowStarting s q c).regionFlt ((nowStarting s q c).owner q) (s.waitsOver (s.owner q) q c) = none)
    ∧ (∃ (s : State) (q : Nat) (c : Cmd) (f : Flt), StartsNow s q c ∧ (nowStarting s q c).startOp q (s.waitsOver (s.owner q) q c) = .flt f)
    ∧ (∃ (s : State) (q : Nat) (c : Cmd), StartsNow s q c ∧ (nowStarting s q c).startOp q (s.waitsOver (s.owner q) q c) = .wait)
    ∧ (∃ (v : State) (q : Nat) (y z : Cmd), (∃ w, v.findCmd q y.idx = some w) ∧ z.idx = y.idx ∧ z.phase = .waiting) :=
  ⟨⟨(waitS (nopW [0])).setReg (kq 0 + 0xC) 5, 0, _, nopW [0], rfl, by decide +kernel⟩,
    ⟨waitS nop5, 0, _, nop5, rfl, by decide +kernel⟩, ⟨waitS (nopW [0]), 0, _, nopW [0], rfl, by decide +kernel⟩,
    ⟨waitS (nopW [0]), _, 0, nopW [0], _, startsNow_of _ _ _ (by decide +kernel), rfl, by decide +kernel⟩,
    ⟨waitS (nopW copyW), 0, nopW copyW, _, startsNow_of _ _ _ (by decide +kernel), rfl⟩,
    ⟨waitS (nopW [0x10, 0, 0, 0, 0, 0, 0, 0, 1]), 0, nopW [0x10, 0, 0, 0, 0, 0, 0, 0, 1], startsNow_of _ _ _ (by decide +kernel), rfl⟩,
    ⟨waitS (nopW [0]), 0, nopW [0], nopW [0], ⟨nopW [0], rfl⟩, rfl, rfl⟩⟩

theorem test_start : phaseOf (exec (.commandStart 0) (waitS (nopW [0]))) 0 0 = some .started
    ∧ phaseOf (exec (.commandStart 0) (waitS nop5)) 0 0 = some .waiting := by decide +kernel

theorem meets_WaitPollFindsMetWaits :
    (∃ (s : State) (w : Nat), s.live = true ∧ s.refclk = true ∧ w ≤ 16 ∧ s.rbit (kctx w + 0xC) 1 = false
      ∧ s.rbit 0x1A040 0 = false)
    ∧ (∃ (s : State) (q : Nat) (c : Cmd), (s.queue q).cmds.find? (fun y => y.phase == .waiting && y.skip == .run) = some c
      ∧ s.findCmd q c.idx = some c)
    ∧ (∃ (s : State) (q : Nat) (c : Cmd) (vs : List U32), c.ready = false ∧ s.slotsGo (s.owner q) c (List.range 8) = .ok vs) :=
  ⟨⟨qOn 0, 3, by decide +kernel⟩, ⟨waitS nop5, 0, nop5, by decide +kernel⟩, ⟨qOn 0, 0, nopW [0], _, rfl, rfl⟩⟩

/-- The i32 difference of a counter that wrapped past its target (R28). -/
theorem test_wait_wraps : waitMet 1 3 0xFFFFFFFE = true ∧ waitMet 1 0x80000000 0 = false ∧ waitMet 2 4 5 = false := by decide +kernel
theorem test_waitPoll : ((after (exec (.waitPoll 0) (waitS (nopW [0])))).findCmd 0 0).map (fun c => c.ready) = some true
    ∧ ((after (exec (.waitPoll 0) (waitS nop5))).findCmd 0 0).map (fun c => c.ready) = some false := by decide +kernel

/-- A NOP that is complete, its signal adding 3 to counter 2; one skipped in QUIET mode. -/
def sigC : Cmd := { nopW [0, 0, 0, 0, 0, 0, 0x100002, 3] with phase := .complete }
def quietC : Cmd := { nopW [0] with skip := .quiet }

def retC9 : Cmd := { nopW [0x49, 0, 0, 0, 0, 0, 0, 0, 3, 2] with phase := .complete }
def outW : Cmd := { nopW [0x30] with phase := .complete, acts := [.write 0x2000 [7, 9]] }
def dropC : Cmd := { nopW [0x22] with phase := .complete, acts := [.dropRets 3 1] }

/-- The output bytes that a completion held are written at the commit (R34). -/
theorem test_commit_writes : (after (exec (.commandCommit 0) (waitS outW))).rd 0x2000 2 = [7, 9] := by decide +kernel

theorem meets_CommitSignalsAndPasses :
    (∃ (s : State) (q : Nat) (c : Cmd) (rest : List Cmd) (own : Nat), q < 64 ∧ own = s.owner q ∧ s.serves q = true
      ∧ (s.queue q).cmds = c :: rest ∧ c.phase = .complete ∧ s.badDrop own q c = none ∧ c.acts = [] ∧ c.recs = [] ∧ c.op = 0x00
      ∧ c.flag 8 = false ∧ c.flag 9 = false ∧ s.feeds = [] ∧ s.rbit 0x1A040 0 = false)
    ∧ (∃ (s : State) (q : Nat) (c : Cmd) (rest : List Cmd) (own : Nat), q < 64 ∧ own = s.owner q ∧ s.serves q = true
      ∧ (s.queue q).cmds = c :: rest ∧ c.phase = .complete ∧ s.badDrop own q c = none ∧ c.op = 0x49 ∧ s.rangeBound own c = false)
    ∧ (∃ (s : State) (q : Nat) (c : Cmd) (rest : List Cmd) (own : Nat) (ws : List (Nat × List Byte)), q < 64 ∧ own = s.owner q
      ∧ s.serves q = true ∧ (s.queue q).cmds = c :: rest ∧ c.phase = .complete ∧ c.acts = ws.map (fun x => Act.write x.1 x.2)
      ∧ ws ≠ [] ∧ c.mix = [] ∧ (∀ x ∈ ws, s.meetsOf q c.idx [(x.1, x.2.length)] = []) ∧ c.recs = [] ∧ c.op ∉ [0x02, 0x20, 0x21, 0x49] ∧ fld (c.w 6) 21 20 = 0 ∧ c.flag 8 = false ∧ c.flag 9 = false
      ∧ s.feeds = [] ∧ s.rbit 0x1A040 0 = false)
    ∧ (∃ (s : State) (q : Nat) (c : Cmd) (rest : List Cmd) (own : Nat) (h : U32), q < 64 ∧ own = s.owner q ∧ s.serves q = true
      ∧ (s.queue q).cmds = c :: rest ∧ c.phase = .complete ∧ c.op ≠ 0x49 ∧ s.badDrop own q c = some h)
    ∧ (∃ (s : State) (q : Nat) (c : Cmd) (rest : List Cmd) (own : Nat), q < 64 ∧ own = s.owner q ∧ s.serves q = true
      ∧ (s.queue q).cmds = c :: rest ∧ c.phase = .waiting ∧ c.skip = .quiet ∧ s.rbit 0x1A040 0 = false) :=
  ⟨⟨waitS sigC, 0, sigC, [], 0, by decide +kernel⟩, ⟨waitS retC9, 0, retC9, [], 0, by decide +kernel⟩,
    ⟨waitS outW, 0, outW, [], 0, [(0x2000, [7, 9])], by decide +kernel⟩,
    ⟨{ waitS dropC with refs := [⟨0, 3, 1, .ret, 9⟩] }, 0, dropC, [], 0, 9, by decide +kernel⟩,
    ⟨waitS quietC, 0, quietC, [], 0, by decide +kernel⟩⟩

theorem test_commit : (after (exec (.commandCommit 0) (waitS sigC))).ctr 0 2 = 3
    ∧ (after (exec (.commandCommit 0) (waitS sigC))).reg (kq 0 + 0x10) = 1 := by decide +kernel

theorem meets_QueueControlWrites :
    (∃ (s : State) (q : Nat) (w : U32) (priv : Bool), q < 64 ∧ Reaches s (kq q + 0xC) priv ∧ bitOf w.toNat 0 = true
      ∧ bitOf w.toNat 1 = false ∧ s.rbit (kq q + 0xC) 0 = false ∧ 6 ≤ s.rf (kq q + 8) 4 0 ∧ s.rf (kq q + 8) 4 0 ≤ 20
      ∧ (s.owner q = 16 ∨ s.rbit (kctx (s.owner q)) 0 = true))
    ∧ (∃ (s : State) (q : Nat) (w : U32) (priv : Bool), q < 64 ∧ Reaches s (kq q + 0xC) priv ∧ bitOf w.toNat 0 = true
      ∧ bitOf w.toNat 1 = false ∧ s.rbit (kq q + 0xC) 0 = false ∧ s.rf (kq q + 8) 4 0 < 6)
    ∧ (∃ (s : State) (q : Nat) (w : U32) (priv : Bool), q < 64 ∧ Reaches s (kq q + 0xC) priv ∧ bitOf w.toNat 0 = true
      ∧ bitOf w.toNat 1 = false ∧ s.rbit (kq q + 0xC) 0 = true ∧ s.rf (kq q + 0x18) 1 0 ≠ 3)
    ∧ (∃ (s : State) (q : Nat) (w : U32) (priv : Bool), q < 64 ∧ Reaches s (kq q + 0xC) priv ∧ bitOf w.toNat 0 = false
      ∧ bitOf w.toNat 1 = false ∧ s.rbit (kq q + 0xC) 0 = true ∧ s.qBusy q = true) :=
  ⟨⟨qOff, 0, 1, true, by decide, reaches_of _ _ _ (by decide +kernel), by decide +kernel⟩,
    ⟨qOff.setReg (kq 0 + 8) 5, 0, 1, true, by decide, reaches_of _ _ _ (by decide +kernel), by decide +kernel⟩,
    ⟨qOn 0, 0, 5, true, by decide, reaches_of _ _ _ (by decide +kernel), by decide +kernel⟩,
    ⟨waitS { cm 0 [] with phase := .started }, 0, 0, true, by decide, reaches_of _ _ _ (by decide +kernel), by decide +kernel⟩⟩

theorem test_enable : (after (exec (.queueEnable 0 1 true) qOff)).rf (kq 0 + 0x18) 1 0 = 1
    ∧ (after (exec (.queueEnable 0 1 true) (qOff.setReg (kq 0 + 8) 21))).rbit (kq 0 + 0x18) 2 = true := by decide +kernel
theorem test_hold : (after (exec (.queueHold 0 5 true) (qOn 0))).rf (kq 0 + 0x18) 1 0 = 2 := by decide +kernel

/-- A kill of a waiting COPY that binds handle 1; a kill in progress with nothing left; one that holds a broken DISPATCH. -/
def boundC : Cmd := { nopW [0x30] with binds := [1] }
def killing (x : Option (Nat × Nat × U32)) : State :=
  ((qOn 1).setReg (kq 0 + 0xC) 3).setQueue 0 { dec := 1, killing := true, killX := x, kept := [{ idx := 0 }] }
def brokenE : Exch := { cxEx with asked := [⟨3, 0, 5, 0, 0, 0, 1⟩] }
def brokenS : State := { killing (some (7, 5, 0)) with exch := [brokenE] }

theorem meets_KillRewindsToHead :
    (∃ (s : State) (q : Nat) (w : U32) (priv : Bool), q < 64 ∧ Reaches s (kq q + 0xC) priv ∧ bitOf w.toNat 0 = true
      ∧ bitOf w.toNat 1 = true ∧ bitOf w.toNat 2 = false ∧ s.rbit (kq q + 0xC) 0 = true ∧ s.rbit (kq q + 0xC) 2 = false
      ∧ s.rf (kq q + 0x18) 1 0 = 1 ∧ (s.queue q).killing = false ∧ (∀ c ∈ (s.queue q).cmds, c.phase = .waiting)
      ∧ (s.queue q).cmds ≠ [])
    ∧ (∃ (s : State) (q : Nat), q < 64 ∧ s.live = true ∧ (s.queue q).killing = true ∧ (s.queue q).cmds = [] ∧ s.killHeld q = false)
    ∧ (∃ (s : State) (q g x : Nat) (i : U32), q < 64 ∧ s.live = true ∧ s.refclk = true ∧ (s.queue q).killing = true
      ∧ (s.queue q).killX = some (g, x, i) ∧ s.killAsks q = true) :=
  ⟨⟨waitS boundC, 0, 3, true, by decide, reaches_of _ _ _ (by decide +kernel), by decide +kernel⟩,
    ⟨killing none, 0, by decide +kernel⟩, ⟨brokenS, 0, 7, 5, 0, by decide +kernel⟩⟩

theorem test_kill_keeps_bindings : (after (exec (.queueKill 0 3 true) (waitS boundC))).queue 0
    = { dec := 1, killing := true, kept := [{ idx := 0, binds := [1] }] } := by decide +kernel
theorem test_killComplete : ((after (exec (.killComplete 0) (killing none))).queue 0).dec = 0
    ∧ ((after (exec (.killComplete 0) (killing none))).queue 0).killing = false
    ∧ (after (exec (.killComplete 0) brokenS)).rbit (kq 0 + 0xC) 1 = true := by decide +kernel
theorem test_exchangeBroken : ((after (exec (.exchangeBroken 0 0) brokenS)).queue 0).kept.map (fun k => k.broken) = [true] := by
  decide +kernel

/-- A WAIT with a timeout, its target not reached and without a target. -/
def waitT (w3 : U32) : Cmd := { words := [1, 0, 0x100000, w3, 0, 0, 0, 0, 10] }
def cxT (ms : List CountMsg) : State := { (run (cm 0x15 [0, 0, 2, 3, 0x50007, 1]) [at_ 3 (lin 3 0x2000 1024 1 1024), (0x2000, [0x10, 1])]).setReg 0x1004 8 with
  exch := [{ cxEx with ph1 := ms }] }
def tbarC : Cmd := cm 0x05 [0, 0, 0x50007]
def tbarS (t : Option U64) : State := { (run tbarC []).setReg 0x1004 8 with
  barriers := [{ ctx := 0, q := 0, idx := 0, gen := 7, bid := 5, members := [0], lead := 0, trel := t }] }
def tdrC : Cmd := cm 0x22 [7]
def tdrS (ls : List Landing) : State := { (run tdrC []).setReg 0x1004 8 with landings := ls }
def msg0 : CountMsg := { src := 0, mis := false, epoch := 0, cap := 0, layer := 0, ents := [] }

/-- Two WAITs, the younger with the shorter timeout. -/
def young : Cmd := { idx := 1, words := [0x10001, 0, 0x100000, 5, 0, 0, 0, 0, 4] }
def twoWaits (v : U32) : State := (qOn 2).setQueue 0 { dec := 2, cmds := [waitT v, young] }

theorem meets_TimeoutsFault :
    (∀ w ∈ [[], [waitT 5], [waitT 5, young], [young]], ∃ (s : State) (q : Nat), s.serves q = true ∧ s.refclk = true
      ∧ s.timedWaits q = w)
    ∧ (∀ rel ∈ [true, false], ∃ (s : State) (q : Nat) (i : U32) (c : Cmd) (b : Barrier), Runs s q i 0x05 c ∧ s.refclk = true
      ∧ s.findBar (s.owner q) (fld (c.s 2) 15 0) (fld (c.s 2) 23 16) = some b ∧ b.released = false ∧ b.trel.isSome = rel)
    ∧ (∀ d ∈ [true, false], ∃ (s : State) (q : Nat) (i : U32) (c : Cmd), Runs s q i 0x22 c ∧ s.refclk = true
      ∧ s.drained (s.owner q) (fld (c.s 0) 15 0) (bitOf (c.s 0) 16) = d)
    ∧ (∃ (s : State) (q : Nat) (i : U32) (c : Cmd) (e : Exch), Runs s q i 0x15 c ∧ s.refclk = true
      ∧ s.findExch (s.owner q) c.gen c.xid = some e
      ∧ (∃ m ∈ (s.readXb (s.dsc (s.owner q) c 3)).members, ∀ p ∈ e.ph1, p.src ≠ m))
    ∧ (∃ (s : State) (q : Nat) (i : U32) (c : Cmd) (e : Exch), Runs s q i 0x15 c ∧ s.refclk = true
      ∧ s.findExch (s.owner q) c.gen c.xid = some e
      ∧ (∀ m ∈ (s.readXb (s.dsc (s.owner q) c 3)).members, ∃ p ∈ e.ph1, p.src = m)) := by
  refine ⟨fun w hw => ?_, fun m hm => ?_, fun m hm => ?_, ?_, ?_⟩
  · simp only [List.mem_cons, List.not_mem_nil, or_false] at hw
    rcases hw with rfl | rfl | rfl | rfl
    · exact ⟨waitS (waitT 0), 0, by decide +kernel⟩
    · exact ⟨waitS (waitT 5), 0, by decide +kernel⟩
    · exact ⟨twoWaits 5, 0, by decide +kernel⟩
    · exact ⟨twoWaits 0, 0, by decide +kernel⟩
  · rcases m with _ | _
    · exact ⟨tbarS none, 0, 0, tbarC, { ctx := 0, q := 0, idx := 0, gen := 7, bid := 5, members := [0], lead := 0 },
        runs_one _ _ _ _ _ (by decide +kernel), by decide +kernel⟩
    · exact ⟨tbarS (some 9), 0, 0, tbarC, { ctx := 0, q := 0, idx := 0, gen := 7, bid := 5, members := [0], lead := 0, trel := some 9 },
        runs_one _ _ _ _ _ (by decide +kernel), by decide +kernel⟩
  · rcases m with _ | _
    · exact ⟨tdrS [{ n := 0, ctx := 0, gen := 7, spans := [] }], 0, 0, tdrC, runs_one _ _ _ _ _ (by decide +kernel), by decide +kernel⟩
    · exact ⟨tdrS [], 0, 0, tdrC, runs_one _ _ _ _ _ (by decide +kernel), by decide +kernel⟩
  · exact ⟨cxT [], 0, 0, cm 0x15 [0, 0, 2, 3, 0x50007, 1], { cxEx with ph1 := [] }, runs_one _ _ _ _ _ (by decide +kernel),
      by decide +kernel, by decide +kernel, by decide +kernel⟩
  · exact ⟨cxT [msg0], 0, 0, cm 0x15 [0, 0, 2, 3, 0x50007, 1], { cxEx with ph1 := [msg0] }, runs_one _ _ _ _ _ (by decide +kernel),
      by decide +kernel, by decide +kernel, by decide +kernel⟩

/-- A timeout faults the queue: STATE 0b11, and FIRSTFAULT E_TIMEOUT. -/
theorem test_waitTimeout : (after (exec (.waitTimeout 0) (waitS (waitT 5)))).rf (kq 0 + 0x18) 1 0 = 3
    ∧ (after (exec (.waitTimeout 0) (waitS (waitT 0)))).rf (kq 0 + 0x18) 1 0 = 1 := by decide +kernel
/-- A younger WAIT whose timeout runs out faults its queue, where the older one is met (R41). -/
theorem test_waitTimeout_young : (after (exec (.waitTimeout 0) (twoWaits 0))).rf (kq 0 + 0x18) 15 8 = eTimeout
    ∧ (after (exec (.waitTimeout 0) (twoWaits 0))).reg (kq 0 + 0x1C) = 1 := by decide +kernel
theorem test_drainTimeout : (after (exec (.drainTimeout 0 0) (tdrS [{ n := 0, ctx := 0, gen := 7, spans := [] }]))).rf (kq 0 + 0x18) 15 8 = eTimeout := by
  decide +kernel
theorem test_barrierTimeout : (after (exec (.barrierTimeout 0 0) (tbarS none))).rf (kq 0 + 0x18) 15 8 = eTimeout := by decide +kernel
theorem test_countXchgTimeout : (after (exec (.countXchgTimeout 0 0) (cxT []))).rf (kq 0 + 0x18) 15 8 = eTimeout := by decide +kernel

-- contexts, pools, event queues, registers

/-- Context 0 running, with a job, a region, an exchange slot and a stream of its own, and a job of context 1. -/
def ctxS (st : Nat) : State := { ((up.setReg 0x1004 8).setReg (kctx 0) 0xFF0001).setReg (kctx 0 + 4) st with
  jobs := [{ ctx := 0, job := 1, q := 0, t := 1, param := 0, stage := 0 }, { ctx := 1, job := 1, q := 3, t := 1, param := 0, stage := 0 }],
  regions := [{ pipe := 0, ctx := 0, job := true }], exch := [cxEx], tx := [{ ctx := 0, dst := 3, vc := 1 }] }

theorem meets_ContextControlWrites :
    (∃ (s : State) (c : Nat) (w : U32) (priv : Bool), c < 16 ∧ Reaches s (kctx c + 8) priv ∧ bitOf w.toNat 0 = true
      ∧ bitOf w.toNat 1 = false ∧ s.rf (kctx c + 4) 1 0 = 1 ∧ s.rbit 0x1004 0 = false ∧ (∀ l ∈ s.landings, l.ctx ≠ c))
    ∧ (∃ (s : State) (c : Nat) (w : U32) (priv : Bool), c < 16 ∧ Reaches s (kctx c + 8) priv ∧ bitOf w.toNat 0 = false
      ∧ bitOf w.toNat 1 = true ∧ s.rf (kctx c + 4) 1 0 = 3 ∧ s.anyEnabled c = false)
    ∧ (∃ (s : State) (c : Nat) (w : U32) (priv : Bool), c < 16 ∧ Reaches s (win c + 0x508) priv
      ∧ i16diff (w.toNat % 2 ^ 16) (s.reg (win c + 0x508)) ≤ 0)
    ∧ (∃ (s : State) (c : Nat) (w : U32) (priv : Bool), c < 16 ∧ Reaches s (win c + 0x508) priv
      ∧ 0 < i16diff (w.toNat % 2 ^ 16) (s.reg (win c + 0x508)) ∧ s.refs = []) :=
  ⟨⟨ctxS 1, 0, 1, true, by decide, reaches_of _ _ _ (by decide +kernel), by decide +kernel⟩,
    ⟨ctxS 3, 0, 2, true, by decide, reaches_of _ _ _ (by decide +kernel), by decide +kernel⟩,
    ⟨ctxS 1, 0, 0x8000, false, by decide, reaches_of _ _ _ (by decide +kernel), by decide +kernel⟩,
    ⟨ctxS 1, 0, 0x7FFF, false, by decide, reaches_of _ _ _ (by decide +kernel), by decide +kernel⟩⟩

theorem test_teardown : (after (exec (.teardownGo 0 1 true) (ctxS 1))).rf (kctx 0 + 4) 1 0 = 3
    ∧ (after (exec (.teardownGo 0 1 true) (ctxS 1))).jobs.map (fun j => j.ctx) = [1]
    ∧ (after (exec (.teardownGo 0 1 true) (ctxS 1))).exch = [] := by decide +kernel
theorem test_teardownClear : (after (exec (.teardownClear 0 2 true) (ctxS 3))).rf (kctx 0 + 4) 1 0 = 0 := by decide +kernel
/-- The floor passes tag 7: the slot of tag 7 goes (R125). -/
theorem test_genFloor : (after (exec (.genFloorWrite 0 8 false) (ctxS 1))).exch = []
    ∧ (after (exec (.genFloorWrite 0 7 false) (ctxS 1))).exch.length = 1 := by decide +kernel

/-- Context 1, with queue 3 alone, enabled, held and not; a save accepted; one whose area ends past 2^48. -/
def svQ (ctl : Nat) : State := { ((((((up.setReg 0x1004 8).setReg (kctx 1) 0xFF0001).setReg (kctx 1 + 4) 1).setReg (kq 3 + 8) 0x106).setReg
    (kq 3 + 0xC) ctl).setReg (kq 3 + 0x18) 2) with
  jobs := [{ ctx := 1, job := 1, q := 3, t := 1, param := 0, stage := 0 }], regions := [{ pipe := 0, ctx := 1, job := true }] }
def svOpen (at_ : U48) : State := { svQ 5 with saves := [{ ctx := 1 }], lat := [(kctx 1 + 0x10, at_)] }

/-- Context 1 saved, with its job and no region; its image, which holds the profile of the block; a stale image of a job that
bound an FU bank of another epoch. -/
def svJob : Job := { ctx := 1, job := 1, q := 3, t := 1, param := 0, stage := 0 }
def svDone : Save := { ctx := 1, open_ := false, jobs := [svJob] }
def svBase : State := { (svQ 5).setReg (kctx 1 + 4) 0x11 with jobs := [], regions := [], saves := [svDone] }
def svShut : State := svBase.wr 32 (natLe 4 svBase.kdprofLo ++ natLe 4 svBase.kdprofHi)
def svOld : Save := { svDone with jobs := [{ svJob with fuB := some 0 }] }
def svStale : State := { svBase.setReg 0x80000 1 with saves := [svOld] }

theorem kdprofLo_lt (s : State) : s.kdprofLo < 2 ^ 32 := by
  have b : ∀ x : Bool, b2n x ≤ 1 := by decide
  have f : s.fudig < 2 ^ 16 := by
    unfold State.fudig
    extract_lets d
    have h1 := (d.getD 30 0).isLt
    have h2 := (d.getD 31 0).isLt
    omega
  unfold State.kdprofLo
  extract_lets p
  have h1 := b p.disTrestle
  have h2 := b p.disLedger
  have h3 := b p.disDigest
  split <;> omega

theorem kdprofHi_lt (s : State) : s.kdprofHi < 2 ^ 32 := by
  unfold State.kdprofHi fld
  omega

/-- A write to memory leaves the profile. -/
theorem prof_wr (bs : List Byte) : ∀ (s : State) (a : Nat),
    (s.wr a bs).kdprofLo = s.kdprofLo ∧ (s.wr a bs).kdprofHi = s.kdprofHi := by
  induction bs with
  | nil => exact fun s a => ⟨rfl, rfl⟩
  | cons b l ih => exact fun s a => ih (s.wr8 a b) (a + 1)

/-- The bytes of a 32-bit value give it back. -/
theorem leNat_natLe (v : Nat) (h : v < 2 ^ 32) : leNat (natLe 4 v) = v := by
  simp only [natLe, leNat, BitVec.toNat_ofNat]
  omega

/-- Two values written at byte 32 read back there. -/
theorem rd32_pair (s : State) (u v : Nat) (hu : u < 2 ^ 32) (hv : v < 2 ^ 32) :
    (s.wr 32 (natLe 4 u ++ natLe 4 v)).rd32 32 = u ∧ (s.wr 32 (natLe 4 u ++ natLe 4 v)).rd32 36 = v := by
  have r : ∀ k x, (natLe 4 u ++ natLe 4 v)[k]? = some x → (s.wr 32 (natLe 4 u ++ natLe 4 v)).rd8 (32 + k) = x := fun k x hk =>
    State.rd8_wr_in _ s 32 k x hk (fun j h1 h2 => by
      have h8 : j < 8 := by simpa [natLe] using h2
      unfold addrMod
      omega)
  generalize s.wr 32 (natLe 4 u ++ natLe 4 v) = t at r ⊢
  refine ⟨(congrArg leNat (?_ : State.rd _ 32 4 = natLe 4 u)).trans (leNat_natLe u hu),
    (congrArg leNat (?_ : State.rd _ 36 4 = natLe 4 v)).trans (leNat_natLe v hv)⟩
  · show [t.rd8 (32 + 0), t.rd8 (32 + 1), t.rd8 (32 + 2), t.rd8 (32 + 3)] = _
    rw [r 0 _ rfl, r 1 _ rfl, r 2 _ rfl, r 3 _ rfl]
    rfl
  · show [t.rd8 (32 + 4), t.rd8 (32 + 5), t.rd8 (32 + 6), t.rd8 (32 + 7)] = _
    rw [r 4 _ rfl, r 5 _ rfl, r 6 _ rfl, r 7 _ rfl]
    rfl

theorem svShut_lives : svShut.imageLives svDone = true := by
  have h := rd32_pair svBase svBase.kdprofLo svBase.kdprofHi (kdprofLo_lt _) (kdprofHi_lt _)
  have a : svShut.rpair (kctx svDone.ctx + 0x10) = 0 := by decide +kernel
  have lo : svShut.kdprofLo = svBase.kdprofLo := (prof_wr _ _ _).1
  have hi : svShut.kdprofHi = svBase.kdprofHi := (prof_wr _ _ _).2
  unfold State.imageLives
  extract_lets b w
  have e8 : w 8 = svBase.kdprofLo := by
    show svShut.rd32 (svShut.rpair (kctx svDone.ctx + 0x10) + 4 * 8) = _
    rw [a]
    exact h.1
  have e9 : w 9 = svBase.kdprofHi := by
    show svShut.rd32 (svShut.rpair (kctx svDone.ctx + 0x10) + 4 * 9) = _
    rw [a]
    exact h.2
  rw [e8, e9, lo, hi]
  simp [svDone, svJob]

theorem svStale_dead : svStale.imageLives svOld = false := by
  unfold State.imageLives
  extract_lets a w
  rw [Bool.and_eq_false_iff]
  exact .inr (by decide +kernel)

theorem meets_SaveAndRestoreMoveTheJob :
    (∃ (s : State) (c k : Nat) (w : U32) (priv : Bool), c < 16 ∧ k = kctx c + 0xC ∧ Reaches s k priv ∧ bitOf w.toNat 0 = true
      ∧ bitOf w.toNat 1 = false ∧ s.rbit k 0 = false ∧ (∃ q, q < 64 ∧ s.owner q = c ∧ s.rbit (kq q + 0xC) 2 = false))
    ∧ (∃ (s : State) (c k : Nat) (w : U32) (priv : Bool), c < 16 ∧ k = kctx c + 0xC ∧ Reaches s k priv ∧ bitOf w.toNat 0 = true
      ∧ bitOf w.toNat 1 = false ∧ s.rbit k 0 = false ∧ (∀ q, q < 64 → s.owner q = c → s.rbit (kq q + 0xC) 2 = true)
      ∧ (∃ q, q < 64 ∧ s.owner q = c ∧ s.rbit (kq q + 0xC) 0 = true))
    ∧ (∃ (s : State) (c : Nat), c < 16 ∧ s.live = true ∧ (∃ v ∈ s.saves, v.ctx = c ∧ v.open_ = true) ∧ s.outstanding c = 0
      ∧ (∀ q, q < 64 → s.owner q = c → s.qBusy q = false)
      ∧ s.lpair (kctx c + 0x10) + saveArea ≤ 2 ^ 48 ∧ (s.regions.filter (fun r => r.ctx == c)).length ≤ 64)
    ∧ (∃ (s : State) (c : Nat), c < 16 ∧ s.live = true ∧ (∃ v ∈ s.saves, v.ctx = c ∧ v.open_ = true) ∧ s.outstanding c = 0
      ∧ (∀ q, q < 64 → s.owner q = c → s.qBusy q = false) ∧ 2 ^ 48 < s.lpair (kctx c + 0x10) + saveArea)
    ∧ (∃ (s : State) (c k : Nat) (w : U32) (priv : Bool), c < 16 ∧ k = kctx c + 0xC ∧ Reaches s k priv ∧ bitOf w.toNat 0 = false
      ∧ bitOf w.toNat 1 = true ∧ s.saves.find? (fun v => v.ctx == c && !v.open_) = none)
    ∧ (∀ lives ∈ [true, false], ∃ (s : State) (c k : Nat) (w : U32) (priv : Bool) (v : Save), c < 16 ∧ k = kctx c + 0xC
      ∧ Reaches s k priv ∧ bitOf w.toNat 0 = false ∧ bitOf w.toNat 1 = true
      ∧ s.saves.find? (fun v => v.ctx == c && !v.open_) = some v ∧ s.rbit (kctx c + 4) 4 = true ∧ s.rbit k 0 = false
      ∧ v.regions = [] ∧ v.jobs ≠ [] ∧ s.imageLives v = lives) := by
  refine ⟨⟨svQ 1, 1, _, 1, true, by decide, rfl, reaches_of _ _ _ (by decide +kernel), by decide +kernel, by decide +kernel,
      by decide +kernel, 3, by decide +kernel⟩,
    ⟨svQ 5, 1, _, 1, true, by decide, rfl, reaches_of _ _ _ (by decide +kernel), by decide +kernel, by decide +kernel,
      by decide +kernel, by decide +kernel, 3, by decide +kernel⟩,
    ⟨svOpen 0, 1, by decide +kernel⟩, ⟨svOpen 0xFFFFFFFFFFFF, 1, by decide +kernel⟩,
    ⟨svQ 5, 1, _, 2, true, by decide, rfl, reaches_of _ _ _ (by decide +kernel), by decide +kernel⟩, fun l hl => ?_⟩
  rcases l with _ | _
  · exact ⟨svStale, 1, _, 2, true, svOld, by decide, rfl, reaches_of _ _ _ (by decide +kernel), by decide, by decide, rfl,
      by decide +kernel, by decide +kernel, rfl, by decide, svStale_dead⟩
  · exact ⟨svShut, 1, _, 2, true, svDone, by decide, rfl, reaches_of _ _ _ rfl, by decide, by decide, rfl, rfl, rfl, rfl, by decide,
      svShut_lives⟩

theorem test_save_refused : (after (exec (.contextSave 1 1 true) (svQ 1))).rbit (kctx 1 + 0xC) 3 = true
    ∧ (after (exec (.contextSave 1 1 true) (svQ 5))).saves.map (fun v => v.open_) = [true] := by decide +kernel
/-- An area that ends past 2^48 sets ERR (R284). -/
theorem test_save_too_high : (after (exec (.saveImageWrite 1) (svOpen 0xFFFFFFFFFFFF))).rbit (kctx 1 + 0xC) 3 = true := by decide +kernel

/-- Pool 1: two buffers of 256 bytes at 0x10000, metadata at 0x8000, open to context 0 and the system; f free. Buffer 0
has REF r and GEN 1 and is owned by context 0; buffer 1 is free. -/
def poolS (f r : Nat) : State :=
  { ((((up.setReg (kcas 1) (2 + 8 * 2 ^ 21)).setReg (kcas 1 + 4) 0x10000).setReg (kcas 1 + 0xC) 0x8000).setReg (kcas 1 + 0x14)
      0x10003).setReg (kcas 1 + 0x18) f with mem := memOf [(0x8000, [0x800100 + r, 0, 1])] }
def casS (b : Nat) (f r : Nat) : State := ((poolS f r).setReg (win 0 + 0xA08) b).setReg (kctx 0) 0xFF0001
/-- A request of context 0 that may still be pending. -/
def casP : State := { casS 1 1 1 with casPend := [0] }
/-- The handle of buffer 0, pool 1, GEN 1. -/
def h0 : U32 := 0x80900000

theorem meets_CaissonRequestsAct_request :
    (∃ (s : State) (c : Nat) (w : U32) (priv : Bool), c ≤ 16 ∧ Reaches s (win c + 0xA00) priv ∧ s.casPend.contains c = true
      ∧ fld w.toNat 20 0 ≠ 0 ∧ fld w.toNat 20 0 ≤ 1048576)
    ∧ (∀ w ∈ [(0 : U32), 1048577], ∀ pend ∈ [true, false], ∃ (s : State) (c : Nat) (priv : Bool), c ≤ 16
      ∧ Reaches s (win c + 0xA00) priv ∧ s.casPend.contains c = pend ∧ (fld w.toNat 20 0 = 0 ∨ 1048576 < fld w.toNat 20 0))
    ∧ (∃ (s : State) (c : Nat) (w : U32) (priv : Bool), c ≤ 16 ∧ Reaches s (win c + 0xA00) priv ∧ s.casPend.contains c = false
      ∧ fld w.toNat 20 0 ≠ 0 ∧ fld w.toNat 20 0 ≤ 1048576 ∧ (c = 16 ∨ s.rbit (kctx c) 0 = true)
      ∧ (∀ p ∈ s.candidates c (256 * fld w.toNat 20 0), s.poolFree p = 0))
    ∧ (∃ (s : State) (c : Nat) (w : U32) (priv : Bool) (p : Nat) (ps : List Nat), c ≤ 16 ∧ Reaches s (win c + 0xA00) priv
      ∧ s.casPend.contains c = false ∧ fld w.toNat 20 0 ≠ 0 ∧ fld w.toNat 20 0 ≤ 1048576 ∧ (c = 16 ∨ s.rbit (kctx c) 0 = true)
      ∧ s.candidates c (256 * fld w.toNat 20 0) = p :: ps ∧ s.poolFree p ≠ 0 ∧ bitOf w.toNat 22 = false ∧ s.poolIso p = false
      ∧ s.reg (kcas p + 0x1C) = 0) := by
  refine ⟨⟨casP, 0, 1, false, by decide, reaches_of _ _ _ (by decide +kernel), by decide +kernel⟩, fun w hw b hb => ?_,
    ⟨casS 1 0 1, 0, 1, false, by decide, reaches_of _ _ _ (by decide +kernel), by decide +kernel⟩,
    ⟨casS 1 1 1, 0, 1, false, 1, [], by decide, reaches_of _ _ _ (by decide +kernel), by decide +kernel⟩⟩
  simp only [List.mem_cons, List.not_mem_nil, or_false] at hw
  rcases b with _ | _
  · refine ⟨casS 1 1 1, 0, false, by decide, reaches_of _ _ _ (by decide +kernel), by decide +kernel, ?_⟩
    rcases hw with rfl | rfl <;> decide +kernel
  · refine ⟨casP, 0, false, by decide, reaches_of _ _ _ (by decide +kernel), by decide +kernel, ?_⟩
    rcases hw with rfl | rfl <;> decide +kernel

/-- The buffer on top is 1: pool 1, GEN 1, and one more free slot goes (R266). -/
theorem test_casRequest : (after (exec (.casRequest 0 1 false) (casS 1 1 1))).reg (win 0 + 0xA04) = 0x80900001
    ∧ (after (exec (.casRequest 0 1 false) (casS 1 1 1))).poolFree 1 = 0
    ∧ (after (exec (.casRequest 0 1 false) (casS 1 0 1))).reg (win 0 + 0xA08) = 3 := by decide +kernel

theorem meets_CaissonRequestsAct_handles :
    (∃ (s : State) (c p i : Nat) (w : U32) (priv : Bool), c ≤ 16 ∧ p = hPool w.toNat ∧ i = hIdx w.toNat ∧ Reaches s (win c + 0xA14) priv
      ∧ s.casTest c w.toNat false = .ok ∧ fld (s.bufWord p i) 7 0 = 1 ∧ s.landingIn p i = false ∧ s.poolFree p < s.poolCount p)
    ∧ (∃ (s : State) (c p i : Nat) (w : U32) (priv : Bool), c ≤ 16 ∧ p = hPool w.toNat ∧ i = hIdx w.toNat ∧ Reaches s (win c + 0xA14) priv
      ∧ s.casTest c w.toNat false = .ok ∧ fld (s.bufWord p i) 7 0 ≠ 1)
    ∧ (∃ (s : State) (c : Nat) (w : U32) (priv : Bool), c ≤ 16 ∧ Reaches s (win c + 0xA14) priv ∧ s.casTest c w.toNat false = .foreign)
    ∧ (∃ (s : State) (c : Nat) (w : U32) (priv : Bool), c ≤ 16 ∧ Reaches s (win c + 0xA18) priv ∧ s.casTest c w.toNat true = .ok)
    ∧ (∃ (s : State) (c : Nat) (w : U32) (priv : Bool), c ≤ 16 ∧ Reaches s (win c + 0xA18) priv ∧ s.casTest c w.toNat true = .foreign) :=
  ⟨⟨casS 1 1 1, 0, _, _, h0, false, by decide, rfl, rfl, reaches_of _ _ _ (by decide +kernel), by decide +kernel⟩,
    ⟨casS 1 1 255, 0, _, _, h0, false, by decide, rfl, rfl, reaches_of _ _ _ (by decide +kernel), by decide +kernel⟩,
    ⟨casS 1 1 1, 1, h0, false, by decide, reaches_of _ _ _ (by decide +kernel), by decide +kernel⟩,
    ⟨casS 1 1 254, 0, h0, false, by decide, reaches_of _ _ _ (by decide +kernel), by decide +kernel⟩,
    ⟨casS 1 1 1, 1, h0, false, by decide, reaches_of _ _ _ (by decide +kernel), by decide +kernel⟩⟩

theorem test_casFree : (after (exec (.casFree 0 h0 false) (casS 1 1 1))).poolFree 1 = 2
    ∧ (after (exec (.casFree 0 h0 false) (casS 1 1 1))).rd32 0x800C = 0 := by decide +kernel
theorem test_casRef : (after (exec (.casRef 0 h0 false) (casS 1 1 1))).bufWord 1 0 = 0x800102
    ∧ (after (exec (.casRef 0 h0 false) (casS 1 1 255))).bufWord 1 0 ≠ 0x800200 := by decide +kernel

/-- A reclaim of context 0: with a queue of it enabled, with a landing of it, and with neither. -/
def rclS (ls : List Landing) : State := { up with landings := ls }
def rclQ : State := up.setReg (kq 0 + 0xC) 1

theorem meets_CaissonRequestsAct_reclaim :
    (∃ (s : State) (w : U32) (priv : Bool), Reaches s 0xA0400 priv ∧ bitOf w.toNat 31 = true
      ∧ s.anyEnabled (fld w.toNat 3 0) = true)
    ∧ (∃ (s : State) (w : U32) (priv : Bool), Reaches s 0xA0400 priv ∧ bitOf w.toNat 31 = true
      ∧ s.anyEnabled (fld w.toNat 3 0) = false ∧ (∃ l ∈ s.landings, l.ctx = fld w.toNat 3 0))
    ∧ (∃ (s : State) (w : U32) (priv : Bool), Reaches s 0xA0400 priv ∧ bitOf w.toNat 31 = true
      ∧ s.anyEnabled (fld w.toNat 3 0) = false ∧ (∀ l ∈ s.landings, l.ctx ≠ fld w.toNat 3 0)
      ∧ s.rf (kctx (fld w.toNat 3 0) + 4) 1 0 ≠ 2 ∧ (∀ x ∈ s.reclaims, x = fld w.toNat 3 0))
    ∧ (∃ (s : State) (w : U32) (priv : Bool), Reaches s 0xA0400 priv ∧ bitOf w.toNat 31 = false) :=
  ⟨⟨rclQ, 0x80000000, true, reaches_of _ _ _ (by decide +kernel), by decide +kernel⟩,
    ⟨rclS [{ n := 0, ctx := 0, gen := 0, spans := [] }], 0x80000000, true, reaches_of _ _ _ (by decide +kernel), by decide +kernel⟩,
    ⟨rclS [{ n := 0, ctx := 1, gen := 0, spans := [] }], 0x80000000, true, reaches_of _ _ _ (by decide +kernel), by decide +kernel⟩,
    ⟨rclQ, 5, true, reaches_of _ _ _ (by decide +kernel), by decide +kernel⟩⟩

/-- A reclaim that waits is not lost to a later one (R273). -/
theorem test_reclaim_waits : (after (exec (.reclaim 0x80000000 true) (rclS [{ n := 0, ctx := 0, gen := 0, spans := [] }]))).reclaims = [0] := by
  decide +kernel
theorem test_reclaim : (after (exec (.reclaim 0x80000000 true) rclQ)).rbit 0xA0400 29 = true
    ∧ (after (exec (.reclaim 0x80000000 true) (rclS []))).rbit 0xA0400 30 = true := by decide +kernel

/-- Event queue 2 enabled with WR 7 and RD 5, TMO set; its ring of 256 records at Deck offset 0 of a Deck of n slots of
2 MiB. -/
def evS (tmo : Nat) : State := ((((up.setReg (kevq 2 + 0xC) 7).setReg (kevq 2 + 0x10) 5).setReg (kevq 2 + 8) 1).setReg (kevq 2 + 4)
  (8 + tmo * 2 ^ 24))
def evOff (sz deck : Nat) : State := (up.setReg (kevq 2 + 4) sz).setReg 0x90008 deck

theorem meets_EventReadIndexMoves : ∀ win_ ∈ [true, false],
    (∃ (s : State) (e : Nat) (w : U32) (priv : Bool), e ≤ 16 ∧ Reaches s (if win_ then win e + 0xB10 else kevq e + 0x10) priv
      ∧ 0 ≤ (w - u32 (s.reg (kevq e + 0x10))).toInt ∧ 0 ≤ (u32 (s.reg (kevq e + 0xC)) - w).toInt)
    ∧ (∃ (s : State) (e : Nat) (w : U32) (priv : Bool), e ≤ 16 ∧ Reaches s (if win_ then win e + 0xB10 else kevq e + 0x10) priv
      ∧ ¬(0 ≤ (w - u32 (s.reg (kevq e + 0x10))).toInt ∧ 0 ≤ (u32 (s.reg (kevq e + 0xC)) - w).toInt)) := by
  intro x _
  cases x <;> exact ⟨⟨evS 1, 2, 7, true, by decide, reaches_of _ _ _ (by decide +kernel), by decide +kernel⟩,
    ⟨evS 1, 2, 8, true, by decide, reaches_of _ _ _ (by decide +kernel), by decide +kernel⟩⟩

/-- RD moves up to WR and no further (R261). -/
theorem test_eventRd : (after (exec (.eventRdWrite 2 false 7 true) (evS 1))).reg (kevq 2 + 0x10) = 7
    ∧ (after (exec (.eventRdWrite 2 true 8 true) (evS 1))).reg (kevq 2 + 0x10) = 5 := by decide +kernel

theorem meets_EventQueueEnableAndCoalesce :
    (∃ (s : State) (e : Nat) (w : U32) (priv : Bool), e ≤ 16 ∧ Reaches s (kevq e + 8) priv ∧ s.rbit (kevq e + 8) 0 = false
      ∧ bitOf w.toNat 0 = true ∧ 8 ≤ s.rf (kevq e + 4) 4 0 ∧ s.rf (kevq e + 4) 4 0 ≤ 15
      ∧ s.reg (kevq e) + 16 * 2 ^ s.rf (kevq e + 4) 4 0 ≤ s.reg 0x90008 * 2 ^ 21)
    ∧ (∀ s ∈ [evOff 7 1, evOff 16 1, evOff 8 0], Reaches s (kevq 2 + 8) true ∧ s.rbit (kevq 2 + 8) 0 = false
      ∧ (s.rf (kevq 2 + 4) 4 0 < 8 ∨ 15 < s.rf (kevq 2 + 4) 4 0
        ∨ s.reg 0x90008 * 2 ^ 21 < s.reg (kevq 2) + 16 * 2 ^ s.rf (kevq 2 + 4) 4 0))
    ∧ (∃ (s : State) (e : Nat), e ≤ 16 ∧ s.refclk = true ∧ s.rst.level = none ∧ s.rbit (kevq e + 8) 0 = true
      ∧ s.rf (kevq e + 4) 31 24 ≠ 0 ∧ s.evUnread e ≠ 0)
    ∧ (∃ (s : State) (e : Nat), e ≤ 16 ∧ s.evUnread e = 0) := by
  refine ⟨⟨evOff 15 1, 2, 1, true, by decide, reaches_of _ _ _ (by decide +kernel), by decide +kernel⟩, fun s hs => ?_,
    ⟨evS 1, 2, by decide +kernel⟩, ⟨evS 1, 16, by decide +kernel⟩⟩
  have h : ∀ s ∈ [evOff 7 1, evOff 16 1, evOff 8 0], ((s.ctlUp && (true || openTo (kevq 2 + 8)) && (s.rst.posted || earlyReg (kevq 2 + 8))) = true)
    ∧ s.rbit (kevq 2 + 8) 0 = false ∧ (s.rf (kevq 2 + 4) 4 0 < 8 ∨ 15 < s.rf (kevq 2 + 4) 4 0
        ∨ s.reg 0x90008 * 2 ^ 21 < s.reg (kevq 2) + 16 * 2 ^ s.rf (kevq 2 + 4) 4 0) := by decide +kernel
  exact ⟨reaches_of _ _ _ (h s hs).1, (h s hs).2⟩

theorem test_eventEnable : (after (exec (.eventQueueEnable 2 1 true) (evOff 15 1))).rbit (kevq 2 + 8) 0 = true
    ∧ (after (exec (.eventQueueEnable 2 1 true) (evOff 16 1))).rbit (kevq 2 + 0x1C) 3 = true := by decide +kernel
theorem test_coalesce : (after (exec (.eventCoalesceTimeout 2) (evS 1))).rbit (kevq 2 + 0x1C) 0 = true
    ∧ (after (exec (.eventCoalesceTimeout 2) (evS 0))).rbit (kevq 2 + 0x1C) 0 = false := by decide +kernel

/-- Counter 17 of context 0 at 2^32 + 5. -/
def cntS : State := up.ctxCount 0 17 (2 ^ 32 + 5)
theorem meets_CounterPairsReadWhole : ∃ (s : State) (off : Nat) (priv : Bool), Reaches s off priv ∧ counterLo off = true
    ∧ s.cnt off ≠ 0 := ⟨cntS, win 0 + 0x1000 + 8 * 17, false, reaches_of _ _ _ (by decide +kernel), by decide +kernel⟩
/-- The HI word is the one of the read, though the counter has gone on (R282). -/
theorem test_counter_pair : (after (exec (.counterLoRead (win 0 + 0x1088) false) cntS)).ctl.rdata = 5
    ∧ ((after (exec (.counterLoRead (win 0 + 0x1088) false) cntS)).cntAdd (win 0 + 0x1088) (2 ^ 32)).view (win 0 + 0x108C) = 1 := by
  decide +kernel

/-- The read-clear registers, the ends of each range. -/
theorem meets_RegisterCodesHold :
    (∀ off ∈ [0x1008, 0x1000C, 0x1100, 0x115C, kcas 0 + 0x20, kcas 7 + 0x24, kevq 0 + 0x14, kevq 16 + 0x14],
      Reaches up off true ∧ (off = 0x1008 ∨ off = 0x1000C ∨ (∃ i, i < 24 ∧ off = 0x1100 + 4 * i)
        ∨ (∃ p, p < 8 ∧ (off = kcas p + 0x20 ∨ off = kcas p + 0x24)) ∨ (∃ e, e ≤ 16 ∧ off = kevq e + 0x14)))
    ∧ (up.ctlUp = true ∧ up.rst.posted = true ∧ up.part.pier 3 = true) := by
  refine ⟨fun off h => ?_, by decide +kernel⟩
  have k : ∀ off ∈ [0x1008, 0x1000C, 0x1100, 0x115C, kcas 0 + 0x20, kcas 7 + 0x24, kevq 0 + 0x14, kevq 16 + 0x14],
    ((up.ctlUp && (true || openTo off) && (up.rst.posted || earlyReg off)) = true) ∧ (off = 0x1008 ∨ off = 0x1000C
      ∨ (∃ i, i < 24 ∧ off = 0x1100 + 4 * i) ∨ (∃ p, p < 8 ∧ (off = kcas p + 0x20 ∨ off = kcas p + 0x24))
      ∨ (∃ e, e < 17 ∧ off = kevq e + 0x14)) := by decide +kernel
  obtain ⟨a, b⟩ := k off h
  refine ⟨reaches_of _ _ _ a, ?_⟩
  rcases b with b | b | b | b | ⟨e, he, b⟩
  · exact .inl b
  · exact .inr (.inl b)
  · exact .inr (.inr (.inl b))
  · exact .inr (.inr (.inr (.inl b)))
  · exact .inr (.inr (.inr (.inr ⟨e, by omega, b⟩)))

theorem test_read_clears : (after (exec (.readClear 0x1008 true) (up.setReg 0x1008 9))).ctl.rdata = 9
    ∧ (after (exec (.readClear 0x1008 true) (up.setReg 0x1008 9))).reg 0x1008 = 0 := by decide +kernel
/-- W1C of the own window: bits written as 1 are cleared. -/
theorem test_write_clears : (after (exec (.registerWrite (win 0 + 0x600) 6 false) (up.setReg (win 0 + 0x600) 0xF))).reg (win 0 + 0x600) = 9 := by
  decide +kernel

-- clocks, boot, resets, Piers

/-- The pace of the window is on with 100 beats; KPACE holds 50 beats for the next. -/
def paceS : State := { up.setReg 0x10008 0x80000032 with pace := { en := true, bpw := 100 } }

theorem meets_PaceAndReferenceClock :
    (∃ (s : State) (priv : Bool), Reaches s 0x10008 priv) ∧ (∃ s : State, s.refclk = true ∧ s.rst.low = false ∧ s.pace.en = true) :=
  ⟨⟨paceS, true, reaches_of _ _ _ (by decide +kernel)⟩, ⟨paceS, by decide +kernel⟩⟩

/-- A BPW of 0 keeps the old one (R327). -/
theorem test_paceWrite : (after (exec (.paceWrite 0x80000000 true) paceS)).rf 0x10008 10 0 = 50 := by decide +kernel
/-- 99 beats of 100 are a slip, 100 are not; the next window takes KPACE. -/
theorem test_paceWindow : (after (exec (.paceWindow 99) paceS)).reg 0x1000C = 1 ∧ (after (exec (.paceWindow 100) paceS)).reg 0x1000C = 0
    ∧ (after (exec (.paceWindow 99) paceS)).pace = { en := true, bpw := 50 } := by decide +kernel
theorem test_refclk : (after (exec .refclkStop up)).refclk = false ∧ (after (exec .refclkReturn (after (exec .refclkStop up)))).rbit 0x10008 27 = true := by
  decide +kernel

/-- The loader in a STATE, from a source. -/
def bootS (st src : Nat) (dbg : List Byte) : State := { up.setReg 0x200 st with boot := { src := src, dbg := dbg } }
/-- A microcode image of 154,624 bytes whose header fits stepping 0, as far as the load checks look. -/
def romImg : List Byte := wordsBytes [154624] ++ List.replicate 154620 0

theorem romImg_len : romImg.length = 154624 := by
  unfold romImg
  rw [List.length_append, List.length_replicate]
  decide +kernel

theorem here_of (s : State) (im : List Byte) (h3 : s.rf 0x200 3 0 = 3) (h : 64 ≤ im.length) (hl : imgLen im ≤ im.length) :
    s.imgHere im = true := by
  unfold State.imgHere
  simp [h3, hl, show 4 ≤ im.length by omega]

theorem meets_BootReachesReady_load :
    (∃ (s : State) (w : U32) (priv : Bool), Reaches s 0x204 priv ∧ s.rf 0x200 3 0 = 4 ∧ bitOf w.toNat 1 = true ∧ bitOf w.toNat 2 = false)
    ∧ (∃ (s : State) (w : U32) (priv : Bool), Reaches s 0x204 priv ∧ s.rf 0x200 3 0 = 4 ∧ w.toNat % 8 = 1)
    ∧ (∃ (s : State) (w : U32) (priv : Bool), Reaches s 0x204 priv ∧ s.rf 0x200 3 0 = 4 ∧ bitOf w.toNat 2 = true)
    ∧ (∃ (s : State) (w : U32) (priv : Bool), Reaches s 0x204 priv ∧ s.rf 0x200 3 0 = 2 ∧ s.boot.src = 2 ∧ bitOf w.toNat 0 = true)
    ∧ (∃ (s : State) (priv : Bool), Reaches s 0x210 priv ∧ s.rf 0x200 3 0 = 2 ∧ s.boot.src = 1
      ∧ (s.boot.dbg.length < 4 ∨ s.boot.dbg.length < imgLen s.boot.dbg))
    ∧ (∃ (s : State) (rom im : List Byte), im = s.imgOf rom ∧ s.rst.low = false ∧ s.refclk = true ∧ s.rst.arrays = true
      ∧ s.imgHere im = true ∧ s.imgCheck im = 0)
    ∧ (∃ (s : State) (rom im : List Byte), im = s.imgOf rom ∧ s.rst.low = false ∧ s.refclk = true ∧ s.rst.arrays = true
      ∧ s.imgHere im = true ∧ s.imgCheck im ≠ 0) :=
  ⟨⟨bootS 4 3 [], 2, true, reaches_of _ _ _ (by decide +kernel), by decide +kernel⟩,
    ⟨bootS 4 3 [], 1, true, reaches_of _ _ _ (by decide +kernel), by decide +kernel⟩,
    ⟨bootS 4 3 [], 4, true, reaches_of _ _ _ (by decide +kernel), by decide +kernel⟩,
    ⟨bootS 2 2 [], 1, true, reaches_of _ _ _ (by decide +kernel), by decide +kernel⟩,
    ⟨bootS 2 1 [0, 16, 0, 0], true, reaches_of _ _ _ (by decide +kernel), by decide +kernel⟩,
    ⟨bootS 3 3 [], romImg, romImg, rfl, by decide +kernel, by decide +kernel, by decide +kernel,
      here_of _ _ (by decide +kernel) (by rw [romImg_len]; decide) (by rw [romImg_len]; decide +kernel), by decide +kernel⟩,
    ⟨bootS 3 3 [], List.replicate 64 0, List.replicate 64 0, rfl, by decide +kernel⟩⟩

/-- A GO beside the ACCEPT of a loaded image is one in a state that takes none (R345). -/
theorem test_boot_accept_go : (after (exec (.bootAccept 3 true) (bootS 4 3 []))).reg 0x200 = 0x805 := by decide +kernel
theorem test_boot_accept : (after (exec (.bootAccept 2 true) (bootS 4 3 []))).rf 0x200 3 0 = 5
    ∧ (after (exec (.bootReject 4 true) (bootS 4 3 []))).rf 0x200 15 8 = 6 := by decide +kernel
/-- A word after the load, from the boot-ROM window too, sets ERR 0x08 and leaves STATE (R341; log entry 50). -/
theorem test_boot_data_late : (after (exec (.bootData 7 true) (bootS 6 3 []))).rf 0x200 15 8 = 8
    ∧ (after (exec (.bootData 7 true) (bootS 6 3 []))).rf 0x200 3 0 = 6 := by decide +kernel
theorem test_boot_data : (after (exec (.bootData 0x04030201 true) (bootS 2 1 []))).boot.dbg = [1, 2, 3, 4] := by decide +kernel
theorem test_boot_go : (after (exec (.bootGo 1 true) (bootS 2 2 []))).rf 0x200 3 0 = 3 := by decide +kernel
theorem test_load_fails : (after (exec (.microcodeLoaded (List.replicate 64 0)) (bootS 3 3 []))).rf 0x200 3 0 = 7 := by decide +kernel

/-- A reset whose line has risen, n domains released, at a level; accepted microcode. -/
def relS (n : Nat) (lv : Level) (st : Straps) : State := { rst := { level := some lv, rel := n, straps := st } }
def acceptedS : State := { (relS 12 .power {}).setReg 0x200 5 with rst := { level := some .power } }

theorem meets_BootReachesReady_release :
    (∃ s : State, s.rst.low = true)
    ∧ (∃ s : State, s.rst.low = false ∧ s.rst.iso = false ∧ s.rst.level ≠ none ∧ s.refclk = true ∧ s.rbit 0x100 10 = false ∧ s.rst.rel < 11)
    ∧ (∃ s : State, s.rst.low = false ∧ s.rst.iso = false ∧ s.rst.level ≠ none ∧ s.refclk = true ∧ s.rbit 0x100 10 = false ∧ s.rst.rel = 11)
    ∧ (∃ s : State, s.rst.low = false ∧ s.rst.iso = false ∧ s.rst.level ≠ none ∧ s.refclk = true ∧ s.rbit 0x100 10 = false ∧ s.rst.rel = 12)
    ∧ (∃ s : State, s.rf 0x200 3 0 = 5 ∧ s.rst.low = false ∧ s.rst.level ≠ none ∧ s.rst.rel = 12 ∧ s.rst.arrays = true ∧ s.refclk = true
      ∧ (s.rst.level ≠ some .core ∨ s.rbit 0x10004 1 = false) ∧ s.rbit (kevq 16 + 8) 0 = false) :=
  ⟨⟨State.reset, by decide +kernel⟩, ⟨relS 10 .power {}, by decide +kernel⟩, ⟨relS 11 .power {}, by decide +kernel⟩,
    ⟨relS 12 .power {}, by decide +kernel⟩, ⟨acceptedS, by decide +kernel⟩⟩

/-- STATE after the last release, by the BOOT strap: 0b00 OFF, 0b01 and 0b10 HALT, 0b11 FETCH; after a core reset ACCEPTED. -/
theorem test_release_straps : [0, 1, 2, 3].map (fun b => (after (exec .domainRelease (relS 11 .power { boot := b }))).rf 0x200 3 0)
    = [1, 2, 2, 3] ∧ (after (exec .domainRelease (relS 11 .core {}))).rf 0x200 3 0 = 5 := by decide +kernel
theorem test_deassert : (after (exec .resetDeassert State.reset)).rst.low = false := by decide +kernel
theorem test_arrays : (after (exec .arrayInitDone { (relS 12 .power {}) with rst := { level := some .power, arrays := false } })).rst.arrays
    = true := by decide +kernel

/-- A block that works: a job and a stream; and one with an open feed. -/
def workS : State := { up with jobs := [{ ctx := 0, job := 1, q := 0, t := 1, param := 0, stage := 0 }], tx := [{ ctx := 0, dst := 3, vc := 1 }],
                               boot := { store := [7] } }
def fedS : State := { up with feeds := [{ id := 9, q := 0, idx := 0, ctx := 0, gen := 0, xid := 0, gate := true, got := 1 }] }

/-- The release ended at domains 0 and 1. -/
def strapS : State := { (workS.setReg 0x100 0x400) with rst := { workS.rst with rel := 2, level := some .power } }

/-- A power-on reset, and a system reset, whose line is low. -/
def inPower : State := { up with rst := { level := some .power, low := true, rel := 0 } }
def inSystem : State := { up with rst := { level := some .system, low := true, rel := 0 } }

theorem meets_ResetsClearAndSpare :
    (∃ s : State, s.isoWaits = false ∧ s.evNew = [] ∧ (∀ x ∈ s.started, x.2.wrote = []) ∧ s.resetRuns = false
      ∧ s.rst.level ≠ some .power ∧ s.rst.level ≠ some .system)
    ∧ (∃ s : State, s.isoWaits = true ∧ s.resetRuns = false ∧ s.rst.level ≠ some .power)
    ∧ (∃ s : State, s.resetRuns = true ∧ s.rst.level = some .power)
    ∧ (∃ s : State, s.resetRuns = true ∧ s.rst.level = some .system)
    ∧ (∃ s : State, s.isoWaits = false ∧ s.resetRuns = false ∧ s.rbit 0x100 10 = true)
    ∧ (∃ (s : State) (l : Level), s.rst.level = some l ∧ s.refclk = true ∧ s.rst.iso = true)
    ∧ (∃ (s : State) (l : Level), s.rst.level = some l ∧ s.rst.iso = true ∧ s.rst.tags = true ∧ s.landings = []
      ∧ (∀ f ∈ s.feeds, f.ended = true)) :=
  ⟨⟨workS, by decide +kernel⟩, ⟨fedS, by decide +kernel⟩, ⟨inPower, by decide +kernel⟩, ⟨inSystem, by decide +kernel⟩,
    ⟨strapS, by decide +kernel⟩, ⟨{ fedS with rst := { level := some .core, iso := true } }, .core, by decide +kernel⟩,
    ⟨{ workS with rst := { level := some .core, iso := true, tags := true } }, .core, by decide +kernel⟩⟩

/-- After a power-on with KSTRAP_TIMING 0b00, a core reset acts as a system reset (R331, R334). -/
theorem test_strap_bad : (after (exec (.coreReset {}) strapS)).rst.level = some .system := by decide +kernel

theorem test_resets : (after (exec (.powerOnReset {}) workS)).jobs = [] ∧ (after (exec (.coreReset {}) workS)).boot.store = [7]
    ∧ (after (exec (.systemReset {}) workS)).boot.store = [] := by decide +kernel
/-- NEEDSYS makes a core reset a system reset (R360). -/
theorem test_core_needsys : (after (exec (.coreReset {}) (workS.setReg 0x1004 4))).rst.level = some .system := by decide +kernel
def landsS : State := { up with landings := [{ n := 0, ctx := 0, gen := 0, spans := [] }] }
theorem test_isolation : (after (exec (.powerOnReset {}) fedS)).rst.iso = true
    ∧ (after (exec .isolationTimeout (after (exec (.powerOnReset {}) landsS)))).rbit 0x100 5 = true := by decide +kernel

/-- One frame of one flit waits on VC 1 of Pier 0, which has no credit. -/
def frame1 : Frame := { hdr := List.replicate 16 0, payload := [] }
def pierS : State := { up with net := { queued := [(0, 1, frame1)] } }

theorem meets_PiersMoveUnderCredit :
    (∀ n ∈ [1, 0], ∃ (s : State) (p vc have_ : Nat) (f : Frame), s.live = true ∧ s.part.pier p = true ∧ vc ≤ 7
      ∧ have_ = FMap.get 0 s.net.credit (8 * p + vc) ∧ s.net.queued = [(p, vc, f)]
      ∧ (flitsFor (FMap.get 0 s.net.room (8 * p + vc)) f.bytes ≤ have_ + n ↔ n = 1))
    ∧ (∃ (s : State) (p : Nat) (up : Bool), s.part.pier p = true ∧ 4 < s.rst.rel ∧ s.rbit (0x40004 + 0x40 * p) 0 ≠ up
      ∧ s.net.queued = [])
    ∧ (∃ (s : State) (p : Nat), s.part.pier p = false) := by
  refine ⟨fun n hn => ?_, ⟨up, 3, true, by decide +kernel⟩, ⟨{ part := { disPier := 1 } }, 0, by decide +kernel⟩⟩
  simp only [List.mem_cons, List.not_mem_nil, or_false] at hn
  rcases hn with rfl | rfl <;> exact ⟨pierS, 0, 1, 0, frame1, by decide +kernel⟩

theorem test_credit : (after (exec (.pierCredit 0 1 1) pierS)).net.sent = [(0, 1, frame1)]
    ∧ (after (exec (.pierCredit 0 1 0) pierS)).net.queued.length = 1 := by decide +kernel
/-- A second frame of 64 bytes rides in the room of the last flit (R319). -/
theorem test_packed : (after (exec (.pierCredit 0 1 1) { pierS with net := { queued := [(0, 1, frame1), (0, 1, frame1)] } })).net.queued = [] := by
  decide +kernel
theorem test_link : (after (exec (.pierLinkChange 3 true) up)).rbit 0x400C4 0 = true := by decide +kernel

-- memory responses

/-- A started COPY that waits for memory. -/
def memS : State := run (cm 0x30 [0]) []
/-- The teardown of context 0 has abandoned a COPY of queue 0, index 1. -/
def goneS : State := { (up.setReg (kctx 0 + 4) 3).setReg 0x1004 8 with queues := [(0, { gone := [(1, 0x30)] })] }
def landL : Landing := { n := 4, ctx := 0, gen := 7, spans := [(0x8000, 4)], ack := some (3, { hdr := [1], payload := [] }) }
def landS : State := { (up.setReg 0x40004 1) with landings := [landL] }

theorem meets_MemoryResponsesAct :
    (∀ st ∈ [MemStatus.decerr, .uncorr], ∃ (s : State) (q : Nat) (i : U32) (c : Cmd), st ≠ .ok ∧ s.live = true
      ∧ s.findCmd q i = some c ∧ s.ringOf q i = none ∧ s.rst.iso = false)
    ∧ (∀ st ∈ [MemStatus.decerr, .uncorr], ∃ (s : State) (q op : Nat) (i : U32), st ≠ .ok ∧ s.live = true ∧ s.rst.iso = false
      ∧ s.findCmd q i = none ∧ (s.queue q).gone = [(i, op)] ∧ s.owner q < 16 ∧ 2 ≤ s.rf (kctx (s.owner q) + 4) 1 0)
    ∧ (∀ st ∈ [MemStatus.decerr, .uncorr], ∃ s : State, st ≠ .ok ∧ s.rst.iso = false ∧ s.rf 0x200 3 0 = 3 ∧ s.rf 0x200 15 8 = 0)
    ∧ (∃ (s : State) (l : Landing) (d : Nat) (f : Frame), s.live = true ∧ s.rst.iso = false
      ∧ s.landings.find? (fun x => x.n == l.n) = some l ∧ l.ack = some (d, f)
      ∧ (∀ m ∈ s.landings, m.n ≠ l.n → m.before l = false) ∧ (∀ p, p < 8 → s.poolCount p = 0)
      ∧ (16 ≤ l.ctx ∨ s.rf (kctx l.ctx + 4) 1 0 ≠ 2) ∧ l.ctx ∉ s.reclaims ∧ (∀ g ∈ s.feeds, g.ctx ≠ l.ctx)) := by
  refine ⟨fun st h => ?_, fun st h => ?_, fun st h => ?_, ⟨landS, landL, 3, { hdr := [1], payload := [] }, by decide +kernel⟩⟩ <;>
    simp only [List.mem_cons, List.not_mem_nil, or_false] at h <;> rcases h with rfl | rfl
  · exact ⟨memS, 0, 0, cm 0x30 [0], by decide +kernel⟩
  · exact ⟨memS, 0, 0, cm 0x30 [0], by decide +kernel⟩
  · exact ⟨goneS, 0, 0x30, 1, by decide +kernel⟩
  · exact ⟨goneS, 0, 0x30, 1, by decide +kernel⟩
  · exact ⟨up.setReg 0x200 3, by decide +kernel⟩
  · exact ⟨up.setReg 0x200 3, by decide +kernel⟩

theorem test_microcode_decerr : (after (exec (.memoryReadResponse .microcode .decerr) (up.setReg 0x200 3))).rf 0x200 15 8 = 4
    ∧ (after (exec (.memoryReadResponse .microcode .uncorr) (up.setReg 0x200 3))).rf 0x200 15 8 = 5 := by decide +kernel
/-- An error of a read of an abandoned command joins the teardown: its entry says MERGED (R357). -/
theorem test_merged : (after (exec (.memoryReadResponse (.command 0 1 0x2000) .uncorr) goneS)).err.fifo.map (fun e => bitOf (e.getD 0 0).toNat 2)
    = [true] := by decide +kernel
/-- To a chip whose version is unknown a HELLO goes before the ACK (R130). -/
theorem test_landing_acks : (after (exec (.memoryWriteAck (.landing 4) .ok) landS)).landings = []
    ∧ (after (exec (.memoryWriteAck (.landing 4) .ok) landS)).net.queued.map (fun x => fKind x.2.2) = [9, 0]
    ∧ (after (exec (.memoryWriteAck (.landing 4) .ok) (landS.setReg 0x41000 0x80))).net.queued.map (fun x => fKind x.2.2) = [0] := by
  decide +kernel

-- slabs on the Piers

/-- Context 0 on the fabric with KEY 0x77: chip table at 0x20000, BCB table at 0x30000, sixteen counters at 0x40000; Pier 0 up;
chip 3 of version 2. ord: KCTX_ORDER. -/
def fab (ord : Nat) : State :=
  (((((((((tab.setReg (kctx 0) 0xFF0001).setReg (kctx 0 + 4) 1).setReg (win 0 + 0x500) 1).setReg (win 0 + 0x504) 0x77).setReg
    (win 0 + 0x510) 0x20000).setReg (win 0 + 0x518) 0x30000).setReg (win 0 + 0x108) 16).setReg (win 0 + 0x100) 0x40000).setReg
    0x40004 1).setReg 0x41000 0x80 |>.setReg (win 0 + 0x700) ord

/-- A slab of a kind from chip 3 for context 0, tag 7, XID 5, with its words 3 to 5 and 8 on. -/
def slab (kind seq w3 w4 w5 : Nat) (ws : List Nat) (n : Nat) : Frame :=
  { hdr := ([2 + kind * 16 + 3 * 4096, 0x77, 7, w3, w4, w5, seq, 0x50000] ++ ws ++ List.replicate (8 - ws.length) 0).map (fun w => u32 w),
    payload := List.replicate n 9 }
/-- The same with ORD. -/
def ordered (f : Frame) : Frame := fSet f 0 (f.w 0 + 2 ^ 24)

/-- The Bay of slot 5, armed for tag 7: CAP 100, rows of 8 BF16 at pitch 32 at 0x32000, RESV 10, landing list at
0x33000, tile counts at 0x34000. -/
def bayD : List (Nat × List Nat) := [(0x30028, [0x31000]), (0x31000, [0x70001, 100, 8, 32, 10, 0, 0, 0, 0x32000, 0, 0x33000, 0, 0, 0x34000])]
def bayS : State := { fab 0 with mem := memOf bayD }
def dspF : Frame := slab 1 0 0x50000 0x100000 8 [] 32

def retXchD : List (Nat × List Nat) := [at_ 1 (lin 3 0x2800 64 1 64), at_ 2 (lin 3 0x3000 400000 1 400000), at_ 3 (lin 3 0x90000 200000 1 200000),
  at_ 6 (lin 0 0x7000 8 4 16), (0x3014, [1]), (0x3024, [1, 1]), (0x3000 + destBuckets 1 1, [0x5003, 0, 0, 2]), (0x90000, [0x10, 1, 0, 0, 6]),
  (0x90000 + xbSegs, [0, 0, 2, 0])]
def retE : Exch := { cxEx with rrec := 1, nseg := 1 }
def retX : State := { fab 0 with mem := memOf retXchD, exch := [retE] }
def retF : Frame := slab 2 0 0x50000 0x100000 8 [] 32

/-- A slab whose header is damaged; one with another KEY; the context with its fabric off. -/
def badF (p : Nat) : Frame := { slab p 0 0 0 0 [] 0 with hdrBad := true }
def keyF (p : Nat) : Frame := fSet (slab p 0 0 0 0 [] 0) 1 0x78
def offS : State := (bayS.setReg (win 0 + 0x500) 0).setReg (kctx 0) 0xFF0000

theorem meets_SlabsPassChecksAndLand_refused : ∀ p ∈ [1, 2, 3, 4, 6, 7, 8],
    (∃ (s : State) (f : Frame), s.pierUp 0 = true ∧ kindOk f = true ∧ fKind f = p ∧ f.hdrBad = true ∧ fVer f = 2
      ∧ s.hellos.any (fun h => h.chip == fSrc f) = false)
    ∧ (∃ (s u : State) (f : Frame), u = s.dp1Seen f ∧ s.pierUp 0 = true ∧ kindOk f = true ∧ fKind f = p ∧ f.hdrBad = false
      ∧ u.rbit (win (fCtx f) + 0x500) 0 = false ∧ s.hellos.any (fun h => h.chip == fSrc f) = false)
    ∧ (∃ (s u : State) (f : Frame), u = s.dp1Seen f ∧ s.pierUp 0 = true ∧ kindOk f = true ∧ fKind f = p ∧ f.hdrBad = false
      ∧ u.rbit (kctx (fCtx f)) 0 = false ∧ s.hellos.any (fun h => h.chip == fSrc f) = false)
    ∧ (∃ (s u : State) (f : Frame), u = s.dp1Seen f ∧ s.pierUp 0 = true ∧ kindOk f = true ∧ fKind f = p ∧ f.hdrBad = false
      ∧ u.rbit (win (fCtx f) + 0x500) 0 = true ∧ u.rbit (kctx (fCtx f)) 0 = true ∧ fKey f ≠ u.reg (win (fCtx f) + 0x504)
      ∧ s.hellos.any (fun h => h.chip == fSrc f) = false) := by
  intro p hp
  have a : ∀ p ∈ [1, 2, 3, 4, 6, 7, 8], (bayS.pierUp 0 = true ∧ kindOk (badF p) = true ∧ fKind (badF p) = p ∧ fVer (badF p) = 2)
    ∧ (offS.pierUp 0 = true ∧ kindOk (slab p 0 0 0 0 [] 0) = true ∧ fKind (slab p 0 0 0 0 [] 0) = p
      ∧ (offS.dp1Seen (slab p 0 0 0 0 [] 0)).rbit (win (fCtx (slab p 0 0 0 0 [] 0)) + 0x500) 0 = false
      ∧ (offS.dp1Seen (slab p 0 0 0 0 [] 0)).rbit (kctx (fCtx (slab p 0 0 0 0 [] 0))) 0 = false)
    ∧ (bayS.pierUp 0 = true ∧ kindOk (keyF p) = true ∧ fKind (keyF p) = p
      ∧ (bayS.dp1Seen (keyF p)).rbit (win (fCtx (keyF p)) + 0x500) 0 = true
      ∧ (bayS.dp1Seen (keyF p)).rbit (kctx (fCtx (keyF p))) 0 = true
      ∧ fKey (keyF p) ≠ (bayS.dp1Seen (keyF p)).reg (win (fCtx (keyF p)) + 0x504)) := by decide +kernel
  obtain ⟨⟨a1, a2, a3, a4⟩, ⟨b1, b2, b3, b4, b5⟩, c1, c2, c3, c4, c5, c6⟩ := a p hp
  exact ⟨⟨_, _, a1, a2, a3, rfl, a4, rfl⟩, ⟨_, _, _, rfl, b1, b2, b3, rfl, b4, rfl⟩, ⟨_, _, _, rfl, b1, b2, b3, rfl, b5, rfl⟩,
    ⟨_, _, _, rfl, c1, c2, c3, rfl, c4, c5, c6, rfl⟩⟩

theorem meets_SlabsPassChecksAndLand :
    (∃ (s : State) (p : Nat) (f : Frame), Admits s p 1 f ∧ s.dspTarget f = .ok)
    ∧ (∃ (u : State) (c l src first n k b r tb le : Nat) (payload : List Byte), b = u.bcb c l ∧ k = u.rd32 (b + 48)
      ∧ r = u.bayRows b + u.bayPitch b * first ∧ tb = u.bayTiles b ∧ le = u.bayLand b + 8 * k ∧ src < 2 ^ 12
      ∧ first < 2 ^ 20 ∧ n ≤ 256 ∧ payload ≠ [] ∧ apart r payload.length b 64 ∧ apart r payload.length tb (first / 128 + 3)
      ∧ apart r payload.length le 8 ∧ apart b 64 tb (first / 128 + 3) ∧ apart b 64 le 8 ∧ apart tb (first / 128 + 3) le 8)
    ∧ (∃ (s : State) (p : Nat) (f : Frame) (e : Exch) (ts : List (Desc × Nat)) (brow : Nat), Admits s p 2 f ∧ s.retTarget f = .ok
      ∧ s.findExch (fCtx f) (fGen f) (fXid f) = some e ∧ s.retTargets e (fSrc f) (fLslot f) (fRow f) (fRows f) = some ts
      ∧ brow = rowBytes (s.readXb (s.desc e.ctx e.xb)).rfmt (fElems f) ∧ ts ≠ []) := by
  refine ⟨⟨bayS, 0, dspF, admits_of _ _ _ _ (by decide +kernel), by decide +kernel⟩,
    ⟨bayS, 0, 5, 3, 0, 1, _, _, _, _, _, dspF.payload, rfl, rfl, rfl, rfl, rfl, by unfold apart; decide +kernel⟩,
    ⟨retX, 0, retF, retE, (retX.retTargets retE 3 5 0 1).getD [], _, admits_of _ _ _ _ (by decide +kernel), by decide +kernel,
      by decide +kernel, by decide +kernel, rfl, by decide +kernel⟩⟩

/-- The row stands in the Bay; FILL is 1, and the landing entry names chip 3 and one row (R112). -/
theorem test_dispatch_slab : (after (exec (.dispatchSlabRx 0 dspF) bayS)).rd8 0x32007 = 9
    ∧ (after (exec (.dispatchSlabRx 0 dspF) bayS)).rd32 0x31014 = 1
    ∧ (after (exec (.dispatchSlabRx 0 dspF) bayS)).rd64 0x33000 = 3 + 2 ^ 32 := by decide +kernel
/-- A slab that finds no Bay armed is answered NACK NOT_READY, with the SEQ expected (R108, R114). -/
theorem test_nack_next : (after (exec (.dispatchSlabRx 0 dspF) (fab 0))).net.queued.map (fun x => (fKind x.2.2, fld (x.2.2.w 8) 15 8, x.2.2.w 9))
    = [(8, 1, 0)] := by decide +kernel
/-- The answer row goes to token 0 of plane 0 (R123). -/
theorem test_return_slab : (after (exec (.returnSlabRx 0 retF) retX)).rd 0x7000 17 = List.replicate 16 9 ++ [0] := by decide +kernel

/-- A RESERVE of 4 rows with C 128, for slot 5; a stream to chip 3 with that RESERVE unanswered, and its exchange with
the chunk. -/
def resF : Frame := slab 3 0 0x50000 0 0 [4, 128] 0
def resO : OutSlab := { q := 0, idx := 0, f := slab 3 0 0x50000 0 0 [4, 128] 0 }
def grantF : Frame := slab 4 0 0x50000 0x20000A 0 [4] 0
def grX : Exch := { cxEx with asked := [⟨3, 0, 5, 0, 0, 0, 4⟩] }
def grS (es : List Exch) : State := { fab 0 with tx := [{ ctx := 0, dst := 3, vc := 4, next := 1, unacked := [resO] }], exch := es }

theorem meets_ReserveIsGranted :
    (∃ (s : State) (p : Nat) (f : Frame) (b e n f0 : Nat), Admits s p 3 f ∧ s.resTarget f = .ok ∧ b = s.bcb (fCtx f) (fLslot f)
      ∧ e = s.rpair (win (fCtx f) + 0x510) + 32 * fSrc f ∧ n = fld (f.w 8) 8 0 ∧ apart b 64 e 32 ∧ f0 = s.rd32 (b + 16))
    ∧ (∃ (s : State) (p : Nat) (f : Frame) (x : TxStream) (o : OutSlab), Admits s p 4 f ∧ f.payload = []
      ∧ s.findTx (fCtx f) (fSrc f) 4 = some x
      ∧ (∀ y ∈ s.tx, y.waiting = []) ∧ x.unacked.find? (fun o => fKind o.f == 3 && fSeq o.f == fSeq f) = some o
      ∧ s.findExch (fCtx f) (fGen o.f) (fXid o.f) = none)
    ∧ (∃ (s : State) (p : Nat) (f : Frame) (x : TxStream) (o : OutSlab) (e : Exch) (k : Chunk), Admits s p 4 f ∧ f.payload = []
      ∧ s.findTx (fCtx f) (fSrc f) 4 = some x ∧ (∀ y ∈ s.tx, y.waiting = [])
      ∧ x.unacked.find? (fun o => fKind o.f == 3 && fSeq o.f == fSeq f) = some o
      ∧ s.findExch (fCtx f) (fGen o.f) (fXid o.f) = some e ∧ e.asked.find? (fun k => k.dst == fSrc f) = some k
      ∧ s.cmdsOf (fCtx f) = []) := by
  refine ⟨⟨bayS, 0, resF, _, _, _, _, admits_of _ _ _ _ (by decide +kernel), by decide +kernel, rfl, rfl, rfl,
      by unfold apart; decide +kernel, rfl⟩,
    ⟨grS [], 0, grantF, { ctx := 0, dst := 3, vc := 4, next := 1, unacked := [resO] }, resO, admits_of _ _ _ _ (by decide +kernel),
      by decide +kernel⟩,
    ⟨grS [grX], 0, grantF, { ctx := 0, dst := 3, vc := 4, next := 1, unacked := [resO] }, resO, grX, ⟨3, 0, 5, 0, 0, 0, 4⟩,
      admits_of _ _ _ _ (by decide +kernel), by decide +kernel⟩⟩

/-- RESV 10 becomes 14, and the GRANT of rows 10 to 13 is recorded (R113, R116). -/
theorem test_reserve : (after (exec (.reserveRx 0 resF) bayS)).rd32 0x31010 = 14
    ∧ (after (exec (.reserveRx 0 resF) bayS)).rd32 (0x20000 + 96 + 24) = 10 + 4 * 2 ^ 20 := by decide +kernel
/-- A GRANT of 2 rows from row 10: two records admitted, two dropped (R121). -/
theorem test_grant : (after (exec (.grantRx 0 grantF) (grS [grX]))).exch.map (fun e => e.upd.map (fun u => (u.adm, u.row)))
    = [[(true, 10), (true, 11), (false, 0), (false, 0)]] := by decide +kernel

def cntF (ph : Nat) : Frame := ordered (slab 5 0 0 0 0 [ph] 0)
/-- A COUNT of one slot: logical slot 9, base row 3, 4 admitted. -/
def cntOne : Frame := { ordered (slab 5 0 0 0 0 [1 + 2 ^ 16] 0) with payload := wordsBytes ([9, 0, 3, 4] ++ List.replicate 4 0) }
def cntS2 : State := { fab 1 with exch := [cxEx] }
def arrF : Frame := ordered (slab 5 0 0 0 0 [2, 2] 0)
def relF : Frame := ordered (slab 5 0 0 0 0 [3, 2, 0, 0, 77, 0] 0)
def bar2 : Barrier := { ctx := 0, q := 0, idx := 0, gen := 7, bid := 5, members := [0, 3], lead := 10 }
def bar2S : State := { fab 0 with barriers := [bar2] }
/-- The barrier after its TREL has come; a RELEASE that tells of a mismatch. -/
def barT : Barrier := { bar2 with trel := some 77 }
def misF : Frame := ordered (slab 5 0 0 0 0 [7, 2, 0, 0, 77, 0] 0)
def mrkF (i : Nat) : Frame := slab 6 0 0 0 0 [i] 0

theorem meets_CountBarrierAndMarkerSlabs :
    (∀ ph ∈ [0, 1], ∃ (s : State) (p : Nat) (f : Frame) (e : Exch), Admits s p 5 f ∧ fPhase f = ph ∧ s.cntTarget f = .ok
      ∧ s.findExch (fCtx f) (fGen f) (fXid f) = some e
      ∧ (∀ x ∈ (if fPhase f = 0 then e.ph0 else e.ph1), x.src ≠ fSrc f))
    ∧ (∃ (s : State) (p : Nat) (f : Frame) (b : Barrier), Admits s p 5 f ∧ fPhase f = 2 ∧ s.barTarget f = .ok
      ∧ s.findBar (fCtx f) (fGen f) (fXid f) = some b ∧ f.w 9 = b.members.length)
    ∧ (∃ (s : State) (p : Nat) (f : Frame) (b : Barrier), Admits s p 5 f ∧ fPhase f = 3 ∧ s.barTarget f = .ok
      ∧ s.findBar (fCtx f) (fGen f) (fXid f) = some b ∧ b.released = false ∧ b.trel = none ∧ bitOf (f.w 8) 2 = false)
    ∧ (∃ (s : State) (p : Nat) (f : Frame) (b : Barrier), Admits s p 5 f ∧ fPhase f = 3 ∧ s.barTarget f = .ok
      ∧ s.findBar (fCtx f) (fGen f) (fXid f) = some b ∧ b.released = false ∧ b.trel ≠ none ∧ bitOf (f.w 8) 2 = true)
    ∧ (∃ (s : State) (p : Nat) (f : Frame), Admits s p 6 f ∧ s.mrkTarget f = .ok ∧ s.feeds = [] ∧ s.rbit 0x1A040 0 = false) := by
  refine ⟨fun ph h => ?_, ⟨bar2S, 0, arrF, bar2, admits_of _ _ _ _ (by decide +kernel), by decide +kernel⟩,
    ⟨bar2S, 0, relF, bar2, admits_of _ _ _ _ (by decide +kernel), by decide +kernel⟩,
    ⟨{ bar2S with barriers := [barT] }, 0, misF, barT, admits_of _ _ _ _ (by decide +kernel), by decide +kernel⟩,
    ⟨fab 0, 0, mrkF 15, admits_of _ _ _ _ (by decide +kernel), by decide +kernel⟩⟩
  simp only [List.mem_cons, List.not_mem_nil, or_false] at h
  rcases h with rfl | rfl
  · exact ⟨cntS2, 0, cntF 0, cxEx, admits_of _ _ _ _ (by decide +kernel), by decide +kernel⟩
  · exact ⟨cntS2, 0, cntF 1, cxEx, admits_of _ _ _ _ (by decide +kernel), by decide +kernel⟩

theorem test_count_slab : (after (exec (.countSlabRx 0 (cntF 1)) cntS2)).exch.map (fun e => e.ph1.map (fun m => m.src)) = [[3]] := by decide +kernel
theorem test_count_entry : (after (exec (.countSlabRx 0 cntOne) cntS2)).exch.flatMap (fun e => e.ph1.flatMap (fun m => m.ents.map
    (fun y => (y.lslot, y.a, y.b)))) = [(9, 3, 4)] := by decide +kernel
theorem test_arrive : (after (exec (.barrierArriveRx 0 arrF) bar2S)).barriers.map (fun b => b.arrived) = [[3]] := by decide +kernel
/-- Counter 15 is the last of sixteen; a marker of counter 16 is refused (R114 check 8). -/
theorem test_marker : (after (exec (.markerRx 0 (mrkF 15)) (fab 0))).ctr 0 15 = 1 ∧ (after (exec (.markerRx 0 (mrkF 16)) (fab 0))).ctr 0 16 = 0 := by
  decide +kernel

-- answers and timers of a stream, versions

def ackF : Frame := slab 7 0 0 0 0 [1] 0
def nackF (reason : Nat) : Frame := slab 8 0 0 0 0 [1 + reason * 256] 0
/-- A DISPATCH slab of queue 0, command 0, unanswered toward chip 3; the same with its resend scheduled. -/
def stO : OutSlab := { q := 0, idx := 0, f := slab 1 0 0x50000 0 0 [] 0 }
def stX : TxStream := { ctx := 0, dst := 3, vc := 1, next := 1, unacked := [stO] }
/-- Two slabs unanswered, the resend of the second due; an ACK of the first. -/
def stTwo : TxStream := { stX with next := 2, unacked := [stO, { stO with f := slab 1 1 0x50000 0 0 [] 0 }], backoff := 1, resend := some 1 }
def stR : TxStream := { stX with backoff := 1, resend := some 0 }
def stS (x : TxStream) : State := { fab 0 with tx := [x] }

theorem meets_AnswersMoveStreams :
    (∃ (s : State) (p : Nat) (f : Frame) (x : TxStream), Admits s p 7 f ∧ f.payload = [] ∧ s.findTx (fCtx f) (fSrc f) (fld (f.w 8) 2 0) = some x
      ∧ (∀ y ∈ s.tx, y.waiting = []))
    ∧ (∃ (s : State) (p : Nat) (f : Frame) (x : TxStream) (r : U32) (o : OutSlab), Admits s p 7 f ∧ f.payload = []
      ∧ s.findTx (fCtx f) (fSrc f) (fld (f.w 8) 2 0) = some x ∧ (∀ y ∈ s.tx, y.waiting = []) ∧ x.resend = some r
      ∧ x.unacked.filter (fun o => fKind o.f == 3 || decide (i32diff (fSeq f) (fSeq o.f) < 0)) = [o]
      ∧ 0 ≤ i32diff r.toNat (fSeq o.f))
    ∧ (∀ r ∈ [1, 3, 6, 9], ∃ (s : State) (p : Nat) (f : Frame) (x : TxStream) (o : OutSlab), Admits s p 8 f
      ∧ f.payload = [] ∧ s.findTx (fCtx f) (fSrc f) (fld (f.w 8) 2 0) = some x ∧ x.unacked.find? (fun o => fSeq o.f == fSeq f) = some o
      ∧ fld (f.w 8) 15 8 = r ∧ x.backSeq = none ∧ x.resend = none)
    ∧ (∃ (s : State) (c d vc : Nat) (x : TxStream) (o : OutSlab) (os : List OutSlab) (r : U32), s.findTx c d vc = some x
      ∧ s.live = true ∧ s.refclk = true ∧ x.unacked = o :: os ∧ x.resend = some r ∧ s.rbit (win c + 0x500) 0 = true)
    ∧ (∃ (s : State) (c d vc : Nat) (x : TxStream) (o : OutSlab) (os : List OutSlab), s.findTx c d vc = some x
      ∧ s.live = true ∧ s.refclk = true ∧ x.unacked = o :: os ∧ s.rbit (win c + 0x500) 0 = false) := by
  have a : ∀ r ∈ [1, 3, 6, 9], ((stS stX).pierUp 0 && !(nackF r).hdrBad && (fVer (nackF r) == 2) && (fKind (nackF r) == 8)
      && (stS stX).rbit (win (fCtx (nackF r)) + 0x500) 0 && (stS stX).rbit (kctx (fCtx (nackF r))) 0
      && (fKey (nackF r) == (stS stX).reg (win (fCtx (nackF r)) + 0x504))
      && (!(8 == 1 || 8 == 2 || 8 == 3 || 8 == 5) || ((stS stX).seqCheck (nackF r) == .inOrder))
      && (8 == 4 || 8 == 7 || 8 == 8 || !(stS stX).retired (fCtx (nackF r)) (fGen (nackF r)))) = true
      ∧ (stS stX).findTx (fCtx (nackF r)) (fSrc (nackF r)) (fld ((nackF r).w 8) 2 0) = some stX
      ∧ stX.unacked.find? (fun o => fSeq o.f == fSeq (nackF r)) = some stO ∧ fld ((nackF r).w 8) 15 8 = r := by decide +kernel
  exact ⟨⟨stS stX, 0, ackF, stX, admits_of _ _ _ _ (by decide +kernel), by decide +kernel⟩,
    ⟨stS stTwo, 0, ackF, stTwo, 1, _, admits_of _ _ _ _ (by decide +kernel), rfl, by decide +kernel, by decide +kernel, rfl, rfl,
      by decide +kernel⟩,
    fun r h => ⟨stS stX, 0, nackF r, stX, stO, admits_of _ _ _ _ (a r h).1, rfl, (a r h).2.1, (a r h).2.2.1, (a r h).2.2.2, rfl, rfl⟩,
    ⟨stS stR, 0, 3, 1, stR, stO, [], 0, by decide +kernel⟩,
    ⟨(stS stR).setReg (win 0 + 0x500) 0, 0, 3, 1, stR, stO, [], by decide +kernel⟩⟩

theorem test_ack : (after (exec (.ackRx 0 ackF) (stS stX))).tx.map (fun x => x.unacked) = [[]] := by decide +kernel
/-- The resend carries RESEND (bit 25 of word 0). -/
theorem test_resend : (after (exec (.slabResend 0 3 1) (stS stX))).net.queued.map (fun x => bitOf (x.2.2.w 0) 25) = [true] := by decide +kernel
theorem test_backoff : (after (exec (.nackRx 0 (nackF 1)) (stS stX))).tx.map (fun x => (x.backoff, x.resend)) = [(1, some 0)] := by decide +kernel

/-- A HELLO and a HELLO_ACK from chip 5 that name version 2; a HELLO to chip 5 in flight. -/
def helF (kind : Nat) : Frame := { hdr := [u32 (2 + kind * 16 + 5 * 4096), 0, 0, 0, 0, 0, 0, 0, 0x12] ++ List.replicate 7 0, payload := [] }
def helS : State := { fab 0 with hellos := [{ chip := 5 }] }
def helHeld : State := { helS with net := { helS.net with held := [(5, 0, slab 6 0 0 0 0 [0] 0)] } }

theorem meets_VersionsAreLearned :
    (∃ (s : State) (p : Nat) (f : Frame), s.pierUp p = true ∧ f.hdrBad = false ∧ fVer f = 2 ∧ fKind f = 9 ∧ fld (f.w 8) 7 4 ≤ 2)
    ∧ (∃ (s : State) (p : Nat) (f : Frame), s.pierUp p = true ∧ f.hdrBad = false ∧ fVer f = 2 ∧ fKind f = 10
      ∧ s.hellos.any (fun h => h.chip == fSrc f) = true ∧ fld (f.w 8) 3 0 = 2)
    ∧ (∃ (s : State) (p : Nat) (f : Frame), s.pierUp p = true ∧ f.hdrBad = false ∧ fVer f = 2 ∧ fKind f = 10
      ∧ s.hellos.any (fun h => h.chip == fSrc f) = false)
    ∧ (∃ (s : State) (d : Nat), s.live = true ∧ s.refclk = true ∧ s.hellos.any (fun h => h.chip == d) = true
      ∧ s.net.held.any (fun h => h.1 == d) = true)
    ∧ (∃ (s : State) (d : Nat), s.live = true ∧ s.refclk = true ∧ s.hellos.any (fun h => h.chip == d) = true
      ∧ s.versionWaiters d = [] ∧ s.net.held.any (fun h => h.1 == d) = false) :=
  ⟨⟨helS, 0, helF 9, by decide +kernel⟩, ⟨helS, 0, helF 10, by decide +kernel⟩, ⟨fab 0, 0, helF 10, by decide +kernel⟩,
    ⟨helHeld, 5, by decide +kernel⟩, ⟨helS, 5, by decide +kernel⟩⟩

theorem test_hello_ack : (after (exec (.helloAck 0 (helF 10)) helS)).peerVer 5 = 2 := by decide +kernel
theorem test_hello : (after (exec (.hello 0 (helF 9)) helS)).net.queued.map (fun x => fKind x.2.2) = [10] := by decide +kernel

-- rings

theorem ringadmits_of (s : State) (p k : Nat) (f : Frame)
    (h : (s.pierUp p && !f.hdrBad && ringKindOk f && (fKind f == k) && s.rbit (win (fCtx f) + 0x500) 0
      && s.rbit (kctx (fCtx f)) 0 && (fKey f == s.reg (win (fCtx f) + 0x504))) = true) : RingAdmits s p k f := by
  simp only [Bool.and_eq_true, Bool.not_eq_true', beq_iff_eq] at h
  exact ⟨h.1.1.1.1.1.1, h.1.1.1.1.1.2, h.1.1.1.1.2, h.1.1.1.2, h.1.1.2, h.1.2, h.2⟩

/-- A ring frame from chip 3 for group 1, GSEQ 0, of a PERMUTE; word 9 is w9. -/
def ringF (kind w9 size : Nat) (payload : List Byte) : Frame :=
  { hdr := [2 + kind * 16 + 3 * 4096, 0x77, 1, 0, 4 + 0x80, 0, 0, 0, size, w9, 0, 0, 0, 0, 0, 0].map (fun w => u32 w), payload := payload }
/-- A PERMUTE of chips 3 and 0 in which the block of chip 3 comes here; one waits for an answer of chip 3. -/
def permR (size : Nat) : RingSlot := { ctx := 0, q := 0, idx := 0, gid := 1, gseq := 0, op := 4, dfmt := 0, retry := 0, members := [3, 0], me := 1, size := size }
/-- The same in its second attempt. -/
def lateR : RingSlot := { permR 4 with attempt := 1 }
def permX : RingTx := { dst := 3, dir := 0, next := 1, unacked := [ringF 1 4 4 [1, 2, 3, 4]] }
def permT (r : RingSlot) : RingSlot := { r with started := true, tx := [permX] }
/-- A group table at 0x5000 whose group 1 is the list of chips 0 and 3 behind handle 1; the torus is 4 × 1 × 1. -/
def ringD : List (Nat × List Nat) := [at_ 1 (lin 5 0x5800 2 1 4), (0x5020, [1, 2, 1]), (0x5800, [3 * 65536])]
def rxS (rs : List (Nat × RingSlot)) (k : List RingCtl) : State :=
  { (((fab 0).setReg (win 0 + 0x804) 0x5000).setReg (win 0 + 0x80C) 2).setReg 0x60004 3 with
    mem := memOf ringD, rings := rs, ringCtl := k, queues := [(0, { cmds := [cm 0x3B [0, 0, 0, 0]] })] }

theorem meets_RingFramesAreTaken_data :
    (∃ (s : State) (p : Nat) (f : Frame), RingAdmits s p 1 f ∧ s.ringAt (fCtx f) (rGid f) (rSeq f) = none)
    ∧ (∃ (s : State) (p : Nat) (f : Frame) (slot : Nat) (r : RingSlot), RingAdmits s p 1 f
      ∧ s.ringAt (fCtx f) (rGid f) (rSeq f) = some (slot, r) ∧ rAtt f = r.attempt ∧ r.seqCheck f = .dup)
    ∧ (∃ (s : State) (p : Nat) (f : Frame) (slot : Nat) (r : RingSlot) (n : Nat), RingAdmits s p 1 f
      ∧ s.ringAt (fCtx f) (rGid f) (rSeq f) = some (slot, r) ∧ rAtt f = r.attempt ∧ r.seqCheck f = .gap n)
    ∧ (∃ (s : State) (p : Nat) (f : Frame) (slot : Nat) (r : RingSlot), RingAdmits s p 1 f
      ∧ s.ringAt (fCtx f) (rGid f) (rSeq f) = some (slot, r) ∧ r.seqCheck f = .inOrder ∧ rAtt f < r.attempt)
    ∧ (∃ (s : State) (p : Nat) (f : Frame) (slot : Nat) (r : RingSlot), RingAdmits s p 1 f
      ∧ s.ringAt (fCtx f) (rGid f) (rSeq f) = some (slot, r) ∧ r.seqCheck f = .inOrder ∧ rAtt f = r.attempt
      ∧ s.ringAgrees r f = false) :=
  ⟨⟨rxS [] [], 0, ringF 1 4 4 [1, 2, 3, 4], ringadmits_of _ _ _ _ (by decide +kernel), by decide +kernel⟩,
    ⟨rxS [(0, { permR 4 with rx := [(3, 0, 0, 1)] })] [], 0, ringF 1 4 4 [1, 2, 3, 4], 0, { permR 4 with rx := [(3, 0, 0, 1)] },
      ringadmits_of _ _ _ _ (by decide +kernel), by decide +kernel⟩,
    ⟨rxS [(0, permR 4)] [], 0, { ringF 1 4 4 [1, 2, 3, 4] with hdr := (ringF 1 4 4 []).hdr.set 5 1 }, 0, permR 4, 0,
      ringadmits_of _ _ _ _ (by decide +kernel), by decide +kernel⟩,
    ⟨rxS [(0, lateR)] [], 0, ringF 1 4 4 [1, 2, 3, 4], 0, lateR, ringadmits_of _ _ _ _ (by decide +kernel), by decide +kernel⟩,
    ⟨rxS [(0, permR 4)] [], 0, ringF 1 4 8 [1, 2, 3, 4], 0, permR 4, ringadmits_of _ _ _ _ (by decide +kernel), by decide +kernel⟩⟩

def bigF : Frame := ringF 1 segBytes (2 * segBytes) (List.replicate segBytes 5)

/-- A PERMUTE that keeps one byte of its output apart. -/
def apartC : Cmd := { cm 0x3B [0, 0, 0, 0] with saved := [(0, [1])] }

theorem meets_RingFramesAreTaken_segment : ∀ x ∈ [[], [(0, [(1 : Byte)])]], ∃ (s : State) (p : Nat) (f : Frame) (slot : Nat) (r : RingSlot) (c : Cmd), RingAdmits s p 1 f
    ∧ s.ringAt (fCtx f) (rGid f) (rSeq f) = some (slot, r) ∧ rAtt f = r.attempt ∧ r.seqCheck f = .inOrder ∧ r.fits f = true
    ∧ s.ringAgrees r f = true ∧ f.payBad = false ∧ 3 ≤ r.op ∧ r.finals ≠ r.want ∧ s.findRing slot = some r
    ∧ f.payload.length = segBytes ∧ f.w 11 + segBytes < r.size
    ∧ s.findCmd r.q r.idx = some c ∧ c.saved = x := by
  intro x hx
  have hl : bigF.payload.length = segBytes := List.length_replicate
  have hf : (permR (2 * segBytes)).fits bigF = true := by
    unfold RingSlot.fits
    rw [hl]
    decide +kernel
  simp only [List.mem_cons, List.not_mem_nil, or_false] at hx
  rcases hx with rfl | rfl
  · exact ⟨rxS [(0, permR (2 * segBytes))] [], 0, bigF, 0, permR (2 * segBytes), cm 0x3B [0, 0, 0, 0],
      ringadmits_of _ _ _ _ (by decide +kernel), by decide +kernel, by decide +kernel, by decide +kernel, hf, by decide +kernel, rfl,
      by decide, by decide +kernel, by decide +kernel, hl, by decide +kernel⟩
  · exact ⟨{ rxS [(0, permR (2 * segBytes))] [] with queues := [(0, { cmds := [apartC] })] }, 0, bigF, 0, permR (2 * segBytes), apartC,
      ringadmits_of _ _ _ _ (by decide +kernel), by decide +kernel, by decide +kernel, by decide +kernel, hf, by decide +kernel, rfl,
      by decide, by decide +kernel, by decide +kernel, hl, by decide +kernel⟩

def keptR : RingCtl := { ctx := 0, gid := 1, gseq := 0, dst := 3, f := ringF 4 0 0 [] }

theorem meets_RingFramesAreTaken_answers :
    (∃ (s : State) (p : Nat) (f : Frame) (k : RingCtl), RingAdmits s p 2 f ∧ s.ringAt (fCtx f) (rGid f) (rSeq f) = none
      ∧ s.ringCtl.find? (ctlHit f) = some k)
    ∧ (∃ (s : State) (p : Nat) (f : Frame) (slot : Nat) (r : RingSlot) (x : RingTx), RingAdmits s p 2 f
      ∧ s.ringAt (fCtx f) (rGid f) (rSeq f) = some (slot, r) ∧ s.ringCtlAgrees r f = true
      ∧ s.ringStream f = some (slot, x) ∧ s.findRing slot = some r ∧ (∀ y ∈ r.tx, y.waiting = []) ∧ r.finals ≠ r.want
      ∧ (∃ g ∈ x.unacked, 0 ≤ i32diff (rSn f) (rSn g)))
    ∧ (∀ n ∈ [1, 3], ∃ (s : State) (p slot : Nat) (f : Frame) (r : RingSlot) (x : RingTx), RingAdmits s p 3 f
      ∧ s.ringAt (fCtx f) (rGid f) (rSeq f) = some (slot, r) ∧ s.ringCtlAgrees r f = true
      ∧ s.ringStream f = some (slot, x) ∧ s.findRing slot = some r ∧ (∃ g ∈ x.unacked, rSn g = rSn f) ∧ rCode f = n
      ∧ x.backSeq = none ∧ x.resend = none) := by
  refine ⟨⟨rxS [] [keptR], 0, ringF 2 0 0 [], keptR, ringadmits_of _ _ _ _ (by decide +kernel), by decide +kernel⟩,
    ⟨rxS [(0, permT (permR 4))] [], 0, ringF 2 0 0 [], 0, permT (permR 4), permX, ringadmits_of _ _ _ _ (by decide +kernel),
      by decide +kernel⟩, fun n h => ?_⟩
  simp only [List.mem_cons, List.not_mem_nil, or_false] at h
  rcases h with rfl | rfl
  · exact ⟨rxS [(0, permT (permR 4))] [], 0, 0, ringF 3 1 0 [], permT (permR 4), permX, ringadmits_of _ _ _ _ (by decide +kernel),
      by decide +kernel⟩
  · exact ⟨rxS [(0, permT (permR 4))] [], 0, 0, ringF 3 3 0 [], permT (permR 4), permX, ringadmits_of _ _ _ _ (by decide +kernel),
      by decide +kernel⟩

/-- A frame that finds no slot is answered RNACK NOT_READY, reason 1 (R198, R199). -/
theorem test_ring_notReady : (after (exec (.ringDataRx 0 (ringF 1 4 4 [1, 2, 3, 4])) (rxS [] []))).net.queued.map
    (fun x => (fKind x.2.2, rCode x.2.2)) = [(3, 1)] := by decide +kernel
theorem test_rack : (after (exec (.rackRx 0 (ringF 2 0 0 [])) (rxS [] [keptR]))).ringCtl = [] := by decide +kernel
theorem test_rnack : (after (exec (.rnackRx 0 (ringF 3 1 0 [])) (rxS [(0, permT (permR 4))] []))).rings.map
    (fun p => p.2.notrdy) = [[3]] := by decide +kernel

theorem meets_CollectivesEnd_reports :
    (∀ n ∈ [0, 2], ∃ (s : State) (p : Nat) (f : Frame) (ms : List Nat), RingAdmits s p 4 f ∧ s.leads? (fCtx f) (rGid f) = true
      ∧ s.ringAt (fCtx f) (rGid f) (rSeq f) = none ∧ ringCodeOk f = true
      ∧ s.findLead (fCtx f) (rGid f) (rSeq f) (rAtt f) = none ∧ s.group (fCtx f) (rGid f) = .ok ms ∧ rCode f = n
      ∧ (∃ m ∈ ms, m ≠ fSrc f) ∧ s.aborts.length < 256)
    ∧ (∃ (s : State) (p : Nat) (f : Frame), RingAdmits s p 5 f ∧ ringCodeOk f = true
      ∧ s.ringAt (fCtx f) (rGid f) (rSeq f) = none ∧ rCode f ≠ 0 ∧ s.findLead (fCtx f) (rGid f) (rSeq f) (rAtt f) = none
      ∧ s.aborts.length < 256)
    ∧ (∃ (s : State) (p : Nat) (f : Frame) (slot : Nat) (r : RingSlot) (c : Cmd), RingAdmits s p 5 f ∧ ringCodeOk f = true
      ∧ s.ringAt (fCtx f) (rGid f) (rSeq f) = some (slot, r) ∧ s.findRing slot = some r ∧ r.attempt = rAtt f ∧ r.decided = none
      ∧ s.ringCtlAgrees r f = true ∧ rCode f = 0 ∧ s.findCmd r.q r.idx = some c ∧ c.op ≠ 0x3D)
    ∧ (∀ n ∈ [4, 5], ∃ (s : State) (p slot : Nat) (f : Frame) (r : RingSlot),
      s.ringAt (fCtx f) (rGid f) (rSeq f) = some (slot, r) ∧ rAtt f < r.attempt ∧ RingAdmits s p n f) := by
  have grp : (rxS [] []).group 0 1 = .ok [0, 3] := by
    have h : ((rxS [] []).groupOf 0 1 == ([0, 3], none)) = true := by decide +kernel
    unfold State.group
    rw [beq_iff_eq.mp h]
  refine ⟨fun n h => ?_, ⟨rxS [] [], 0, ringF 5 2 0 [], ringadmits_of _ _ _ _ (by decide +kernel), by decide +kernel⟩,
    ⟨rxS [(0, permR 4)] [], 0, ringF 5 0 0 [], 0, permR 4, cm 0x3B [0, 0, 0, 0], ringadmits_of _ _ _ _ (by decide +kernel),
      by decide +kernel⟩, fun n h => ?_⟩
  rotate_left
  · simp only [List.mem_cons, List.not_mem_nil, or_false] at h
    rcases h with rfl | rfl
    · exact ⟨rxS [(0, lateR)] [], 0, 0, ringF 4 0 0 [], lateR, by decide +kernel, by decide +kernel,
        ringadmits_of _ _ _ _ (by decide +kernel)⟩
    · exact ⟨rxS [(0, lateR)] [], 0, 0, ringF 5 0 0 [], lateR, by decide +kernel, by decide +kernel,
        ringadmits_of _ _ _ _ (by decide +kernel)⟩
  simp only [List.mem_cons, List.not_mem_nil, or_false] at h
  rcases h with rfl | rfl
  · exact ⟨rxS [] [], 0, ringF 4 0 0 [], [0, 3], ringadmits_of _ _ _ _ (by decide +kernel), by decide +kernel, by decide +kernel,
      by decide +kernel, by decide +kernel, grp, by decide +kernel⟩
  · exact ⟨rxS [] [], 0, ringF 4 2 0 [], [0, 3], ringadmits_of _ _ _ _ (by decide +kernel), by decide +kernel, by decide +kernel,
      by decide +kernel, by decide +kernel, grp, by decide +kernel⟩

def tmoS : State := (rxS [(0, { permR 4 with reported := some 0 })] []).setReg 0x1004 8

theorem meets_CollectivesEnd_timers :
    (∃ (s : State) (c gid dst : Nat) (gseq : U32), s.live = true ∧ s.refclk = true
      ∧ (∃ k ∈ s.ringCtl, k.ctx = c ∧ k.gid = gid ∧ k.gseq = gseq ∧ k.dst = dst))
    ∧ (∃ (s : State) (slot : Nat) (r : RingSlot) (l : Nat) (ms : List Nat), s.findRing slot = some r ∧ s.live = true
      ∧ s.refclk = true ∧ r.decided = none ∧ r.reported = none ∧ r.members = l :: ms ∧ l ≠ s.chip)
    ∧ (∃ (s : State) (slot : Nat) (r : RingSlot), s.findRing slot = some r ∧ s.live = true ∧ s.refclk = true
      ∧ r.reported.isSome = true ∧ r.decided = none) :=
  ⟨⟨rxS [] [keptR], 0, 1, 3, 0, by decide +kernel⟩, ⟨rxS [(0, permR 4)] [], 0, permR 4, 3, [0], by decide +kernel⟩,
    ⟨rxS [(0, { permR 4 with reported := some 0 })] [], 0, { permR 4 with reported := some 0 }, by decide +kernel⟩⟩

/-- The leader's decision does not come: the queue faults with E_TIMEOUT, and the slot is free (R194). -/
theorem test_decideTimeout : (after (exec (.decideTimeout 0) tmoS)).rf (kq 0 + 0x18) 15 8 = eTimeout
    ∧ (after (exec (.decideTimeout 0) tmoS)).rings = [] := by decide +kernel

theorem test_report : (after (exec (.reportRx 0 (ringF 4 0 0 [])) (rxS [] []))).leads.map (fun l => l.done) = [[3]] := by decide +kernel
theorem test_decide : phaseOf (exec (.decideRx 0 (ringF 5 0 0 [])) (rxS [(0, permR 4)] [])) 0 0 = some .complete := by decide +kernel

-- Tap

/-- A Tap message with its words from 0. -/
def msg (ws : List Nat) (n : Nat) : TapMsg := { hdr := (ws ++ List.replicate (16 - ws.length) 0).map (fun w => u32 w), payload := List.replicate n 0 }
/-- A version 2 tile of stream 5: row 0, one row, columns 0 to 63 in FP32. -/
def tileM : TapMsg := msg [0x50022, 0, 1, 0, 64, 4] 256
/-- The same with MTYPE 4, which is rejected. -/
def oddM : TapMsg := msg [0x50024, 0, 1, 0, 64, 4] 256
def tapX : TapRun := { q := 0, idx := 0, ctx := 0, stream := some 5, rows := [[]] }
/-- A ROUTE of 128 columns. -/
def tapC : Cmd := { cm 0x10 [] with rpb := 128 :: List.replicate 15 0 }
def tapS (stops : List Nat) (xs : List TapRun) : State :=
  { (one tapC).setReg 0x10000 0x12 with tap := { stops := stops }, tapRuns := xs
                                        regions := [{ pipe := 0, ctx := 0, job := false, q := 0, idx := 0, block := 0 }] }

theorem meets_TapTakesTiles :
    (∃ (s : State) (m : TapMsg), s.live = true ∧ s.tapUp = false ∧ m.parity = false ∧ m.som = false ∧ m.type = 1 ∧ m.bare = true
      ∧ m.stream = 0 ∧ m.ver ≠ 0)
    ∧ (∃ (s : State) (m : TapMsg), s.live = true ∧ s.tapUp = true ∧ m.bad s.tapVer = false ∧ m.type = 2
      ∧ s.tap.stops.contains m.stream = true)
    ∧ (∃ (s : State) (m : TapMsg), s.live = true ∧ s.tapUp = true ∧ m.bad s.tapVer = false ∧ m.type = 2
      ∧ s.tap.stops.contains m.stream = false ∧ s.tapVer = 2 ∧ s.consumer m.stream = none)
    ∧ (∃ (s : State) (m : TapMsg) (x : TapRun) (c : Cmd) (lo : Nat), s.live = true ∧ s.tapUp = true ∧ m.bad s.tapVer = false
      ∧ m.type = 2 ∧ s.tap.stops.contains m.stream = false ∧ s.consumer m.stream = some (x, c) ∧ x.done = false
      ∧ x.pass * s.passRows ≤ m.row0 ∧ lo = m.row0 - x.pass * s.passRows ∧ lo + m.nrows ≤ x.rows.length
      ∧ m.elem = logitFmt c.block.inFmt ∧ m.col0 + m.ncol < c.block.cols c.stage ∧ m.ncol % 64 = 0
      ∧ (∀ i, i < m.nrows → (x.rows.getD (lo + i) []).length = m.col0)
      ∧ (∀ b ∈ s.tapBlocks m x, s.placed (c.region x.ctx x.q) b = true))
    ∧ (∃ (s : State) (m : TapMsg) (x : TapRun) (c : Cmd), s.live = true ∧ s.tapUp = true
      ∧ s.tap.stops.contains m.stream = false ∧ s.consumer m.stream = some (x, c) ∧ m.bad s.tapVer = true)
    ∧ (∃ (s : State) (m : TapMsg) (x : TapRun) (c : Cmd), s.live = true ∧ s.tapUp = true
      ∧ s.tap.stops.contains m.stream = false ∧ s.consumer m.stream = some (x, c) ∧ m.bad s.tapVer = false ∧ m.type = 3
      ∧ x.done = false)
    ∧ (∃ (s : State) (m : TapMsg), s.live = true ∧ s.tapUp = true ∧ m.bad s.tapVer = false ∧ m.type = 3
      ∧ s.tap.stops.contains m.stream = true)
    ∧ (∃ (s : State) (n : Nat), s.live = true ∧ s.refclk = true ∧ s.tap.stops.contains n = true) :=
  ⟨⟨up, msg [0x21] 0, by decide +kernel⟩, ⟨tapS [5] [], tileM, by decide +kernel⟩, ⟨tapS [] [], tileM, by decide +kernel⟩,
    ⟨tapS [] [tapX], tileM, tapX, tapC, 0, by decide +kernel⟩, ⟨tapS [] [tapX], oddM, tapX, tapC, by decide +kernel⟩,
    ⟨tapS [] [tapX], msg [0x50023] 0, tapX, tapC, by decide +kernel⟩, ⟨tapS [5] [], msg [0x50023] 0, by decide +kernel⟩,
    ⟨tapS [5] [], 5, by decide +kernel⟩⟩

/-- A tile with a rejected MTYPE faults the ROUTE that consumes its stream with E_TAP_STREAM and sets PROTO (R54, R312); STOPPED
of its stream faults it too. -/
theorem test_tap_broken : (after (exec (.tapTile oddM) ((tapS [] [tapX]).setReg 0x1004 8))).rf (kq 0 + 0x18) 15 8 = eTapStream
    ∧ (after (exec (.tapTile oddM) ((tapS [] [tapX]).setReg 0x1004 8))).rbit 0x10000 5 = true
    ∧ (after (exec (.tapStopped (msg [0x50023] 0)) ((tapS [] [tapX]).setReg 0x1004 8))).rf (kq 0 + 0x18) 15 8 = eTapStream := by
  decide +kernel
theorem test_tapHello : (after (exec (.tapHello (msg [0x21] 0)) up)).reg 0x10000 = 0x12 := by decide +kernel
theorem test_tapTile : (after (exec (.tapTile tileM) (tapS [] [tapX]))).tapRuns.map (fun x => x.rows.map (fun r => r.length))
    = [[64]] := by decide +kernel
theorem test_tapStopped : (after (exec (.tapStopped (msg [0x50023] 0)) (tapS [5] []))).tap.stops = [] := by decide +kernel

-- errors

/-- SCRUB is on. -/
def scr : State := up.setReg 0x1000 0x100000

/-- The scrubber is on, and an injection of one flip has been applied to array 1. -/
def hurtS : State := { scr with err := { hurt := [(1, 1)] } }

theorem meets_ErrorUnitActs :
    (∃ (s : State) (a inst i : Nat), s.rst.low = false ∧ s.rst.arrays = true ∧ s.rbit 0x1000 20 = true
      ∧ s.visitOk a inst i = true ∧ s.err.hurt.find? (fun x => x.1 == a) = none ∧ a ≤ 3 ∧ s.rbit 0x1000 0 = false
      ∧ s.rbit 0x1014 31 = false)
    ∧ (∃ (s : State) (a inst i : Nat) (own : CodeOwner), s.rst.low = false ∧ s.rst.arrays = true ∧ own ≠ .none
      ∧ s.visitOk a inst i = true ∧ s.err.hurt.find? (fun x => x.1 == a) = none ∧ s.rbit 0x1000 20 = false)
    ∧ (∃ (s : State) (a inst i : Nat), s.rst.low = false ∧ s.rst.arrays = true ∧ s.rbit 0x1000 20 = true
      ∧ s.visitOk a inst i = true ∧ s.err.hurt.find? (fun x => x.1 == a) = none ∧ a = 7)
    ∧ (∃ (s : State) (a inst i n b : Nat), s.rst.low = false ∧ s.rst.arrays = true ∧ s.rbit 0x1000 20 = true
      ∧ s.visitOk a inst i = true ∧ s.err.hurt.find? (fun x => x.1 == a) = some (a, b) ∧ (max n b = 1 ∨ max n b = 2)
      ∧ s.rbit 0x1000 0 = false ∧ s.rbit 0x1014 31 = false)
    ∧ (∀ h ∈ [true, false], ∃ s : State, s.rbit 0x1004 0 = true ∧ s.refclk = true ∧ s.rst.low = false ∧ s.rst.iso = false
      ∧ s.halted = h)
    ∧ (∃ s : State, s.rbit 0x1004 0 = false)
    ∧ (∀ off ∈ [0x100C, 0x1010, 0x1014], ∃ (s : State) (w : U32) (priv : Bool), Reaches s off priv ∧ bitOf w.toNat 0 = true) := by
  refine ⟨⟨scr, 1, 0, 2097151, by decide +kernel⟩, ⟨up, 1, 0, 0, .context 0, by decide +kernel⟩, ⟨scr, 7, 0, 0, by decide +kernel⟩,
    ⟨hurtS, 1, 0, 5, 0, 1, by decide +kernel⟩, fun h hh => ?_, ⟨up, by decide +kernel⟩, fun off h => ?_⟩
  · rcases h with _ | _
    · exact ⟨up.setReg 0x1004 1, by decide +kernel⟩
    · exact ⟨(up.setReg 0x1004 1).setReg 0x1A000 8, by decide +kernel⟩
  have a : ∀ off ∈ [0x100C, 0x1010, 0x1014], (up.ctlUp && (true || openTo off) && (up.rst.posted || earlyReg off)) = true := by
    decide +kernel
  exact ⟨up, 1, true, reaches_of _ _ _ (a off h), by decide⟩

/-- Two flips are corrected and counted, three are uncorrectable and counted (R346, R347). -/
theorem test_scrub : (after (exec (.scrubVisit 1 0 2097151 2 .none) (scr.setReg 0x1004 8))).reg 0x1108 = 1
    ∧ (after (exec (.scrubVisit 1 0 2097151 3 .none) (scr.setReg 0x1004 8))).reg 0x110C = 1
    := by decide +kernel
/-- An injected flip is found by the next read of its array, once (R363). -/
theorem test_injected : (after (exec (.scrubVisit 1 0 5 0 .none) hurtS)).reg 0x1108 = 1
    ∧ (after (exec (.scrubVisit 1 0 5 0 .none) hurtS)).err.hurt = [] := by decide +kernel
theorem test_fatal : (after (exec .fatalTimeout (up.setReg 0x1004 1))).fatalPin = true := by decide +kernel

-- Catwalk

theorem catwalkadmits_of (s : State) (p k : Nat) (f : Frame)
    (h : (s.pierUp p && !f.hdrBad && s.cwOk f && (fKind f == k)) = true) : CatwalkAdmits s p k f := by
  simp only [Bool.and_eq_true, Bool.not_eq_true', beq_iff_eq] at h
  exact ⟨h.1.1.1, h.1.1.2, h.1.2, h.2⟩

/-- A Catwalk frame from chip 3 with the chip's key 0x99 and word 3. -/
def cwF (kind w3 : Nat) (n : Nat) : Frame :=
  { hdr := [2 + kind * 16 + 3 * 4096, 0x99, 0, w3, 0, 0, 0, 0, 0, 0, 0, 0, 0, 0, 0, 0].map (fun w => u32 w), payload := List.replicate n 9 }
def cwS : State := (fab 0).setReg 0x1A004 0x99
def fire9 : Fire := { tid := 9, src := 3, tfire := 0x500000001 }
def trig9 (n : Nat) : Trig := { dst := 3, tid := 9, tries := n, f := cwF 2 9 0 }

theorem meets_TriggersFreeze :
    (∃ (s : State) (f : Fire), s.cw.fire = some f ∧ s.up = true)
    ∧ (∃ (s : State) (p : Nat) (f : Frame), CatwalkAdmits s p 2 f ∧ s.cw.seen.contains (fSrc f, fld (f.w 3) 15 0) = true)
    ∧ (∃ (s : State) (p : Nat) (f : Frame), CatwalkAdmits s p 2 f ∧ s.cw.seen.contains (fSrc f, fld (f.w 3) 15 0) = false
      ∧ s.rbit 0x1A000 0 = false ∧ s.cw.fire = none)
    ∧ (∃ (s : State) (p : Nat) (f : Frame), CatwalkAdmits s p 2 f ∧ s.cw.seen.contains (fSrc f, fld (f.w 3) 15 0) = false
      ∧ s.rbit 0x1A000 0 = true)
    ∧ (∃ (s : State) (p : Nat) (f : Frame), CatwalkAdmits s p 3 f)
    ∧ (∀ n ∈ [7, 8], ∃ (s : State) (d tid : Nat) (x : Trig), s.cw.trigs.find? (fun y => y.dst == d && y.tid == tid) = some x
      ∧ s.live = true ∧ s.refclk = true ∧ x.tries = n)
    ∧ (∀ w ∈ [(1 : U32), 0], ∃ (s : State) (priv : Bool), Reaches s 0x1A028 priv ∧ bitOf w.toNat 0 = decide (w = 1)) := by
  have a : ∀ n ∈ [7, 8], ({ cwS with cw := { trigs := [trig9 n] } } : State).cw.trigs.find? (fun y => y.dst == 3 && y.tid == 9)
      = some (trig9 n) ∧ ({ cwS with cw := { trigs := [trig9 n] } } : State).live = true := by decide +kernel
  exact ⟨⟨{ up with cw := { fire := some fire9 } }, fire9, by decide +kernel⟩,
    ⟨{ cwS with cw := { seen := [(3, 9)] } }, 0, cwF 2 9 0, catwalkadmits_of _ _ _ _ (by decide +kernel), by decide +kernel⟩,
    ⟨cwS, 0, cwF 2 9 0, catwalkadmits_of _ _ _ _ (by decide +kernel), by decide +kernel⟩,
    ⟨cwS.setReg 0x1A000 1, 0, cwF 2 9 0, catwalkadmits_of _ _ _ _ (by decide +kernel), by decide +kernel⟩,
    ⟨cwS, 0, cwF 3 9 0, catwalkadmits_of _ _ _ _ (by decide +kernel)⟩,
    fun n h => ⟨{ cwS with cw := { trigs := [trig9 n] } }, 3, 9, trig9 n, (a n h).1, (a n h).2, rfl, rfl⟩,
    fun w h => ⟨up, true, reaches_of _ _ _ (by decide +kernel), by
      simp only [List.mem_cons, List.not_mem_nil, or_false] at h
      rcases h with rfl | rfl <;> decide⟩⟩

/-- A trigger fires: FROZEN, and the id and source of the trigger (R369). -/
theorem test_fire : (after (exec .triggerFire { up with cw := { fire := some fire9 } })).rbit 0x1A000 0 = true
    ∧ (after (exec .triggerFire { up with cw := { fire := some fire9 } })).reg 0x1A01C = 9 + 3 * 2 ^ 16 := by decide +kernel
theorem test_freezeClear : (after (exec (.freezeClear 1 true) (up.setReg 0x1A000 1))).rbit 0x1A000 0 = false := by decide +kernel
theorem test_tack : (after (exec (.tackRx 0 (cwF 3 9 0)) { cwS with cw := { trigs := [trig9 0] } })).cw.trigs = [] := by decide +kernel
theorem test_trig_again : (after (exec (.trigRx 0 (cwF 2 9 0)) { cwS with cw := { seen := [(3, 9)] } })).net.queued.map
    (fun x => fKind x.2.2) = [3] := by decide +kernel
theorem test_noack : (after (exec (.trigResend 3 9) { cwS with cw := { trigs := [trig9 8] } })).rbit 0x1A01C 29 = true := by decide +kernel

/-- A collector with a ring of 2^17 records at 0x100000; a Deck of one slot at 0x200000 with its slot handed over. -/
def colS : State := { (cwS.setReg 0x1A040 0x119).setReg 0x1A048 0x100000 with lat := [(0x1A048, 0x100000)] }
def lossS : State := { colS with cw := { loss := some (5, 0, 3, 0) } }
def deckS : State := { ((up.setReg 0x90000 0x200000).setReg 0x90008 1).setReg 0x1A064 0x200000 with
  lat := [(0x1A064, 0x200000)], mem := memOf [(0x200000, [3])] }

theorem meets_TraceAndDump :
    (∃ (s : State) (p : Nat) (f : Frame), CatwalkAdmits s p 1 f ∧ s.rbit 0x1A040 0 = true ∧ s.cw.stopped = false
      ∧ fld (f.w 3) 15 0 = 1 ∧ f.payBad = false ∧ f.payload.length = 32 ∧ s.cw.local_ < 960
      ∧ s.cw.loss = none)
    ∧ (∃ (s : State) (p : Nat) (f : Frame) (k chip : Nat) (t0 : U64), CatwalkAdmits s p 1 f ∧ s.rbit 0x1A040 0 = true ∧ s.cw.stopped = false
      ∧ fld (f.w 3) 15 0 = 1 ∧ f.payBad = false ∧ f.payload.length = 32 ∧ s.cw.local_ < 959
      ∧ s.cw.loss = some (k, t0, 3, chip) ∧ s.cw.post = none ∧ 1 ≤ s.rf 0x1A040 8 4)
    ∧ (∃ (s : State) (p : Nat) (f : Frame), CatwalkAdmits s p 1 f ∧ s.rbit 0x1A040 0 = true ∧ s.cw.stopped = false
      ∧ 960 ≤ s.cw.local_ ∧ 1 ≤ fld (f.w 3) 15 0)
    ∧ (∃ (s : State) (p : Nat) (f : Frame), CatwalkAdmits s p 1 f ∧ (s.rbit 0x1A040 0 = false ∨ s.cw.stopped = true))
    ∧ (∃ s : State, s.refclk = true)
    ∧ (∃ (s : State) (w : U32) (priv : Bool), Reaches s 0x1A040 priv ∧ s.rbit 0x1A040 0 = false ∧ bitOf w.toNat 0 = true
      ∧ fld w.toNat 8 4 = 17 ∧ s.reg 0x1A044 = 2 ^ 17 - 1)
    ∧ (∃ (s : State) (w : U32) (priv : Bool), Reaches s 0x1A040 priv ∧ s.rbit 0x1A040 0 = false ∧ bitOf w.toNat 0 = true
      ∧ fld w.toNat 8 4 = 28)
    ∧ (∃ (s : State) (w : U32) (priv : Bool), Reaches s 0x1A040 priv ∧ bitOf w.toNat 0 = false)
    ∧ (∃ (s : State) (w : U32) (priv : Bool), Reaches s 0x1A060 priv ∧ bitOf w.toNat 0 = true ∧ s.cw.dumping = false
      ∧ s.dumpOk = true)
    ∧ (∃ (s : State) (w : U32) (priv : Bool), Reaches s 0x1A060 priv ∧ bitOf w.toNat 0 = true ∧ s.cw.dumping = false
      ∧ s.dumpOk = false)
    ∧ (∃ s : State, s.cw.dumping = true ∧ s.up = true ∧ s.lpair 0x1A064 + dumpBytes ≤ 2 ^ 48
      ∧ (∀ e ∈ s.err.fifo, e.length = 8)) :=
  ⟨⟨colS, 0, cwF 1 1 32, catwalkadmits_of _ _ _ _ (by decide +kernel), by decide +kernel⟩,
    ⟨lossS, 0, cwF 1 1 32, 5, 0, 0, catwalkadmits_of _ _ _ _ (by decide +kernel), by decide +kernel⟩,
    ⟨{ colS with cw := { local_ := 960 } }, 0, cwF 1 1 32, catwalkadmits_of _ _ _ _ (by decide +kernel), by decide +kernel⟩,
    ⟨cwS.setReg 0x1A040 8, 0, cwF 1 1 32, catwalkadmits_of _ _ _ _ (by decide +kernel), by decide +kernel⟩, ⟨up, rfl⟩,
    ⟨up.setReg 0x1A044 (2 ^ 17 - 1), 0x111, true, reaches_of _ _ _ (by decide +kernel), by decide +kernel⟩,
    ⟨up, 0x1C1, true, reaches_of _ _ _ (by decide +kernel), by decide +kernel⟩,
    ⟨up, 0x110, true, reaches_of _ _ _ (by decide +kernel), by decide +kernel⟩,
    ⟨deckS, 1, true, reaches_of _ _ _ (by decide +kernel), by decide +kernel⟩,
    ⟨up, 1, true, reaches_of _ _ _ (by decide +kernel), by decide +kernel⟩,
    ⟨{ deckS with cw := { dumping := true } }, by decide +kernel⟩⟩

theorem test_trace : (after (exec (.traceRx 0 (cwF 1 1 32)) colS)).rd8 0x10001F = 9
    ∧ (after (exec (.traceRx 0 (cwF 1 1 32)) colS)).reg 0x1A050 = 1 := by decide +kernel
/-- A LOSS record that is pending goes first (R376). -/
theorem test_trace_loss : (after (exec (.traceRx 0 (cwF 1 1 32)) lossS)).rd8 0x100000 = 0x0C
    ∧ (after (exec (.traceRx 0 (cwF 1 1 32)) lossS)).rd8 0x10003F = 9 := by decide +kernel
theorem test_traceEnable : (after (exec (.traceEnable 0x101 true) up)).rbit 0x1A000 4 = true
    ∧ (after (exec (.traceEnable 0x111 true) up)).rbit 0x1A040 0 = true := by decide +kernel
theorem test_dump_refused : (after (exec (.dump 1 true) up)).rbit 0x1A060 3 = true := by decide +kernel

end Sys2Proof.Tests
end
end

section
/-! PROOFS. The register file: a word and its fields after a write; and the request that reaches a register (R305 to R307,
R337). -/
namespace Sys2Proof.Machine

-- fields of a word

theorem testBit_fld (v hi lo i : Nat) : (fld v hi lo).testBit i = (decide (i < hi + 1 - lo) && v.testBit (i + lo)) := by
  rw [fld, Nat.testBit_mod_two_pow, Nat.testBit_div_two_pow]

/-- putFld splits a word into the bits above a field, those of the field, which it replaces, and those below. -/
theorem putFld_eq (v hi lo x : Nat) (h : lo ≤ hi) :
    putFld v hi lo x = 2 ^ lo * (2 ^ (hi + 1 - lo) * (v / 2 ^ (hi + 1)) + x % 2 ^ (hi + 1 - lo)) + v % 2 ^ lo := by
  have e : 2 ^ lo * (2 ^ (hi + 1 - lo) * (v / 2 ^ (hi + 1)) + fld v hi lo) + v % 2 ^ lo = v := by
    rw [show v / 2 ^ (hi + 1) = v / 2 ^ lo / 2 ^ (hi + 1 - lo) by
      rw [Nat.div_div_eq_div_mul, ← Nat.pow_add, Nat.add_sub_of_le (by omega)]]
    rw [fld, Nat.div_add_mod, Nat.div_add_mod]
  rw [Nat.mul_add] at e ⊢
  rw [putFld, Nat.mul_comm (fld v hi lo), Nat.mul_comm (x % _)]
  omega

theorem testBit_putFld (v hi lo x i : Nat) (h : lo ≤ hi) :
    (putFld v hi lo x).testBit i = if lo ≤ i ∧ i ≤ hi then x.testBit (i - lo) else v.testBit i := by
  rw [putFld_eq v hi lo x h, Nat.testBit_two_pow_mul_add _ (Nat.mod_lt _ (Nat.two_pow_pos _)),
    Nat.testBit_two_pow_mul_add _ (Nat.mod_lt _ (Nat.two_pow_pos _)), Nat.testBit_mod_two_pow, Nat.testBit_mod_two_pow,
    Nat.testBit_div_two_pow]
  by_cases h1 : i < lo
  · rw [if_pos h1, if_neg (by omega), decide_eq_true h1, Bool.true_and]
  · rw [if_neg h1]
    by_cases h2 : i ≤ hi
    · rw [if_pos (by omega), if_pos (by omega), decide_eq_true (by omega), Bool.true_and]
    · rw [if_neg (by omega), if_neg (by omega)]
      congr 1; omega

/-- A field reads back as it was put. -/
theorem fld_putFld (v hi lo x : Nat) (h : lo ≤ hi) : fld (putFld v hi lo x) hi lo = x % 2 ^ (hi + 1 - lo) := by
  refine Nat.eq_of_testBit_eq fun i => ?_
  rw [testBit_fld, testBit_putFld v hi lo x _ h, Nat.testBit_mod_two_pow]
  by_cases hi' : i < hi + 1 - lo
  · rw [if_pos (by omega), Nat.add_sub_cancel]
  · simp [hi']

/-- Putting a field leaves every other field of the word. -/
theorem fld_putFld_of_disjoint (v hi lo x hi' lo' : Nat) (h : lo ≤ hi) (hd : hi < lo' ∨ hi' < lo) :
    fld (putFld v hi lo x) hi' lo' = fld v hi' lo' := by
  refine Nat.eq_of_testBit_eq fun i => ?_
  rw [testBit_fld, testBit_fld, testBit_putFld v hi lo x _ h]
  by_cases hi' : i < hi' + 1 - lo'
  · rw [if_neg (by omega)]
  · simp [hi']

theorem putFld_lt (v hi lo x n : Nat) (h : lo ≤ hi) (hn : hi < n) (hv : v < 2 ^ n) : putFld v hi lo x < 2 ^ n := by
  refine Nat.lt_pow_two_of_testBit _ fun i hi' => ?_
  rw [testBit_putFld v hi lo x i h, if_neg (by omega)]
  exact Nat.testBit_lt_two_pow (Nat.lt_of_lt_of_le hv (Nat.pow_le_pow_right (by decide) hi'))

-- words of the register file

theorem State.reg_lt (s : State) (a : Nat) : s.reg a < 2 ^ 32 := (FMap.get 0 s.regs a).isLt

theorem State.reg_of_regs {s t : State} (h : t.regs = s.regs) (a : Nat) : t.reg a = s.reg a := by simp only [State.reg, h]

/-- A register word reads as it was last written, modulo 2^32; every other word is as before. -/
@[simp] theorem State.reg_setReg (s : State) (a v b : Nat) :
    (s.setReg a v).reg b = if b = a then v % 2 ^ 32 else s.reg b := by
  simp only [State.reg, State.setReg, FMap.get_set]
  split
  · rw [BitVec.toNat_ofNat]
  · rfl

theorem State.reg_setReg_of_lt (s : State) (a v : Nat) (h : v < 2 ^ 32) : (s.setReg a v).reg a = v := by
  rw [State.reg_setReg, if_pos rfl, Nat.mod_eq_of_lt h]

theorem State.reg_setReg_of_ne (s : State) (a v b : Nat) (h : b ≠ a) : (s.setReg a v).reg b = s.reg b := by
  rw [State.reg_setReg, if_neg h]

theorem State.rf_setReg_of_ne (s : State) (a v b hi lo : Nat) (h : b ≠ a) : (s.setReg a v).rf b hi lo = s.rf b hi lo := by
  rw [State.rf, State.reg_setReg_of_ne s a v b h, State.rf]

theorem State.reg_setRf (s : State) (a hi lo x : Nat) (h : lo ≤ hi) (h' : hi < 32) :
    (s.setRf a hi lo x).reg a = putFld (s.reg a) hi lo x :=
  s.reg_setReg_of_lt a _ (putFld_lt _ hi lo x 32 h h' (s.reg_lt a))

theorem State.reg_setRf_of_ne (s : State) (a hi lo x b : Nat) (h : b ≠ a) : (s.setRf a hi lo x).reg b = s.reg b :=
  s.reg_setReg_of_ne a _ b h

/-- A field of a register reads as it was last written. -/
theorem State.rf_setRf (s : State) (a hi lo x : Nat) (h : lo ≤ hi) (h' : hi < 32) :
    (s.setRf a hi lo x).rf a hi lo = x % 2 ^ (hi + 1 - lo) := by
  rw [State.rf, State.reg_setRf s a hi lo x h h', fld_putFld _ hi lo x h]

/-- A field that is written leaves the other fields of its register. -/
theorem State.rf_setRf_of_disjoint (s : State) (a hi lo x hi' lo' : Nat) (h : lo ≤ hi) (h' : hi < 32) (hd : hi < lo' ∨ hi' < lo) :
    (s.setRf a hi lo x).rf a hi' lo' = s.rf a hi' lo' := by
  rw [State.rf, State.reg_setRf s a hi lo x h h', fld_putFld_of_disjoint _ hi lo x hi' lo' h hd, State.rf]

theorem State.rf_setRf_of_ne (s : State) (a hi lo x b hi' lo' : Nat) (h : b ≠ a) :
    (s.setRf a hi lo x).rf b hi' lo' = s.rf b hi' lo' := s.rf_setReg_of_ne a _ b hi' lo' h

@[simp] theorem State.boot_setRf (s : State) (a hi lo x : Nat) : (s.setRf a hi lo x).boot = s.boot := rfl
@[simp] theorem State.mem_setRf (s : State) (a hi lo x : Nat) : (s.setRf a hi lo x).mem = s.mem := rfl
@[simp] theorem State.rst_setRf (s : State) (a hi lo x : Nat) : (s.setRf a hi lo x).rst = s.rst := rfl

-- requests on the control port

theorem State.asked_injected (s : State) : Injected s s.asked :=
  (State.arrayWrite_injected { s with ctl := {}, evNew := [] } 0xB).1

theorem State.asked_frame (s : State) :
    s.asked = { s with ctl := {}, evNew := [], regs := s.asked.regs, err := s.asked.err } :=
  (State.arrayWrite_injected { s with ctl := {}, evNew := [] } 0xB).2

@[simp] theorem State.asked_part (s : State) : s.asked.part = s.part := by rw [State.asked_frame]
@[simp] theorem State.asked_mem (s : State) : s.asked.mem = s.mem := by rw [State.asked_frame]
@[simp] theorem State.asked_boot (s : State) : s.asked.boot = s.boot := by rw [State.asked_frame]
/-- Taking a request changes no register but KERR_INJECT. -/
theorem State.asked_reg (s : State) (a : Nat) (h : a ≠ 0x1014) : s.asked.reg a = s.reg a := s.asked_injected.1 a h

theorem State.asked_rf (s : State) (a hi lo : Nat) (h : a ≠ 0x1014) : s.asked.rf a hi lo = s.rf a hi lo := by
  rw [State.rf, s.asked_reg a h, State.rf]

/-- The two refusals of a request do not arise where it reaches its register. -/
theorem Reaches.not_refused {s : State} {off : Nat} {priv : Bool} (h : Reaches s off priv) :
    (!priv && !openTo off) = false ∧ (!s.rst.posted && !earlyReg off) = false := by
  obtain ⟨_, hm, hr⟩ := h
  constructor
  · rcases hm with hm | hm <;> simp [hm]
  · rcases hr with hr | hr <;> simp [hr]

/-- A write that reaches its register is carried out on the state that has taken the request. -/
theorem Reaches.ctlWrite {s : State} {off : Nat} {priv : Bool} (h : Reaches s off priv) (f : State → State) :
    s.ctlWrite off priv f = f s.asked := by
  obtain ⟨hm, hr⟩ := h.not_refused
  simp only [State.ctlWrite, h.up, hm, hr, Bool.not_true, Bool.false_eq_true, if_false]
  rfl

/-- The state that has taken a read request and answers it with the word at an offset. -/
def State.answered (s : State) (off : Nat) : State :=
  { s.asked with ctl := { rdata := u32 (s.asked.view off) }
                 casPend := s.asked.casPend.filter (fun c => win c + 0xA08 != off) }

/-- A read that reaches its register answers the word there, and has its effect. -/
theorem Reaches.ctlRead {s : State} {off : Nat} {priv : Bool} (h : Reaches s off priv) (h4 : off % 4 = 0) (f : State → State) :
    s.ctlRead off priv f = f (s.answered off) := by
  obtain ⟨hm, hr⟩ := h.not_refused
  simp only [State.ctlRead, h.up, h4, hm, hr, Bool.not_true, Bool.false_eq_true, ne_eq, not_true, or_self, if_false]
  rfl

@[simp] theorem State.answered_mem (s : State) (off : Nat) : (s.answered off).mem = s.mem := s.asked_mem

end Sys2Proof.Machine
end

section
/-! PROOFS. Register access by code: what a write by access codes stores, and what a read of an RC register does. -/
namespace Sys2Proof.Machine

-- access codes

/-- A register whose bits are all RW takes the word that is written. -/
theorem RegDef.write_rw (d : RegDef) (old : Nat) (w : U32) (h : d.rw = 0xFFFFFFFF ∧ d.w1c = 0 ∧ d.rw1s = 0) :
    d.write old w.toNat = w.toNat := by
  obtain ⟨hr, hc, hs⟩ := h
  have hw : w.toNat &&& 0xFFFFFFFF = w.toNat := Nat.and_two_pow_sub_one_of_lt_two_pow w.isLt
  have h0 : BitVec.ofNat 32 old &&& ~~~0xFFFFFFFF#32 = 0#32 := by simp
  simp [RegDef.write, hr, hc, hs, hw]

/-- A read-only register keeps its word. -/
theorem RegDef.write_ro (d : RegDef) (old w : Nat) (h : d.rw = 0 ∧ d.w1c = 0 ∧ d.rw1s = 0) (ho : old < 2 ^ 32) :
    d.write old w = old := by
  obtain ⟨hr, hc, hs⟩ := h
  simp only [RegDef.write, hr, hc, hs, Nat.and_zero, Nat.or_zero, BitVec.not_zero, BitVec.and_allOnes, BitVec.toNat_ofNat,
    Nat.mod_eq_of_lt ho]

/-- A register of W1C bits alone loses those that are written as 1. -/
theorem RegDef.write_w1c (d : RegDef) (old : Nat) (w : U32) (h : d.rw = 0 ∧ d.rw1s = 0) :
    u32 (d.write old w.toNat) = u32 old &&& ~~~(w &&& u32 d.w1c) := by
  obtain ⟨hr, hs⟩ := h
  simp only [RegDef.write, hr, hs, Nat.and_zero, Nat.or_zero, BitVec.not_zero, BitVec.and_allOnes, BitVec.ofNat_and,
    BitVec.ofNat_toNat, BitVec.setWidth_eq]

theorem State.writePlain_of_findReg (s : State) (off w : Nat) (d : RegDef) (h : findReg s.part off = some d) :
    s.writePlain off w = s.setReg off (d.write (s.reg off) w) := by
  rw [State.writePlain, h]

-- which register an offset names

theorem windowOf_eq_none (off : Nat) (h : off < 0xBC000) : windowOf off = none := by
  rw [windowOf, if_neg (by omega), if_neg (by omega)]

theorem win_of_lt (c : Nat) (h : c < 16) : win c = 0xC0000 + 0x4000 * c := if_neg (by omega)

theorem windowOf_win (c r : Nat) (hc : c < 16) (hr : r < 0x4000) : windowOf (win c + r) = some (c, r) := by
  have e : 0xC0000 + 0x4000 * c + r - 0xC0000 = 0x4000 * c + r := by omega
  rw [win_of_lt c hc, windowOf, if_pos (by omega), e, Nat.mul_add_div (by decide), Nat.div_eq_of_lt hr, Nat.mul_add_mod,
    Nat.mod_eq_of_lt hr, Nat.add_zero]

theorem findReg_block (p : Part) (off : Nat) (h : off < 0xBC000) (hp : absentPier p off = false) :
    findReg p off = blockRegs.find? (fun d => d.hit off) := by
  rw [findReg, windowOf_eq_none off h]
  simp only [hp, Bool.false_eq_true, if_false]

theorem findReg_window (p : Part) (c r : Nat) (hc : c < 16) (hr : r < 0x4000) :
    findReg p (win c + r) = windowRegs.find? (fun d => d.hit r) := by
  rw [findReg, windowOf_win c r hc hr]
  simp only [show ¬c = 16 by omega, false_and, if_false]

theorem absentPier_eq_false (p : Part) (off : Nat) (h : off < 0x40000 ∨ 0x40100 ≤ off) : absentPier p off = false := by
  rcases h with h | h
  · simp [absentPier, show ¬0x40000 ≤ off by omega]
  · simp [absentPier, show ¬off < 0x40100 by omega]

/-- KACCT_COEF of the classes 0 to 7. -/
theorem find_acctCoef : ∀ i < 8, blockRegs.find? (fun d => d.hit (0xB0800 + 4 * i))
    = some ⟨0xB0800, 4, 16, 0xFFFFFFFF, 0, 0, false, 0xFFFFFFFF, 0xFFFFFFFF, 0, 0, 0⟩ := by decide +kernel
theorem find_pierVcw : ∀ p < 4, blockRegs.find? (fun d => d.hit (0x40000 + 0x40 * p))
    = some ⟨0x40000, 0x40, 4, 0xFFFFFFFF, 0, 0, false, 0, 0xFFFFFFFF, 0x221C688F, 0x221C688F, 0⟩ := by decide +kernel
theorem find_mapEpoch : ∀ i < 256, blockRegs.find? (fun d => d.hit (0x31000 + 8 * i))
    = some ⟨0x31000, 8, 256, 0, 0, 0, false, 0, 0, 0, 0, 0⟩ := by decide +kernel
theorem find_trWr : blockRegs.find? (fun d => d.hit 0x1A050)
    = some ⟨0x1A050, 0, 1, 0, 0, 0, false, 0xFFFFFFFF, 0xFFFFFFFF, 0, 0, 0⟩ := by decide +kernel
theorem find_cwySticky : windowRegs.find? (fun d => d.hit 0x600) = some ⟨0x600, 0, 1, 0, 0xF, 0, false, 0, 0, 0, 0, 0⟩ := by
  decide +kernel

/-- The RC registers of the block window (R9): KERR_LOST, KPACE_SLIP, KERR_CORR and KERR_UNC, KCAS_FALLBACK and KCAS_EMPTY,
and KEVQ_LOST. -/
def RcWord (off : Nat) : Prop :=
  off = 0x1008 ∨ off = 0x1000C ∨ (∃ i, i < 24 ∧ off = 0x1100 + 4 * i) ∨ (∃ p, p < 8 ∧ (off = kcas p + 0x20 ∨ off = kcas p + 0x24))
    ∨ (∃ e, e ≤ 16 ∧ off = kevq e + 0x14)

/-- Does the map name an RC register at an offset? -/
def rcAt (off : Nat) : Bool := (blockRegs.find? (fun d => d.hit off)).any (fun d => d.rc)

theorem RcWord.rcAt {off : Nat} (h : RcWord off) : rcAt off = true := by
  have kerr : ∀ i < 24, Machine.rcAt (0x1100 + 4 * i) = true := by decide +kernel
  have cas : ∀ p < 8, Machine.rcAt (kcas p + 0x20) = true ∧ Machine.rcAt (kcas p + 0x24) = true := by decide +kernel
  have evq : ∀ e < 17, Machine.rcAt (kevq e + 0x14) = true := by decide +kernel
  rcases h with rfl | rfl | ⟨i, hi, rfl⟩ | ⟨p, hp, rfl | rfl⟩ | ⟨e, he, rfl⟩
  · decide +kernel
  · decide +kernel
  · exact kerr i hi
  · exact (cas p hp).1
  · exact (cas p hp).2
  · exact evq e (by omega)

/-- Where the RC registers lie: at aligned offsets, apart from the words that the device computes when they are read. -/
theorem RcWord.range {off : Nat} (h : RcWord off) :
    off % 4 = 0 ∧ (off = 0x1008 ∨ off = 0x1000C ∨ 0x1100 ≤ off ∧ off < 0x1160 ∨ 0x90114 ≤ off ∧ off < 0xA0200) := by
  rcases h with rfl | rfl | ⟨i, hi, rfl⟩ | ⟨p, hp, rfl | rfl⟩ | ⟨e, he, rfl⟩
  · decide
  · decide
  · omega
  · rw [kcas]; omega
  · rw [kcas]; omega
  · rw [kevq]; omega

theorem RcWord.rcOff {off : Nat} (h : RcWord off) (s : State) : s.rcOff off = some off := by
  obtain ⟨_, hr⟩ := h.range
  obtain ⟨d, hd, hrc⟩ := (Option.any_eq_true _ _).1 h.rcAt
  rw [State.rcOff, windowOf_eq_none off (by omega)]
  simp only [findReg_block s.part off (by omega) (absentPier_eq_false s.part off (by omega)), hd, Option.bind_some, hrc, if_true]

theorem RcWord.view {off : Nat} (h : RcWord off) (s : State) : s.view off = s.reg off := by
  obtain ⟨_, hr⟩ := h.range
  rw [State.view, windowOf_eq_none off (by omega)]
  simp only [State.blockView, absentPier_eq_false s.part off (by omega), Bool.false_eq_true, if_false]
  iterate 14 rw [if_neg (by omega)]

/-- A read of an RC register that reaches it answers the word and leaves it 0. -/
theorem exec_readClear {s : State} {off : Nat} {priv : Bool} (h : Reaches s off priv) (hc : RcWord off) :
    exec (.readClear off priv) s = .next ((s.answered off).setReg off 0) := by
  obtain ⟨h4, _⟩ := hc.range
  change Host.Outcome.next (s.ctlRead off priv _) = _
  rw [h.ctlRead h4]
  simp only [hc.rcOff]

/-- The word that answers a read of an RC register. -/
theorem State.answered_rdata {off : Nat} (s : State) (hc : RcWord off) : (s.answered off).ctl.rdata.toNat = s.reg off := by
  obtain ⟨_, hr⟩ := hc.range
  change (u32 (s.asked.view off)).toNat = _
  rw [hc.view, s.asked_reg off (by omega), BitVec.toNat_ofNat, Nat.mod_eq_of_lt (s.reg_lt off)]

-- register writes

theorem exec_registerWrite {s : State} {off : Nat} {w : U32} {priv : Bool} (h : Reaches s off priv) (h4 : off % 4 = 0) :
    exec (.registerWrite off w priv) s = .next (s.asked.writeReg off w.toNat) := by
  change Host.Outcome.next (if off % 4 = 0 then s.ctlWrite off priv _ else s) = _
  rw [if_pos h4, h.ctlWrite]

/-- A write in the parts of the block window shown, KCW_TR_WR, KMAP_EPOCH to KPIER and KACCT_COEF 0 to 7, goes by the access
codes alone. -/
theorem State.writeReg_block (s : State) (off w : Nat)
    (h : off = 0x1A050 ∨ 0x31000 ≤ off ∧ off < 0x50000 ∨ 0xB0800 ≤ off ∧ off < 0xB0820) :
    s.writeReg off w = s.writePlain off w := by
  rw [State.writeReg, windowOf_eq_none off (by omega)]
  simp only [State.writeBlock]
  iterate 25 rw [if_neg (by omega)]

theorem State.writeReg_cwySticky (s : State) (c w : Nat) (hc : c < 16) :
    s.writeReg (win c + 0x600) w = s.writePlain (win c + 0x600) w := by
  rw [State.writeReg, windowOf_win c 0x600 hc (by decide)]
  simp only [State.writeWindow]
  iterate 16 rw [if_neg (by omega)]

theorem openTo_win (c r : Nat) (hc : c < 16) (hr : r < 0x4000) : openTo (win c + r) = true := by
  simp [openTo, windowOf_win c r hc hr, hc]

/-- A privileged request that finds the block ready reaches every register. -/
theorem reaches_privileged {s : State} (off : Nat) (hup : s.ctlUp = true) (hpost : s.rst.posted = true) : Reaches s off true :=
  ⟨hup, .inl rfl, .inl hpost⟩

/-- A write of a register whose bits are all RW, where the write goes by the access codes. -/
theorem State.writePlain_rw (s : State) (off : Nat) (w : U32) (d : RegDef) (h : findReg s.part off = some d)
    (hd : d.rw = 0xFFFFFFFF ∧ d.w1c = 0 ∧ d.rw1s = 0) : s.writePlain off w.toNat = s.setReg off w.toNat := by
  rw [s.writePlain_of_findReg off _ d h, d.write_rw _ w hd]

/-- A write of a read-only register leaves every word. -/
theorem State.reg_writePlain_ro (s : State) (off w : Nat) (d : RegDef) (h : findReg s.part off = some d)
    (hd : d.rw = 0 ∧ d.w1c = 0 ∧ d.rw1s = 0) (a : Nat) : (s.writePlain off w).reg a = s.reg a := by
  rw [s.writePlain_of_findReg off w d h, d.write_ro _ w hd (s.reg_lt off), State.reg_setReg]
  split
  · next ha => rw [ha, Nat.mod_eq_of_lt (s.reg_lt off)]
  · rfl

/-- A write of a register of W1C bits. -/
theorem State.reg_writePlain_w1c (s : State) (off : Nat) (w : U32) (d : RegDef) (h : findReg s.part off = some d)
    (hd : d.rw = 0 ∧ d.rw1s = 0) :
    u32 ((s.writePlain off w.toNat).reg off) = u32 (s.reg off) &&& ~~~(w &&& u32 d.w1c) := by
  rw [s.writePlain_of_findReg off _ d h, State.reg_setReg, if_pos rfl, ← d.write_w1c _ w hd]
  exact BitVec.eq_of_toNat_eq (by simp)

theorem exec_write_acctCoef {s : State} (i : Nat) (w : U32) (hi : i < 8) (h : Reaches s (0xB0800 + 4 * i) true) :
    exec (.registerWrite (0xB0800 + 4 * i) w true) s = .next (s.asked.setReg (0xB0800 + 4 * i) w.toNat) := by
  have hf := (findReg_block s.asked.part _ (by omega) (absentPier_eq_false _ _ (by omega))).trans (find_acctCoef i hi)
  rw [exec_registerWrite h (by omega), State.writeReg_block _ _ _ (by omega), State.writePlain_rw _ _ w _ hf ⟨rfl, rfl, rfl⟩]

theorem exec_write_pierVcw {s : State} (p : Nat) (w : U32) (hp : p < 4) (hpier : s.part.pier p = true)
    (h : Reaches s (0x40000 + 0x40 * p) true) :
    exec (.registerWrite (0x40000 + 0x40 * p) w true) s = .next (s.asked.setReg (0x40000 + 0x40 * p) w.toNat) := by
  have hpres : absentPier s.asked.part (0x40000 + 0x40 * p) = false := by simp [absentPier, hpier]
  have hf := (findReg_block s.asked.part _ (by omega) hpres).trans (find_pierVcw p hp)
  rw [exec_registerWrite h (by omega), State.writeReg_block _ _ _ (by omega), State.writePlain_rw _ _ w _ hf ⟨rfl, rfl, rfl⟩]

theorem exec_write_mapEpoch {s : State} (i : Nat) (w : U32) (hi : i < 256) (h : Reaches s (0x31000 + 8 * i) true) :
    ∃ t : State, exec (.registerWrite (0x31000 + 8 * i) w true) s = .next t ∧ ∀ a, t.reg a = s.asked.reg a := by
  have hf := (findReg_block s.asked.part _ (by omega) (absentPier_eq_false _ _ (by omega))).trans (find_mapEpoch i hi)
  rw [exec_registerWrite h (by omega), State.writeReg_block _ _ _ (by omega)]
  exact ⟨_, rfl, State.reg_writePlain_ro _ _ _ _ hf ⟨rfl, rfl, rfl⟩⟩

theorem exec_write_trWr {s : State} (w : U32) (h : Reaches s 0x1A050 true) :
    ∃ t : State, exec (.registerWrite 0x1A050 w true) s = .next t ∧ ∀ a, t.reg a = s.asked.reg a := by
  have hf := (findReg_block s.asked.part _ (by omega) (absentPier_eq_false _ _ (by omega))).trans find_trWr
  rw [exec_registerWrite h (by omega), State.writeReg_block _ _ _ (by omega)]
  exact ⟨_, rfl, State.reg_writePlain_ro _ _ _ _ hf ⟨rfl, rfl, rfl⟩⟩

theorem exec_write_cwySticky {s : State} (c : Nat) (w : U32) (priv : Bool) (hc : c < 16) (h : Reaches s (win c + 0x600) priv) :
    ∃ t : State, exec (.registerWrite (win c + 0x600) w priv) s = .next t
      ∧ u32 (t.reg (win c + 0x600)) = u32 (s.reg (win c + 0x600)) &&& ~~~(w &&& 0xF)
      ∧ (∀ a, a ≠ win c + 0x600 → t.reg a = s.asked.reg a) := by
  have hw := win_of_lt c hc
  have hf := (findReg_window s.asked.part c 0x600 hc (by decide)).trans find_cwySticky
  rw [exec_registerWrite h (by omega), State.writeReg_cwySticky _ c _ hc]
  refine ⟨_, rfl, ?_, fun a ha => ?_⟩
  · rw [State.reg_writePlain_w1c _ _ w _ hf ⟨rfl, rfl⟩, s.asked_reg _ (by omega)]
    rfl
  · rw [State.writePlain_of_findReg _ _ _ _ hf, State.reg_setReg_of_ne _ _ _ _ ha]

/-- Settles O44: a read of an RC register by its equation on the state that took the request, and a write of each register
shown by the access codes that the map gives it. -/
theorem registerCodesHold : Obligations.RegisterCodesHold := by
  refine ⟨fun s off priv h hc => ?_, fun s w priv hup hpost => ?_⟩
  · refine ⟨_, exec_readClear h hc, s.answered_rdata hc, ?_, fun a ha => ?_, s.answered_mem off⟩
    · exact State.reg_setReg_of_lt _ off 0 (by decide)
    · exact State.reg_setReg_of_ne _ off 0 a ha
  · have hpriv (off : Nat) : Reaches s off true := reaches_privileged off hup hpost
    exact ⟨fun i hi => exec_write_acctCoef i w hi (hpriv _),
      fun p hp hpier => exec_write_pierVcw p w hp hpier (hpriv _),
      fun c hc => exec_write_cwySticky c w priv hc ⟨hup, .inr (openTo_win c 0x600 hc (by decide)), .inl hpost⟩,
      fun i hi => exec_write_mapEpoch i w hi (hpriv _),
      exec_write_trWr w (hpriv _)⟩

end Sys2Proof.Machine
end

section
/-! PROOFS. The microcode boot (R339 to R341, R345) and the bring-up to ready (R2, R247, R335, R342). -/
namespace Sys2Proof.Machine

-- STATE and ERR of KBOOT_STATUS

@[simp] theorem State.boot_bootErr8 (s : State) : s.bootErr8.boot = s.boot := by
  rw [State.bootErr8]
  split
  · exact s.boot_setRf 0x200 15 8 8
  · exact Eq.refl s.boot

theorem State.state_bootErr8 (s : State) : s.bootErr8.rf 0x200 3 0 = s.rf 0x200 3 0 := by
  rw [State.bootErr8]
  split
  · exact s.rf_setRf_of_disjoint 0x200 15 8 8 3 0 (by decide) (by decide) (by decide)
  · rfl

theorem State.err_bootErr8 (s : State) :
    s.bootErr8.rf 0x200 15 8 = if s.rf 0x200 15 8 = 0 then 8 else s.rf 0x200 15 8 := by
  rw [State.bootErr8]
  split
  · exact s.rf_setRf 0x200 15 8 8 (by decide) (by decide)
  · rfl

@[simp] theorem State.boot_bootFail (s : State) (e : Nat) : (s.bootFail e).boot = s.boot := by
  rw [State.bootFail]; split <;> simp

theorem State.state_bootFail (s : State) (e : Nat) : (s.bootFail e).rf 0x200 3 0 = 7 := by
  have h7 : (s.setRf 0x200 3 0 7).rf 0x200 3 0 = 7 := s.rf_setRf 0x200 3 0 7 (by decide) (by decide)
  rw [State.bootFail]
  split
  · rw [State.rf_setRf_of_disjoint _ 0x200 15 8 e 3 0 (by decide) (by decide) (by decide), h7]
  · exact h7

/-- A failure sets ERR where no earlier one stands. -/
theorem State.err_bootFail (s : State) (e : Nat) (he : e < 256) (h : s.rf 0x200 15 8 = 0) : (s.bootFail e).rf 0x200 15 8 = e := by
  have h0 : (s.setRf 0x200 3 0 7).rf 0x200 15 8 = 0 := by
    rw [State.rf_setRf_of_disjoint _ 0x200 3 0 7 15 8 (by decide) (by decide) (by decide), h]
  rw [State.bootFail, if_pos h0, State.rf_setRf _ 0x200 15 8 e (by decide) (by decide)]
  exact Nat.mod_eq_of_lt he

-- KBOOT_CTL and KBOOT_DATA

/-- The state on which a write of KBOOT_CTL acts: the request taken, and SRC as written. -/
def State.ctlTaken (s : State) (w : Nat) : State := s.asked.setRf 0x204 4 3 (fld w 4 3)

@[simp] theorem State.boot_ctlTaken (s : State) (w : Nat) : (s.ctlTaken w).boot = s.boot := s.asked_boot

theorem State.rf_ctlTaken (s : State) (w hi lo : Nat) : (s.ctlTaken w).rf 0x200 hi lo = s.rf 0x200 hi lo := by
  rw [State.ctlTaken, State.rf_setRf_of_ne _ _ _ _ _ _ _ _ (by decide), s.asked_rf _ _ _ (by decide)]

/-- A write of KBOOT_CTL in LOADED: REJECT fails the load, else ACCEPT leads on; a GO in it sets ERR 0x08 (R345). -/
theorem State.writeBootCtl_loaded (s : State) (w : Nat) (h : s.rf 0x200 3 0 = 4) :
    s.asked.writeBootCtl w =
      let s2 := if bitOf w 2 then (s.ctlTaken w).bootFail 6
        else if bitOf w 1 then (s.ctlTaken w).setRf 0x200 3 0 5 else s.ctlTaken w
      if bitOf w 0 then s2.bootErr8 else s2 :=
  if_pos ((s.rf_ctlTaken w 3 0).trans h)

/-- A GO in WAIT with the source in device memory starts the fetch. -/
theorem State.writeBootCtl_wait (s : State) (w : Nat) (h : s.rf 0x200 3 0 = 2) (hsrc : s.boot.src = 2) (hgo : bitOf w 0 = true) :
    s.asked.writeBootCtl w = ((s.ctlTaken w).latch 0x208).setRf 0x200 3 0 3 := by
  have hst : (s.ctlTaken w).rf 0x200 3 0 = 2 := (s.rf_ctlTaken w 3 0).trans h
  rw [State.ctlTaken] at hst ⊢
  simp [State.writeBootCtl, hst, hsrc, hgo]

section
variable {s : State} {w : U32} {priv : Bool}

-- a write of KBOOT_CTL or KBOOT_DATA, where it reaches the register

theorem exec_bootGo (h : Reaches s 0x204 priv) : exec (.bootGo w priv) s = .next (s.asked.writeBootCtl w.toNat) :=
  congrArg Host.Outcome.next (h.ctlWrite (fun s => s.writeBootCtl w.toNat))

theorem exec_bootAccept (h : Reaches s 0x204 priv) : exec (.bootAccept w priv) s = .next (s.asked.writeBootCtl w.toNat) :=
  congrArg Host.Outcome.next (h.ctlWrite (fun s => s.writeBootCtl w.toNat))

theorem exec_bootReject (h : Reaches s 0x204 priv) : exec (.bootReject w priv) s = .next (s.asked.writeBootCtl w.toNat) :=
  congrArg Host.Outcome.next (h.ctlWrite (fun s => s.writeBootCtl w.toNat))

theorem exec_bootData (h : Reaches s 0x210 priv) : exec (.bootData w priv) s = .next (s.asked.writeBootData w.toNat) :=
  congrArg Host.Outcome.next (h.ctlWrite (fun s => s.writeBootData w.toNat))

theorem exec_bootAccept_loaded (h : Reaches s 0x204 priv) (hst : s.rf 0x200 3 0 = 4) (hacc : bitOf w.toNat 1 = true)
    (hrej : bitOf w.toNat 2 = false) :
    ∃ t : State, exec (.bootAccept w priv) s = .next t ∧ t.rf 0x200 3 0 = 5 ∧ t.boot = s.boot
      ∧ t.rf 0x200 15 8 = (if bitOf w.toNat 0 = true ∧ s.rf 0x200 15 8 = 0 then 8 else s.rf 0x200 15 8) := by
  have h5 : ((s.ctlTaken w.toNat).setRf 0x200 3 0 5).rf 0x200 3 0 = 5 := State.rf_setRf _ 0x200 3 0 5 (by decide) (by decide)
  have he : ((s.ctlTaken w.toNat).setRf 0x200 3 0 5).rf 0x200 15 8 = s.rf 0x200 15 8 := by
    rw [State.rf_setRf_of_disjoint _ 0x200 3 0 5 15 8 (by decide) (by decide) (by decide), State.rf_ctlTaken]
  refine ⟨_, exec_bootAccept h, ?_⟩
  rw [State.writeBootCtl_loaded s _ hst]
  simp only [hacc, hrej, Bool.false_eq_true, if_false, if_true]
  cases hgo : bitOf w.toNat 0
  · exact ⟨h5, s.boot_ctlTaken w.toNat, by simpa using he⟩
  · exact ⟨(State.state_bootErr8 _).trans h5, (State.boot_bootErr8 _).trans (s.boot_ctlTaken w.toNat),
      by simp [State.err_bootErr8, he]⟩

/-- GO alone: neither ACCEPT nor REJECT stands beside it. -/
theorem bits_of_go_alone (hw : w.toNat % 8 = 1) : bitOf w.toNat 0 = true ∧ bitOf w.toNat 1 = false ∧ bitOf w.toNat 2 = false := by
  simp only [bitOf, beq_iff_eq, beq_eq_false_iff_ne, ne_eq]
  omega

theorem exec_bootGo_loaded (h : Reaches s 0x204 priv) (hst : s.rf 0x200 3 0 = 4) (hw : w.toNat % 8 = 1) :
    ∃ t : State, exec (.bootGo w priv) s = .next t ∧ t.rf 0x200 3 0 = 4 ∧ t.boot = s.boot
      ∧ t.rf 0x200 15 8 = (if s.rf 0x200 15 8 = 0 then 8 else s.rf 0x200 15 8) := by
  obtain ⟨hgo, hacc, hrej⟩ := bits_of_go_alone hw
  refine ⟨_, exec_bootGo h, ?_⟩
  rw [State.writeBootCtl_loaded s _ hst]
  simp only [hgo, hacc, hrej, Bool.false_eq_true, if_false, if_true]
  exact ⟨by rw [State.state_bootErr8, State.rf_ctlTaken, hst], by simp, by rw [State.err_bootErr8, State.rf_ctlTaken]⟩

theorem exec_bootReject_loaded (h : Reaches s 0x204 priv) (hst : s.rf 0x200 3 0 = 4) (hrej : bitOf w.toNat 2 = true) :
    ∃ t : State, exec (.bootReject w priv) s = .next t ∧ t.rf 0x200 3 0 = 7 ∧ t.boot = s.boot
      ∧ (s.rf 0x200 15 8 = 0 → t.rf 0x200 15 8 = 6) := by
  have h7 := (s.ctlTaken w.toNat).state_bootFail 6
  have he (h0 : s.rf 0x200 15 8 = 0) : ((s.ctlTaken w.toNat).bootFail 6).rf 0x200 15 8 = 6 :=
    State.err_bootFail _ 6 (by decide) ((s.rf_ctlTaken _ 15 8).trans h0)
  refine ⟨_, exec_bootReject h, ?_⟩
  rw [State.writeBootCtl_loaded s _ hst]
  simp only [hrej, if_true]
  cases hgo : bitOf w.toNat 0
  · exact ⟨h7, by simp, he⟩
  · exact ⟨(State.state_bootErr8 _).trans h7, by simp, fun h0 => by simp [State.err_bootErr8, he h0]⟩

theorem exec_bootGo_wait (h : Reaches s 0x204 priv) (hst : s.rf 0x200 3 0 = 2) (hsrc : s.boot.src = 2) (hgo : bitOf w.toNat 0 = true) :
    ∃ t : State, exec (.bootGo w priv) s = .next t ∧ t.rf 0x200 3 0 = 3 ∧ t.boot = s.boot := by
  refine ⟨_, exec_bootGo h, ?_⟩
  rw [State.writeBootCtl_wait s _ hst hsrc hgo]
  exact ⟨State.rf_setRf _ 0x200 3 0 3 (by decide) (by decide), s.boot_ctlTaken w.toNat⟩

theorem exec_bootData_appends (h : Reaches s 0x210 priv) (hst : s.rf 0x200 3 0 = 2) (hsrc : s.boot.src = 1)
    (hmore : s.boot.dbg.length < 4 ∨ s.boot.dbg.length < imgLen s.boot.dbg) :
    ∃ t : State, exec (.bootData w priv) s = .next t ∧ t.boot.dbg = s.boot.dbg ++ natLe 4 w.toNat ∧ t.regs = s.asked.regs := by
  refine ⟨_, exec_bootData h, ?_⟩
  have hst' : s.asked.rf 0x200 3 0 = 2 := (s.asked_rf _ _ _ (by decide)).trans hst
  simp only [State.writeBootData, State.asked_boot, hst', hsrc]
  rw [if_pos ⟨trivial, trivial⟩, if_neg (by omega)]
  exact ⟨rfl, rfl⟩

end

-- the load

theorem leNat_lt (bs : List Byte) : leNat bs < 256 ^ bs.length := by
  induction bs with
  | nil => decide
  | cons b bs ih =>
    have hb := b.isLt
    rw [leNat, List.length_cons, Nat.pow_succ]
    omega

/-- A word of at most n bytes. -/
theorem leNat_take_lt (bs : List Byte) (n : Nat) : leNat (bs.take n) < 256 ^ n :=
  Nat.lt_of_lt_of_le (leNat_lt _) (Nat.pow_le_pow_right (by decide) (List.length_take_le n bs))

/-- Words stored from an offset: word i reads back, and every word outside them is as before. -/
theorem State.reg_setRegs (ws : List Nat) (s : State) (off a : Nat) :
    (s.setRegs off ws).reg a
      = if off ≤ a ∧ (a - off) % 4 = 0 ∧ (a - off) / 4 < ws.length then ws.getD ((a - off) / 4) 0 % 2 ^ 32 else s.reg a := by
  induction ws generalizing s off with
  | nil => simp [State.setRegs]
  | cons w ws ih =>
    rw [State.setRegs, ih, State.reg_setReg, List.length_cons]
    by_cases ha : a = off
    · subst ha
      rw [if_neg (by omega), if_pos rfl, if_pos (by simp)]
      simp
    · by_cases hin : off + 4 ≤ a ∧ (a - (off + 4)) % 4 = 0 ∧ (a - (off + 4)) / 4 < ws.length
      · have e : (a - off) / 4 = (a - (off + 4)) / 4 + 1 := by omega
        rw [if_pos hin, if_pos (by omega), e, List.getD_cons_succ]
      · rw [if_neg hin, if_neg ha, if_neg (by omega)]

theorem State.setRegs_frame (ws : List Nat) (s : State) (off : Nat) :
    s.setRegs off ws = { s with regs := (s.setRegs off ws).regs } := by
  induction ws generalizing s off with
  | nil => rfl
  | cons w ws ih => rw [State.setRegs, ih]; rfl

@[simp] theorem State.mem_setRegs (ws : List Nat) (s : State) (off : Nat) : (s.setRegs off ws).mem = s.mem := by
  rw [State.setRegs_frame]

theorem State.imgCheck_lt (s : State) (im : List Byte) : s.imgCheck im < 256 := by
  rw [State.imgCheck]
  dsimp only
  split
  · decide
  · split
    · decide
    · split <;> decide

/-- The state after a load that passed its checks, before STATE moves on: the image stored and its digest shown. -/
def State.imgStored (s : State) (b : List Byte) : State :=
  (({ s with boot := { s.boot with store := b, dbg := [] } } : State).arrayWrite 7).setRegs 0x220
    ((List.range 8).map (fun i => leNat (((sha256 b).drop (4 * i)).take 4)))

@[simp] theorem State.boot_imgStored (s : State) (b : List Byte) :
    (s.imgStored b).boot = { s.boot with store := b, dbg := [] } := by
  rw [State.imgStored, State.setRegs_frame, (State.arrayWrite_injected _ 7).2]

@[simp] theorem State.mem_imgStored (s : State) (b : List Byte) : (s.imgStored b).mem = s.mem := by
  rw [State.imgStored, State.mem_setRegs, State.mem_arrayWrite]

/-- KBOOT_DIG shows the digest of the stored image. -/
theorem State.reg_imgStored (s : State) (b : List Byte) (i : Nat) (hi : i < 8) :
    (s.imgStored b).reg (0x220 + 4 * i) = leNat (((sha256 b).drop (4 * i)).take 4) := by
  have hlt := leNat_take_lt ((sha256 b).drop (4 * i)) 4
  have hidx : (0x220 + 4 * i - 0x220) / 4 = i := by omega
  rw [State.imgStored, State.reg_setRegs, List.length_map, List.length_range, if_pos (by omega), hidx]
  simp only [List.getD_eq_getElem?_getD, List.getElem?_map, List.getElem?_range hi, Option.map_some, Option.getD_some]
  exact Nat.mod_eq_of_lt hlt

section
variable {s : State} {rom : List Byte}

/-- What the loader does with an image that is all here. -/
theorem exec_microcodeLoaded (hlow : s.rst.low = false) (hclk : s.refclk = true) (harr : s.rst.arrays = true)
    (hhere : s.imgHere (s.imgOf rom) = true) :
    exec (.microcodeLoaded rom) s = .next (match s.imgCheck (s.imgOf rom) with
      | 0 => (s.imgStored ((s.imgOf rom).take (imgLen (s.imgOf rom)))).setRf 0x200 3 0 4
      | e => s.bootFail e) := by
  have hgo : ¬(s.rst.low = true ∨ (!s.refclk) = true ∨ (!s.rst.arrays) = true ∨ (!s.imgHere (s.imgOf rom)) = true) := by
    simp [hlow, hclk, harr, hhere]
  exact congrArg Host.Outcome.next (if_neg hgo)

theorem exec_microcodeLoaded_passes (hlow : s.rst.low = false) (hclk : s.refclk = true) (harr : s.rst.arrays = true)
    {im : List Byte} (him : im = s.imgOf rom) (hhere : s.imgHere im = true) (hok : s.imgCheck im = 0) :
    ∃ t : State, exec (.microcodeLoaded rom) s = .next t ∧ t.boot.store = im.take (imgLen im) ∧ t.rf 0x200 3 0 = 4
      ∧ t.mem = s.mem
      ∧ (∀ i, i < 8 → t.reg (0x220 + 4 * i) = leNat (((sha256 (im.take (imgLen im))).drop (4 * i)).take 4)) := by
  subst him
  refine ⟨_, exec_microcodeLoaded hlow hclk harr hhere, ?_⟩
  rw [hok]
  refine ⟨by simp, State.rf_setRf _ 0x200 3 0 4 (by decide) (by decide), by simp, fun i hi => ?_⟩
  exact (State.reg_setRf_of_ne _ 0x200 3 0 4 _ (by omega)).trans (s.reg_imgStored _ i hi)

theorem exec_microcodeLoaded_fails (hlow : s.rst.low = false) (hclk : s.refclk = true) (harr : s.rst.arrays = true)
    {im : List Byte} (him : im = s.imgOf rom) (hhere : s.imgHere im = true) (hbad : s.imgCheck im ≠ 0) :
    ∃ t : State, exec (.microcodeLoaded rom) s = .next t ∧ t.rf 0x200 3 0 = 7 ∧ t.boot = s.boot
      ∧ (s.rf 0x200 15 8 = 0 → t.rf 0x200 15 8 = s.imgCheck im) := by
  subst him
  refine ⟨s.bootFail (s.imgCheck (s.imgOf rom)), ?_, s.state_bootFail _, s.boot_bootFail _,
    s.err_bootFail _ (s.imgCheck_lt _)⟩
  rw [exec_microcodeLoaded hlow hclk harr hhere]
  split
  · contradiction
  · rfl

end

-- release

theorem exec_resetDeassert (s : State) (h : s.rst.low = true) :
    exec .resetDeassert s = .next { s with rst := { s.rst with low := false } } :=
  congrArg Host.Outcome.next (if_pos h)

/-- STATE with which the boot begins. -/
theorem State.state_bootBegin (s : State) :
    s.bootBegin.rf 0x200 3 0 = (if s.rst.level = some .core then 5 else match s.rst.straps.boot.toNat with
      | 3 => 3
      | 0 => 1
      | _ => 2) := by
  rw [State.bootBegin]
  split
  · exact s.rf_setRf 0x200 3 0 5 (by decide) (by decide)
  · rw [State.rf_setRf _ 0x200 3 0 _ (by decide) (by decide)]
    change _ = match s.rst.straps.boot.toNat with
      | 3 => 3
      | 0 => 1
      | _ => 2
    generalize s.rst.straps.boot.toNat = b
    match b with
    | 0 | 1 | 2 | 3 | _ + 4 => rfl

@[simp] theorem State.rst_bootBegin (s : State) : s.bootBegin.rst = s.rst := by
  rw [State.bootBegin]; split <;> simp
@[simp] theorem State.mem_bootBegin (s : State) : s.bootBegin.mem = s.mem := by
  rw [State.bootBegin]; split <;> simp

section
variable {s : State}

/-- One gap of the sequencer: the next domain is released, and with the last the boot begins. -/
theorem exec_domainRelease (hlow : s.rst.low = false) (hiso : s.rst.iso = false) (hlev : s.rst.level ≠ none) (hclk : s.refclk = true)
    (hbad : s.rbit 0x100 10 = false) (hrel : s.rst.rel < 12) :
    exec .domainRelease s = .next (if s.rst.rel + 1 = 12 then ({ s with rst := { s.rst with rel := s.rst.rel + 1 } } : State).bootBegin
      else { s with rst := { s.rst with rel := s.rst.rel + 1 } }) := by
  have hrel' : ¬12 ≤ s.rst.rel := by omega
  change execDomainRelease s = _
  simp [execDomainRelease, hlow, hiso, hlev, hclk, hbad, hrel']

theorem exec_domainRelease_last (hlow : s.rst.low = false) (hiso : s.rst.iso = false) (hlev : s.rst.level ≠ none)
    (hclk : s.refclk = true) (hbad : s.rbit 0x100 10 = false) (hrel : s.rst.rel = 11) :
    ∃ t : State, exec .domainRelease s = .next t ∧ t.rst.rel = 12 ∧ t.mem = s.mem
      ∧ t.rf 0x200 3 0 = (if s.rst.level = some .core then 5 else match s.rst.straps.boot.toNat with
        | 3 => 3
        | 0 => 1
        | _ => 2) := by
  refine ⟨_, exec_domainRelease hlow hiso hlev hclk hbad (by omega), ?_⟩
  rw [if_pos (by omega)]
  refine ⟨?_, ?_, ?_⟩
  · simp [hrel]
  · simp
  · exact State.state_bootBegin _

/-- With all domains released the sequencer is done, and the arrays are written. -/
theorem exec_released (hlow : s.rst.low = false) (hlev : s.rst.level ≠ none) (hclk : s.refclk = true) (hrel : s.rst.rel = 12) :
    exec .domainRelease s = .next s
      ∧ exec .arrayInitDone s = .next { s with rst := { s.rst with arrays := true } } := by
  refine ⟨congrArg Host.Outcome.next (if_pos ?_), congrArg Host.Outcome.next (if_pos ?_)⟩
  · simp [hrel]
  · simp [hrel, hlow, hclk, Option.isSome_iff_ne_none, hlev]

end

-- ready

theorem State.chargeOut_frame (l : List (Nat × Nat × Frame × Nat)) (s : State) :
    s.chargeOut l = { s with cnt48 := (s.chargeOut l).cnt48, energyRem := (s.chargeOut l).energyRem } := by
  induction l generalizing s with
  | nil => rfl
  | cons x l ih => obtain ⟨p, vc, f, n⟩ := x; rw [State.chargeOut, ih]; rfl

/-- What the Piers send changes the frames that wait, the credit and the accounts. -/
theorem State.pump_frame (s : State) :
    s.pump = { s with net := s.pump.net, cnt48 := s.pump.cnt48, energyRem := s.pump.energyRem } := by
  rw [State.pump]
  simp only
  split
  · rfl
  · rw [State.chargeOut_frame]

theorem State.stagedTrace_frame (s : State) :
    s.stagedTrace = { s with net := s.stagedTrace.net, cnt48 := s.stagedTrace.cnt48, energyRem := s.stagedTrace.energyRem } := by
  rw [State.stagedTrace]
  split
  · rw [State.rerouted]
    simp only
    rw [State.pump_frame]
  · rfl

@[simp] theorem State.reg_stagedTrace (s : State) (a : Nat) : s.stagedTrace.reg a = s.reg a := by
  refine State.reg_of_regs ?_ a
  rw [State.stagedTrace_frame]

@[simp] theorem State.mem_stagedTrace (s : State) : s.stagedTrace.mem = s.mem := by rw [State.stagedTrace_frame]
@[simp] theorem State.queues_stagedTrace (s : State) : s.stagedTrace.queues = s.queues := by rw [State.stagedTrace_frame]
@[simp] theorem State.fu_stagedTrace (s : State) : s.stagedTrace.fu = s.fu := by rw [State.stagedTrace_frame]
@[simp] theorem State.rst_stagedTrace (s : State) : s.stagedTrace.rst = s.rst := by rw [State.stagedTrace_frame]

/-- No packet leaves on a system event queue that is not enabled. -/
theorem State.postSys_disabled (s : State) (k a b : Nat) (h : s.rbit (kevq 16 + 8) 0 = false) : s.postSys k a b = s :=
  if_pos (.inl (by simp [h]))

/-- The built-in FU image that the stored microcode carries. -/
def State.builtin (s : State) : FuBank :=
  builtinBank ((s.boot.store.drop (leNat ((s.boot.store.drop 12).take 4))).take 154624)

/-- The FU and the sequencer at ready. -/
def State.builtinLive (s : State) : State :=
  { s with fu := { bank0 := s.builtin, image := s.builtin }, rst := { s.rst with level := none, posted := true } }

theorem State.builtinLive_frame (s : State) : s.builtinLive.regs = s.regs ∧ s.builtinLive.mem = s.mem
    ∧ s.builtinLive.queues = s.queues := by
  rw [State.builtinLive]
  exact ⟨rfl, rfl, rfl⟩

/-- The state at ready, before its event: the built-in image in bank 0, KFU_EPOCH 0, bank 0 LIVE, KDPROF_HI.UCODE
from the image, and STATE READY. -/
def State.madeReady (s : State) : State :=
  (((s.builtinLive.setReg 0x80000 0).setReg 0x80004 1).setRf 0x50004 15 0 (leNat ((s.boot.store.drop 4).take 2))).setRf 0x200 4 0
    0x16

/-- Becoming ready changes no other register. -/
theorem State.reg_madeReady (s : State) (a : Nat) (h : a ≠ 0x80000 ∧ a ≠ 0x80004 ∧ a ≠ 0x50004 ∧ a ≠ 0x200) :
    s.madeReady.reg a = s.reg a := by
  obtain ⟨h1, h2, h3, h4⟩ := h
  rw [State.madeReady, State.reg_setRf_of_ne _ _ _ _ _ _ h4, State.reg_setRf_of_ne _ _ _ _ _ _ h3,
    State.reg_setReg_of_ne _ _ _ _ h2, State.reg_setReg_of_ne _ _ _ _ h1]
  exact State.reg_of_regs s.builtinLive_frame.1 a

/-- The words of the FU at ready: KFU_EPOCH 0, and bank 0 LIVE (R247). -/
theorem State.fu_madeReady (s : State) : s.madeReady.reg 0x80000 = 0 ∧ s.madeReady.reg 0x80004 = 1 := by
  constructor
  · rw [State.madeReady, State.reg_setRf_of_ne _ _ _ _ _ _ (by decide), State.reg_setRf_of_ne _ _ _ _ _ _ (by decide),
      State.reg_setReg_of_ne _ _ _ _ (by decide), State.reg_setReg_of_lt _ _ _ (by decide)]
  · rw [State.madeReady, State.reg_setRf_of_ne _ _ _ _ _ _ (by decide), State.reg_setRf_of_ne _ _ _ _ _ _ (by decide),
      State.reg_setReg_of_lt _ _ _ (by decide)]

/-- STATE is READY, and the READY bit beside it is set. -/
theorem State.status_madeReady (s : State) : s.madeReady.rf 0x200 4 0 = 0x16 := State.rf_setRf _ 0x200 4 0 0x16 (by decide) (by decide)

theorem State.state_madeReady (s : State) : s.madeReady.rf 0x200 3 0 = 6 ∧ s.madeReady.rbit 0x200 4 = true := by
  have h := s.status_madeReady
  simp only [State.rf, State.rbit, fld, bitOf, beq_iff_eq] at h ⊢
  omega

/-- The version of the microcode stands in KDPROF_HI.UCODE. -/
theorem State.version_madeReady (s : State) : s.madeReady.rf 0x50004 15 0 = leNat ((s.boot.store.drop 4).take 2) := by
  have hlt := leNat_take_lt (s.boot.store.drop 4) 2
  rw [State.madeReady, State.rf_setRf_of_ne _ _ _ _ _ _ _ _ (by decide), State.rf_setRf _ _ _ _ _ (by decide) (by decide)]
  exact Nat.mod_eq_of_lt hlt

/-- Becoming ready changes the registers, the FU and the sequencer alone. -/
theorem State.madeReady_frame (s : State) : s.madeReady.mem = s.mem ∧ s.madeReady.queues = s.queues
    ∧ s.madeReady.fu.bank0 = s.builtin ∧ s.madeReady.rst.posted = true ∧ s.madeReady.rst.level = none := by
  simp [State.madeReady, State.setRf, State.builtinLive]

/-- The block is about to post ready: accepted microcode (STATE INIT), all domains released and the arrays written, no pool to
rebuild after a core reset (R273), and no system event queue for the READY packet. -/
structure Initialised (s : State) : Prop where
  state  : s.rf 0x200 3 0 = 5
  low    : s.rst.low = false
  level  : s.rst.level ≠ none
  rel    : s.rst.rel = 12
  arrays : s.rst.arrays = true
  refclk : s.refclk = true
  pools  : s.rst.level ≠ some .core ∨ s.rbit 0x10004 1 = false
  noEvq  : s.rbit (kevq 16 + 8) 0 = false

theorem exec_postReady (s : State) (h : Initialised s) : exec .postReady s = .next s.madeReady.stagedTrace := by
  obtain ⟨hst, hlow, hlev, hrel, harr, hclk, hpool, hevq⟩ := h
  have hnot : ¬(s.rst.level = some .core ∧ s.rbit 0x10004 1 = true) := by
    rintro ⟨hc, hf⟩
    rcases hpool with hp | hp
    · exact hp hc
    · simp [hp] at hf
  have hevq' : s.madeReady.stagedTrace.rbit (kevq 16 + 8) 0 = false := by
    rw [State.rbit, State.reg_stagedTrace, s.reg_madeReady _ (by decide)]
    exact hevq
  change execPostReady s = _
  rw [execPostReady, if_neg (by simp [hst, hlow, hlev, hrel, harr, hclk])]
  simp only [if_neg hnot, State.madeReady, State.builtinLive, State.builtin] at hevq' ⊢
  rw [State.postSys_disabled _ 6 _ _ hevq']

theorem exec_postReady_ready (s : State) (h : Initialised s) :
    ∃ t : State, exec .postReady s = .next t ∧ t.rst.posted = true ∧ t.rst.level = none ∧ t.rbit 0x200 4 = true
      ∧ t.rf 0x200 3 0 = 6 ∧ t.reg 0x80000 = 0 ∧ t.reg 0x80004 = 1 ∧ t.mem = s.mem ∧ t.queues = s.queues
      ∧ t.rf 0x50004 15 0 = leNat ((s.boot.store.drop 4).take 2)
      ∧ t.fu.bank0 = builtinBank ((s.boot.store.drop (leNat ((s.boot.store.drop 12).take 4))).take 154624) := by
  obtain ⟨hstate, hrdy⟩ := s.state_madeReady
  obtain ⟨hepoch, hlive⟩ := s.fu_madeReady
  obtain ⟨hmem, hqueues, hbank, hpost, hlevel⟩ := s.madeReady_frame
  refine ⟨_, exec_postReady s h, ?_⟩
  simp only [State.rf, State.rbit, State.reg_stagedTrace, State.mem_stagedTrace, State.queues_stagedTrace, State.fu_stagedTrace,
    State.rst_stagedTrace]
  exact ⟨hpost, hlevel, hrdy, hstate, hepoch, hlive, hmem, hqueues, s.version_madeReady, hbank⟩

/-- Settles O46: the boot by the equations of KBOOT_CTL, KBOOT_DATA and the load, the bring-up by those of the sequencer and
of the post of ready. -/
theorem bootReachesReady : Obligations.BootReachesReady := by
  refine ⟨⟨fun s w priv h => ?_, fun s w priv h hst hsrc hmore => ?_, fun s rom im him hlow hclk harr hhere => ?_⟩,
    fun s h => ?_, fun s hlow hiso hlev hclk hbad => ?_, fun s hst hlow hlev hrel harr hclk hpool hevq => ?_⟩
  · exact ⟨exec_bootAccept_loaded h, exec_bootGo_loaded h, exec_bootReject_loaded h, exec_bootGo_wait h⟩
  · exact exec_bootData_appends h hst hsrc hmore
  · exact ⟨exec_microcodeLoaded_passes hlow hclk harr him hhere, exec_microcodeLoaded_fails hlow hclk harr him hhere⟩
  · exact exec_resetDeassert s h
  · refine ⟨fun hrel => ?_, fun hrel => exec_domainRelease_last hlow hiso hlev hclk hbad hrel,
      fun hrel => exec_released hlow hlev hclk hrel⟩
    rw [exec_domainRelease hlow hiso hlev hclk hbad (by omega), if_neg (by omega)]
  · exact exec_postReady_ready s ⟨hst, hlow, hlev, hrel, harr, hclk, hpool, hevq⟩

end Sys2Proof.Machine
end

section
/-! PROOFS. Words of device memory after a write (R27), and the checks of R114: a slab that passes them has the effect of its
kind. -/
namespace Sys2Proof.Machine

-- words, fields and lists

theorem frameWord_lt (f : Frame) (i : Nat) : f.w i < 2 ^ 32 := (f.hdr.getD i 0).isLt

theorem fCtx_lt (f : Frame) : fCtx f < 16 := Nat.mod_lt _ (by decide)

theorem leNat_natLe (n v : Nat) : leNat (natLe n v) = v % 256 ^ n := by
  induction n generalizing v with
  | zero => simp [natLe, leNat, Nat.mod_one]
  | succ n ih =>
    rw [natLe, leNat, ih, BitVec.toNat_ofNat, Nat.pow_succ' (n := n)]
    exact Nat.mod_mul.symm

theorem length_natLe (n v : Nat) : (natLe n v).length = n := by
  induction n generalizing v with
  | zero => rfl
  | succ n ih => rw [natLe, List.length_cons, ih]

/-- An update of the members that meet a condition, which leaves a search's key alone, updates what the search finds. -/
theorem find?_map_update {α : Type} {p : α → Bool} {l : List α} {a : α} (h : l.find? p = some a) (q : α → Prop)
    [DecidablePred q] (g : α → α) (hq : q a) (hg : ∀ a, p (g a) = p a) :
    (l.map (fun a => if q a then g a else a)).find? p = some (g a) := by
  have hp : (p ∘ fun a => if q a then g a else a) = p := by
    funext a
    simp only [Function.comp]
    split
    · exact hg a
    · rfl
  rw [List.find?_map, hp, h]
  exact congrArg some (if_pos hq)

-- memory

/-- A 32-bit word reads as it was written. -/
theorem State.rd32_wr32 (s : State) (a v : Nat) : (s.wr32 a v).rd32 a = v % 2 ^ 32 := by
  have h : (s.wr32 a v).rd a 4 = natLe 4 v := by
    refine List.ext_getElem? fun i => ?_
    rw [State.rd, List.getElem?_map]
    by_cases hi : i < 4
    · rw [List.getElem?_range hi, Option.map_some, List.getElem?_eq_getElem (by rw [length_natLe]; exact hi)]
      refine congrArg some (State.rd8_wr_in _ s a i _ (List.getElem?_eq_getElem _) fun j h1 h2 => ?_)
      rw [length_natLe] at h2
      rw [addrMod]
      omega
    · rw [List.getElem?_eq_none (by simp; omega), List.getElem?_eq_none (by rw [length_natLe]; omega)]
      rfl
  exact (congrArg leNat h).trans (leNat_natLe 4 v)

theorem State.rd8_wr32_out (s : State) (a v b : Nat) (h : ∀ k, k < 4 → (a + k) % addrMod ≠ b % addrMod) :
    (s.wr32 a v).rd8 b = s.rd8 b :=
  State.rd8_wr_out _ s a b fun k hk => h k (by rwa [length_natLe] at hk)

theorem State.wr_frame (bs : List Byte) (s : State) (a : Nat) : s.wr a bs = { s with mem := (s.wr a bs).mem } := by
  induction bs generalizing s a with
  | nil => rfl
  | cons b bs ih => rw [State.wr, ih]; rfl

@[simp] theorem State.regs_wr32 (s : State) (a v : Nat) : (s.wr32 a v).regs = s.regs := by rw [State.wr32, State.wr_frame]
@[simp] theorem State.feeds_wr32 (s : State) (a v : Nat) : (s.wr32 a v).feeds = s.feeds := by rw [State.wr32, State.wr_frame]

theorem State.rdLe_of_mem {s t : State} (h : t.mem = s.mem) (a n : Nat) : t.rdLe a n = s.rdLe a n := by
  simp only [State.rdLe, State.rd, State.rd8, h]

-- the checks of R114

theorem State.chargeIn_moved (s : State) (own : Nat) (f : Frame) : Moved s (s.chargeIn own f) :=
  (((Moved.refl s).acct own 11 f.bytes).energy own 6 (flitsFor 0 f.bytes)).arrayWrite 0xB

/-- Charging a frame changes no register but KERR_INJECT. -/
theorem State.reg_chargeIn (s : State) (own : Nat) (f : Frame) (a : Nat) (h : a ≠ 0x1014) :
    (s.chargeIn own f).reg a = s.reg a :=
  (s.chargeIn_moved own f).inj.1 a h

@[simp] theorem State.mem_chargeIn (s : State) (own : Nat) (f : Frame) : (s.chargeIn own f).mem = s.mem := by
  simp [State.chargeIn]

@[simp] theorem State.part_chargeIn (s : State) (own : Nat) (f : Frame) : (s.chargeIn own f).part = s.part := by
  rw [(s.chargeIn_moved own f).only]

@[simp] theorem State.exch_chargeIn (s : State) (own : Nat) (f : Frame) : (s.chargeIn own f).exch = s.exch := by
  rw [(s.chargeIn_moved own f).only]

@[simp] theorem State.barriers_chargeIn (s : State) (own : Nat) (f : Frame) : (s.chargeIn own f).barriers = s.barriers := by
  rw [(s.chargeIn_moved own f).only]

@[simp] theorem State.feeds_chargeIn (s : State) (own : Nat) (f : Frame) : (s.chargeIn own f).feeds = s.feeds := by
  rw [(s.chargeIn_moved own f).only]

/-- The words of a context's window are apart from KERR_INJECT. -/
theorem win_add_ne (f : Frame) (r : Nat) : win (fCtx f) + r ≠ 0x1014 := by
  have := fCtx_lt f
  rw [win_of_lt _ this]
  omega

theorem State.reg_win_chargeIn (s : State) (own : Nat) (f : Frame) (r : Nat) :
    (s.chargeIn own f).reg (win (fCtx f) + r) = s.reg (win (fCtx f) + r) :=
  s.reg_chargeIn own f _ (win_add_ne f r)

theorem State.rpair_win_chargeIn (s : State) (own : Nat) (f : Frame) (r : Nat) :
    (s.chargeIn own f).rpair (win (fCtx f) + r) = s.rpair (win (fCtx f) + r) := by
  rw [State.rpair, State.reg_win_chargeIn, Nat.add_assoc, State.reg_win_chargeIn, State.rpair, Nat.add_assoc]

theorem State.seqCheck_chargeIn (s : State) (own : Nat) (f : Frame) : (s.chargeIn own f).seqCheck f = s.seqCheck f := by
  simp only [State.seqCheck, State.rxNext, State.rxSess, State.rxAddr, State.rd32, State.rd16, State.rpair_win_chargeIn,
    State.rdLe_of_mem (s.mem_chargeIn own f)]
  rfl

theorem State.retired_chargeIn (s : State) (own : Nat) (f : Frame) (g : Nat) :
    (s.chargeIn own f).retired (fCtx f) g = s.retired (fCtx f) g := by
  rw [State.retired, State.reg_win_chargeIn, State.retired]

section
variable {s : State} {p k : Nat} {f : Frame}

theorem Admits.gate14 (h : Admits s p k f) (hk : 1 ≤ k ∧ k ≤ 10) : s.gate14 f = none := by
  obtain ⟨-, hhdr, hver, hkind, hfab, hctx, hkey, -, -⟩ := h
  have hok : kindOk f = true := by simp [kindOk, hver, hkind, hk]
  simp [State.gate14, hhdr, hok, hfab, hctx, hkey]

theorem Admits.gate5 (h : Admits s p k f) : (if answered f then (s.chargeIn (fCtx f) f).gate5 f else none) = none := by
  split
  · next ha =>
    have hk : k = 1 ∨ k = 2 ∨ k = 3 ∨ k = 5 := by simpa [answered, h.kind] using ha
    rw [State.gate5, State.seqCheck_chargeIn, h.order hk]
  · rfl

theorem Admits.gate6 (h : Admits s p k f) : (s.chargeIn (fCtx f) f).gate6 f = none := by
  refine if_pos ?_
  rw [State.retired_chargeIn, h.kind]
  rcases h.tag with hk | hk | hk | hr
  · exact .inr (.inr (.inl hk))
  · exact .inr (.inr (.inr (.inl hk)))
  · exact .inr (.inr (.inr (.inr hk)))
  · exact .inr (.inl (by simp [hr]))

/-- A slab that passes every check of R114 is charged to its context and has its effect. -/
theorem Admits.rx (h : Admits s p k f) (hk : 1 ≤ k ∧ k ≤ 10) {tgt : State → TgtRes} (eff : State → State)
    (ht : tgt (s.chargeIn (fCtx f) f) = .ok) : s.rx p k f tgt eff = eff (s.chargeIn (fCtx f) f) := by
  have hgo : ¬((!s.pierUp p) = true ∨ (kindOk f = true ∧ fKind f ≠ k)) := by simp [h.pier, h.kind]
  have hdp1 : s.dp1Seen f = s := if_neg (by simp [h.ver])
  rw [State.rx, if_neg hgo, hdp1]
  simp only [h.gate14 hk, h.gate5, h.gate6, ht, State.gate710]

end

end Sys2Proof.Machine
end

section
/-! PROOFS. What leaves the exchange slots (R120) and the barrier slots (R171) alone: slabs and answers that leave, trace records,
and a command that is complete. -/
namespace Sys2Proof.Machine

/-- t has the exchange slots and the barrier slots of s. -/
structure SlotsKept (s t : State) : Prop where
  exch     : t.exch = s.exch
  barriers : t.barriers = s.barriers

theorem SlotsKept.refl (s : State) : SlotsKept s s := ⟨rfl, rfl⟩

theorem SlotsKept.findExch {s t : State} (h : SlotsKept s t) (c gen xid : Nat) : t.findExch c gen xid = s.findExch c gen xid := by
  rw [State.findExch, h.exch, State.findExch]

theorem SlotsKept.findBar {s t : State} (h : SlotsKept s t) (c gen bid : Nat) : t.findBar c gen bid = s.findBar c gen bid := by
  rw [State.findBar, h.barriers, State.findBar]

section
variable {s t u : State}

theorem SlotsKept.moved (h : SlotsKept s t) (g : Moved t u) : SlotsKept s u := by
  rw [g.only]
  exact ⟨h.exch, h.barriers⟩

theorem SlotsKept.foldl {α : Type} {op : State → α → State}
    (hop : ∀ {t : State} (a : α), SlotsKept s t → SlotsKept s (op t a)) (l : List α) (h : SlotsKept s t) :
    SlotsKept s (l.foldl op t) := by
  induction l generalizing t with
  | nil => exact h
  | cons a l ih => exact ih (hop a h)

theorem SlotsKept.setReg (h : SlotsKept s t) (a v : Nat) : SlotsKept s (t.setReg a v) := ⟨h.exch, h.barriers⟩
theorem SlotsKept.satAdd (h : SlotsKept s t) (a n : Nat) : SlotsKept s (t.satAdd a n) := h.setReg a _
theorem SlotsKept.updCmd (h : SlotsKept s t) (q : Nat) (i : U32) (g : Cmd → Cmd) : SlotsKept s (t.updCmd q i g) :=
  ⟨h.exch, h.barriers⟩
theorem SlotsKept.updTx (h : SlotsKept s t) (c d vc : Nat) (g : TxStream → TxStream) : SlotsKept s (t.updTx c d vc g) :=
  ⟨h.exch, h.barriers⟩
theorem SlotsKept.opCount (h : SlotsKept s t) (o f n : Nat) : SlotsKept s (t.opCount o f n) :=
  h.moved ((Moved.refl t).opCount o f n)
theorem SlotsKept.readTime (h : SlotsKept s t) : SlotsKept s t.readTime.2 := h.moved (Moved.refl t).readTime

theorem SlotsKept.emit (h : SlotsKept s t) (d vc : Nat) (f : Frame) : SlotsKept s (t.emit d vc f) := by
  rw [State.emit, State.pump_frame]
  exact ⟨h.exch, h.barriers⟩

-- slabs and answers that leave

theorem SlotsKept.hello (h : SlotsKept s t) (d : Nat) : SlotsKept s (t.hello d) := by
  rw [State.hello]
  split
  · exact h
  · refine SlotsKept.emit ?_ d 0 _
    exact ⟨h.exch, h.barriers⟩

theorem SlotsKept.ackNow (h : SlotsKept s t) (f : Frame) : SlotsKept s (t.ackNow f) := (h.hello _).emit _ 0 _

theorem SlotsKept.rxAdvance (h : SlotsKept s t) (f : Frame) : SlotsKept s (t.rxAdvance f) := by
  rw [State.rxAdvance]
  split
  · exact h
  · exact h.moved ((Moved.refl t).wr _ _)

theorem SlotsKept.sentRows (h : SlotsKept s t) (f : Frame) : SlotsKept s (t.sentRows f) := by
  rw [State.sentRows]
  split
  · exact h.opCount _ _ _
  · split
    · exact h.opCount _ _ _
    · split
      · exact h.opCount _ _ _
      · exact h

theorem SlotsKept.txGo (h : SlotsKept s t) (c d vc n : Nat) : SlotsKept s (t.txGo c d vc n) := by
  induction n generalizing t with
  | zero => exact h
  | succ n ih =>
    rw [State.txGo]
    split
    · exact h
    · split
      · exact h
      · split
        · exact ih (((h.updTx c d vc _).emit d vc _).sentRows _)
        · exact h

theorem SlotsKept.txPush (h : SlotsKept s t) (c d vc q : Nat) (i : U32) (fs : List Frame) :
    SlotsKept s (t.txPush c d vc q i fs) := by
  rw [State.txPush]
  split
  · exact h
  · refine SlotsKept.txGo ?_ c d vc _
    split
    · exact (h.hello d).updTx c d vc _
    · exact ⟨(h.hello d).exch, (h.hello d).barriers⟩

-- trace records

theorem SlotsKept.tracePost (h : SlotsKept s t) : SlotsKept s t.tracePost := by
  rw [State.tracePost]
  split
  · exact ⟨h.exch, h.barriers⟩
  · exact ⟨h.exch, h.barriers⟩
  · exact h

theorem SlotsKept.traceLocal (h : SlotsKept s t) (r : List Byte) : SlotsKept s (t.traceLocal r) := by
  have hw := h.moved ((Moved.refl t).wr (t.lpair 0x1A048 + 32 * (t.reg 0x1A050 % 2 ^ t.rf 0x1A040 8 4)) r)
  rw [State.traceLocal]
  refine SlotsKept.tracePost (SlotsKept.setReg ?_ _ _)
  split
  · exact ⟨hw.exch, hw.barriers⟩
  · exact ⟨hw.exch, hw.barriers⟩

theorem SlotsKept.tracePut (h : SlotsKept s t) (r : List Byte) : SlotsKept s (t.tracePut r) := by
  rw [State.tracePut]
  split
  · refine (SlotsKept.emit ?_ _ 5 _).tracePost
    exact ⟨h.exch, h.barriers⟩
  · exact h.traceLocal r

theorem SlotsKept.traceLose (h : SlotsKept s t) (n tm cause chip : Nat) : SlotsKept s (t.traceLose n tm cause chip) := by
  refine SlotsKept.satAdd ?_ _ n
  exact ⟨h.exch, h.barriers⟩

theorem SlotsKept.traceLoss (h : SlotsKept s t) : SlotsKept s t.traceLoss := by
  rw [State.traceLoss]
  split
  · have hnone : SlotsKept s { t with cw := { t.cw with loss := none } } := ⟨h.exch, h.barriers⟩
    split
    · exact hnone.traceLocal _
    · exact hnone.tracePut _
  · exact h

theorem SlotsKept.trace (h : SlotsKept s t) (rt own q : Nat) (ws : List Nat) : SlotsKept s (t.trace rt own q ws) := by
  rw [State.trace]
  split
  · exact h
  · rw [State.traceRec]
    dsimp only
    split
    · exact h
    · split
      · exact h.readTime.traceLose _ _ _ _
      · split
        · exact h.readTime.traceLoss
        · split
          · exact h.readTime.traceLoss.traceLose _ _ _ _
          · exact h.readTime.traceLoss.tracePut _

-- a command that is complete

theorem SlotsKept.hideOutputs (h : SlotsKept s t) (q : Nat) (i : U32) : SlotsKept s (t.hideOutputs q i).2 := by
  rw [State.hideOutputs]
  split
  · exact h
  · split
    · exact h
    · split
      · exact h.moved ((Moved.refl t).scramble _)
      · exact h.updCmd q i _

theorem SlotsKept.chargeOutputs (h : SlotsKept s t) (own : Nat) (c : Cmd) (acts : List Act) :
    SlotsKept s (t.chargeOutputs own c acts) := by
  have hrows : SlotsKept s (if c.rowWrites then t
      else c.wrote.foldl (fun t x => t.chargeRows own 9 1 x.2 (t.halfAt own c x.1)) t) := by
    split
    · exact h
    · refine SlotsKept.foldl (fun x h => ?_) c.wrote h
      exact ⟨h.exch, h.barriers⟩
  exact hrows.moved ((Moved.refl _).chargeWrites own _)

theorem SlotsKept.complete (h : SlotsKept s t) (q : Nat) (i : U32) (acts : List Act) : SlotsKept s (t.complete q i acts) := by
  have hdone := (h.hideOutputs q i).updCmd q i
    (fun c => { c with phase := .complete, ran := true, acts := c.acts ++ (t.hideOutputs q i).1 ++ acts })
  rw [State.complete]
  split
  · exact hdone.chargeOutputs _ _ _
  · exact hdone

end

end Sys2Proof.Machine
end

section
/-! PROOFS. COUNT slabs (R165, R168), barrier slabs (R171, R172) and markers (R12, R114). -/
namespace Sys2Proof.Machine

/-- The state on which the effect of an accepted slab of a stream acts: the slab consumed and acknowledged. -/
def State.taken (s : State) (f : Frame) : State := ((s.chargeIn (fCtx f) f).rxAdvance f).ackNow f

theorem State.slotsKept_taken (s : State) (f : Frame) : SlotsKept s (s.taken f) :=
  (((SlotsKept.refl s).moved (s.chargeIn_moved _ f)).rxAdvance f).ackNow f

-- COUNT slabs

theorem State.findExch_key {s : State} {c gen xid : Nat} {e : Exch} (h : s.findExch c gen xid = some e) :
    e.ctx = c ∧ e.gen = gen ∧ e.xid = xid := by
  simpa [and_assoc] using List.find?_some h

theorem State.findExch_updExch {s : State} {c gen xid : Nat} {e : Exch} (h : s.findExch c gen xid = some e) (g : Exch → Exch)
    (hg : ∀ x, (g x).ctx = x.ctx ∧ (g x).gen = x.gen ∧ (g x).xid = x.xid := by exact fun _ => ⟨rfl, rfl, rfl⟩) :
    (s.updExch c gen xid g).findExch c gen xid = some (g e) :=
  find?_map_update h _ g (State.findExch_key h) fun x => by
    obtain ⟨h1, h2, h3⟩ := hg x
    simp only [h1, h2, h3]

/-- The messages of a phase, with one more: the first of each source is kept. -/
def withMsg (l : List CountMsg) (m : CountMsg) : List CountMsg := if l.any (fun x => x.src == m.src) then l else l ++ [m]

/-- A source's message is among those of its phase, and is the one received where it is the source's first. -/
theorem mem_withMsg (l : List CountMsg) (m : CountMsg) :
    ∃ x ∈ withMsg l m, x.src = m.src ∧ ((∀ y ∈ l, y.src ≠ m.src) → x = m) := by
  rw [withMsg]
  split
  · next h =>
    obtain ⟨x, hx, hs⟩ := List.any_eq_true.1 h
    have hs : x.src = m.src := by simpa using hs
    exact ⟨x, hx, hs, fun hn => absurd hs (hn x hx)⟩
  · exact ⟨m, by simp, rfl, fun _ => rfl⟩

/-- The owner's side of COUNT_XCHG keeps the messages received, and adds its own answer to those of phase 1. -/
theorem State.findExch_cxOwn {s : State} {c gen xid : Nat} {e : Exch} (h : s.findExch c gen xid = some e) :
    ∃ (e1 : Exch) (l : List CountMsg), (s.cxOwn e).findExch c gen xid = some e1 ∧ e1.ph0 = e.ph0 ∧ e1.ph1 = e.ph1 ++ l := by
  obtain ⟨rfl, rfl, rfl⟩ := State.findExch_key h
  have hsame : ∃ (e1 : Exch) (l : List CountMsg),
      s.findExch e.ctx e.gen e.xid = some e1 ∧ e1.ph0 = e.ph0 ∧ e1.ph1 = e.ph1 ++ l := ⟨e, [], h, rfl, by simp⟩
  rw [State.cxOwn]
  extract_lets ph mis slots tab ref look msg s1
  split
  · exact hsame
  · split
    · exact hsame
    · have hs1 : s1.findExch e.ctx e.gen e.xid = some _ := State.findExch_updExch h _
      refine ⟨_, (ph.filter (fun m => m.src == s.chip)).map msg, (SlotsKept.findExch ?_ _ _ _).trans hs1, rfl, rfl⟩
      exact SlotsKept.foldl (fun m h => (h.txPush _ _ _ _ _ _).trace _ _ _ _) _ (SlotsKept.refl s1)

/-- An exchange with one more message of a phase. -/
def Exch.withMsg (e : Exch) (phase : Nat) (m : CountMsg) : Exch :=
  if phase = 0 then { e with ph0 := Machine.withMsg e.ph0 m } else { e with ph1 := Machine.withMsg e.ph1 m }

theorem Exch.withMsg_key (e : Exch) (phase : Nat) (m : CountMsg) :
    (e.withMsg phase m).ctx = e.ctx ∧ (e.withMsg phase m).gen = e.gen ∧ (e.withMsg phase m).xid = e.xid := by
  rw [Exch.withMsg]
  split <;> exact ⟨rfl, rfl, rfl⟩

theorem State.cxArrive_eq (s : State) (c gen xid phase : Nat) (m : CountMsg) :
    s.cxArrive c gen xid phase m = match (s.updExch c gen xid (fun e => e.withMsg phase m)).findExch c gen xid with
      | some e => (s.updExch c gen xid (fun e => e.withMsg phase m)).cxOwn e
      | none => s.updExch c gen xid (fun e => e.withMsg phase m) := rfl

/-- A message that arrives for a bound exchange is among those of its phase. -/
theorem State.findExch_cxArrive {s : State} {c gen xid : Nat} {e : Exch} (h : s.findExch c gen xid = some e) (phase : Nat)
    (m : CountMsg) :
    ∃ e1 : Exch, (s.cxArrive c gen xid phase m).findExch c gen xid = some e1
      ∧ ∃ x ∈ (if phase = 0 then e1.ph0 else e1.ph1), x.src = m.src
        ∧ ((∀ y ∈ (if phase = 0 then e.ph0 else e.ph1), y.src ≠ m.src) → x = m) := by
  have hput := State.findExch_updExch h (fun e => e.withMsg phase m) (fun e => e.withMsg_key phase m)
  obtain ⟨e1, l, hfind, h0, h1⟩ := State.findExch_cxOwn hput
  rw [State.cxArrive_eq, hput]
  refine ⟨e1, hfind, ?_⟩
  rw [h0, h1, Exch.withMsg]
  split
  · exact mem_withMsg e.ph0 m
  · obtain ⟨x, hx, hrest⟩ := mem_withMsg e.ph1 m
    exact ⟨x, List.mem_append_left l hx, hrest⟩

theorem length_countEnts (n : Nat) (bs : List Byte) : (countEnts n bs).length = n := by simp [countEnts]

/-- Entry j of a COUNT payload (R168). -/
theorem getElem?_countEnts {n j : Nat} {bs : List Byte} {y : CountEnt} (h : (countEnts n bs)[j]? = some y) :
    y.lslot = fld (leNat ((bs.drop (16 * j)).take 4)) 11 0 ∧ y.a = leNat ((bs.drop (16 * j + 8)).take 4)
      ∧ y.b = leNat ((bs.drop (16 * j + 12)).take 4) := by
  rw [countEnts, List.getElem?_map, Option.map_eq_some_iff] at h
  obtain ⟨i, hi, rfl⟩ := h
  obtain ⟨-, rfl⟩ := List.getElem?_eq_some_iff.1 hi
  rw [List.getElem_range]
  exact ⟨rfl, rfl, rfl⟩

/-- The message of a COUNT slab. -/
def countMsg (f : Frame) : CountMsg :=
  { src := fSrc f, mis := bitOf (f.w 8) 2, epoch := u32 (f.w 9), cap := u32 (f.w 10), layer := fld (f.w 11) 7 0,
    ents := countEnts (fld (f.w 8) 28 16) f.payload }

section
variable {s : State} {p : Nat} {f : Frame}

theorem exec_countSlabRx (h : Admits s p 5 f) (hph : fPhase f ≤ 1) (ht : s.cntTarget f = .ok) :
    exec (.countSlabRx p f) s = .next ((s.taken f).cxArrive (fCtx f) (fGen f) (fXid f) (fPhase f) (countMsg f)) := by
  have htgt : (s.chargeIn (fCtx f) f).cntTarget f = .ok := by
    rw [← ht]
    simp only [State.cntTarget, State.findExch, State.ordAgrees, State.ordOf, State.rbit, State.exch_chargeIn,
      State.reg_win_chargeIn]
  change Host.Outcome.next (if kindOk f = true ∧ 1 < fPhase f then s else _) = _
  rw [if_neg (by omega), h.rx (by decide) _ htgt]
  rfl

theorem exec_countSlabRx_reaches {e : Exch} (h : Admits s p 5 f) (hph : fPhase f ≤ 1) (ht : s.cntTarget f = .ok)
    (he : s.findExch (fCtx f) (fGen f) (fXid f) = some e) :
    ∃ (t : State) (e1 : Exch), exec (.countSlabRx p f) s = .next t ∧ t.findExch (fCtx f) (fGen f) (fXid f) = some e1
      ∧ ∃ m ∈ (if fPhase f = 0 then e1.ph0 else e1.ph1), m.src = fSrc f
        ∧ ((∀ x ∈ (if fPhase f = 0 then e.ph0 else e.ph1), x.src ≠ fSrc f) → m = countMsg f) := by
  obtain ⟨e1, hfind, hm⟩ := State.findExch_cxArrive (((s.slotsKept_taken f).findExch _ _ _).trans he) (fPhase f) (countMsg f)
  exact ⟨_, e1, exec_countSlabRx h hph ht, hfind, hm⟩

end

-- barrier slabs

theorem State.findBar_key {s : State} {c gen bid : Nat} {b : Barrier} (h : s.findBar c gen bid = some b) :
    b.ctx = c ∧ b.gen = gen ∧ b.bid = bid := by
  simpa [and_assoc] using List.find?_some h

theorem State.findBar_updBar {s : State} {c gen bid : Nat} {b : Barrier} (h : s.findBar c gen bid = some b)
    (g : Barrier → Barrier)
    (hg : ∀ x, (g x).ctx = x.ctx ∧ (g x).gen = x.gen ∧ (g x).bid = x.bid := by exact fun _ => ⟨rfl, rfl, rfl⟩) :
    (s.updBar b.ctx b.gen b.bid g).findBar c gen bid = some (g b) :=
  find?_map_update h _ g ⟨rfl, rfl, rfl⟩ fun x => by
    obtain ⟨h1, h2, h3⟩ := hg x
    simp only [h1, h2, h3]

/-- A member that releases keeps its slot, which is released. -/
theorem State.findBar_barRelease {s : State} {c gen bid : Nat} {b : Barrier} (h : s.findBar c gen bid = some b) (late : Bool) :
    (s.barRelease b late).findBar c gen bid = some { b with released := true, late := late } :=
  ((((SlotsKept.refl _).trace _ _ _ _).complete _ _ _).findBar _ _ _).trans
    (State.findBar_updBar h _)

theorem State.slotsKept_sendReleases (s : State) (b : Barrier) (ms : List Nat) (mis : Bool) (trel : Nat) :
    SlotsKept s (s.sendReleases b ms mis trel) :=
  SlotsKept.foldl (fun _ h => h.txPush _ _ _ _ _ _) _ (SlotsKept.refl s)

/-- The chips that have arrived, with one more. -/
def Barrier.arrivedWith (b : Barrier) (src : Nat) : List Nat := if b.arrived.contains src then b.arrived else b.arrived ++ [src]

theorem Barrier.mem_arrivedWith (b : Barrier) (src m : Nat) : m ∈ b.arrivedWith src ↔ m = src ∨ m ∈ b.arrived := by
  rw [Barrier.arrivedWith]
  split
  · next h =>
    have h : src ∈ b.arrived := by simpa using h
    exact ⟨.inr, fun hm => hm.elim (fun e => e ▸ h) id⟩
  · simp [or_comm]

/-- An arrival whose N agrees is noted at the coordinator, whether or not the barrier is over with it. -/
theorem State.findBar_barArrive {s : State} {c gen bid : Nat} {b : Barrier} (h : s.findBar c gen bid = some b) (src : Nat) :
    ∃ b1 : Barrier, (s.barArrive b src b.members.length).findBar c gen bid = some b1 ∧ b1.arrived = b.arrivedWith src := by
  rw [State.barArrive, if_neg (by simp)]
  extract_lets b1 s1 p tr
  have hput : s1.findBar c gen bid = some b1 := State.findBar_updBar h _
  split
  · split
    · exact ⟨_, State.findBar_barRelease hput false, rfl⟩
    · have htime : p.2.findBar c gen bid = some b1 := ((SlotsKept.refl s1).readTime.findBar _ _ _).trans hput
      refine ⟨{ b1 with trel := some (BitVec.ofNat 64 tr) }, ?_, rfl⟩
      exact ((State.slotsKept_sendReleases _ _ _ _ _).findBar _ _ _).trans (State.findBar_updBar htime _)
  · exact ⟨b1, hput, rfl⟩

section
variable {s : State} {p : Nat} {f : Frame} {b : Barrier}

theorem State.barTarget_chargeIn (s : State) (f : Frame) : (s.chargeIn (fCtx f) f).barTarget f = s.barTarget f := by
  simp only [State.barTarget, State.findBar, State.barriers_chargeIn, State.chip, State.part_chargeIn]

theorem State.findBar_taken (s : State) (f : Frame) (c gen bid : Nat) : (s.taken f).findBar c gen bid = s.findBar c gen bid :=
  (s.slotsKept_taken f).findBar c gen bid

theorem exec_barrierArriveRx (h : Admits s p 5 f) (hph : fPhase f = 2) (ht : s.barTarget f = .ok)
    (hb : s.findBar (fCtx f) (fGen f) (fXid f) = some b) :
    exec (.barrierArriveRx p f) s = .next ((s.taken f).barArrive b (fSrc f) (f.w 9)) := by
  change Host.Outcome.next (if kindOk f = true ∧ fPhase f ≠ 2 then s else _) = _
  rw [if_neg (by simp [hph]), h.rx (by decide) _ ((s.barTarget_chargeIn f).trans ht)]
  have hfind := (s.findBar_taken f (fCtx f) (fGen f) (fXid f)).trans hb
  rw [State.taken] at hfind
  simp only [hfind]
  rfl

theorem exec_barrierArriveRx_reaches (h : Admits s p 5 f) (hph : fPhase f = 2) (ht : s.barTarget f = .ok)
    (hb : s.findBar (fCtx f) (fGen f) (fXid f) = some b) (hn : f.w 9 = b.members.length) :
    ∃ (t : State) (b1 : Barrier), exec (.barrierArriveRx p f) s = .next t ∧ t.findBar (fCtx f) (fGen f) (fXid f) = some b1
      ∧ fSrc f ∈ b1.arrived ∧ (∀ m ∈ b.arrived, m ∈ b1.arrived) := by
  obtain ⟨b1, hfind, harr⟩ := State.findBar_barArrive ((s.findBar_taken f _ _ _).trans hb) (fSrc f)
  refine ⟨_, b1, (exec_barrierArriveRx h hph ht hb).trans (by rw [hn]), hfind, ?_⟩
  simp only [harr, Barrier.mem_arrivedWith]
  exact ⟨.inl trivial, fun m hm => .inr hm⟩

theorem exec_barrierReleaseRx (h : Admits s p 5 f) (hph : fPhase f = 3) (ht : s.barTarget f = .ok) :
    exec (.barrierReleaseRx p f) s = .next ((s.chargeIn (fCtx f) f).barRelTake f) := by
  change Host.Outcome.next (if kindOk f = true ∧ fPhase f ≠ 3 then s else _) = _
  rw [if_neg (by simp [hph]), h.rx (by decide) _ ((s.barTarget_chargeIn f).trans ht)]

/-- A RELEASE of a mismatch faults the member (R171). -/
theorem State.barRelTake_mismatch (hb : s.findBar (fCtx f) (fGen f) (fXid f) = some b) (hrel : b.released = false)
    (hmis : bitOf (f.w 8) 2 = true) :
    (s.chargeIn (fCtx f) f).barRelTake f = (s.taken f).fault b.q b.idx 0x05 (flt eExchMismatch 1) := by
  have hfind := (s.findBar_taken f (fCtx f) (fGen f) (fXid f)).trans hb
  rw [State.taken] at hfind ⊢
  simp [State.barRelTake, hfind, hrel, hmis]

/-- A RELEASE gives a member that has none its TREL, also where that time is already past (R171, R172). -/
theorem State.findBar_barRelTake (hb : s.findBar (fCtx f) (fGen f) (fXid f) = some b) (hrel : b.released = false)
    (hnone : b.trel = none) (hmis : bitOf (f.w 8) 2 = false) :
    ∃ b1 : Barrier, ((s.chargeIn (fCtx f) f).barRelTake f).findBar (fCtx f) (fGen f) (fXid f) = some b1
      ∧ b1.trel = some (BitVec.ofNat 64 (f.w 12 + 2 ^ 32 * f.w 13)) := by
  have hfind := (s.findBar_taken f (fCtx f) (fGen f) (fXid f)).trans hb
  rw [State.taken] at hfind
  have hput (t : U64) := State.findBar_updBar (((SlotsKept.refl _).readTime.findBar _ _ _).trans hfind)
    (fun x => { x with trel := some t })
  rw [State.barRelTake]
  simp only [hfind, hrel, hmis, hnone, Option.isSome_none, Bool.false_eq_true, if_false]
  split
  · exact ⟨_, State.findBar_barRelease (hput _) true, rfl⟩
  · exact ⟨_, hput _, rfl⟩

theorem exec_barrierReleaseRx_reaches (h : Admits s p 5 f) (hph : fPhase f = 3) (ht : s.barTarget f = .ok)
    (hb : s.findBar (fCtx f) (fGen f) (fXid f) = some b) (hrel : b.released = false) (hnone : b.trel = none)
    (hmis : bitOf (f.w 8) 2 = false) :
    ∃ (t : State) (b1 : Barrier), exec (.barrierReleaseRx p f) s = .next t ∧ t.findBar (fCtx f) (fGen f) (fXid f) = some b1
      ∧ b1.trel = some (BitVec.ofNat 64 (f.w 12 + 2 ^ 32 * f.w 13)) := by
  obtain ⟨b1, hfind, htrel⟩ := State.findBar_barRelTake hb hrel hnone hmis
  exact ⟨_, b1, exec_barrierReleaseRx h hph ht, hfind, htrel⟩

end

-- markers

/-- With the trace off no record is taken. -/
theorem State.trace_off {s : State} (h : s.rbit 0x1A040 0 = false) (rt own q : Nat) (ws : List Nat) :
    s.trace rt own q ws = s := by
  rw [State.trace]
  split
  · rfl
  · exact if_pos (.inl (by simp [h]))

theorem State.waitRecs_off {s : State} (h : s.rbit 0x1A040 0 = false) (own q : Nat) (c : Cmd) : s.waitRecs own q c = s := by
  simp [State.waitRecs, State.trace_off h]

/-- With the trace off, a look at the waits of a queue changes the queues and the tick of the waits alone. -/
theorem State.pollQueue_frame {s : State} (h : s.rbit 0x1A040 0 = false) (q : Nat) :
    s.pollQueue q = { s with queues := (s.pollQueue q).queues, ticks := (s.pollQueue q).ticks } := by
  rw [State.pollQueue]
  dsimp only
  split
  · split
    · rfl
    · rw [State.waitRecs_off (by exact h)]
      rfl
  · rfl

theorem State.pollOwner_frame {s : State} (h : s.rbit 0x1A040 0 = false) (own : Nat) :
    s.pollOwner own = { s with queues := (s.pollOwner own).queues, ticks := (s.pollOwner own).ticks } := by
  rw [State.pollOwner]
  generalize List.range 64 = l
  induction l generalizing s with
  | nil => rfl
  | cons q l ih =>
    rw [List.foldl_cons]
    split
    · have hq := State.pollQueue_frame h q
      have hoff : (s.pollQueue q).rbit 0x1A040 0 = false := by rw [hq]; exact h
      rw [ih hoff, hq]
    · exact ih h

/-- With no feed open and the trace off, what follows of a change of a counter leaves memory and the registers alone. -/
theorem State.ctrChanged_frame {s : State} (h : s.rbit 0x1A040 0 = false) (hf : s.feeds = []) (own : Nat) :
    (s.ctrChanged own).mem = s.mem ∧ (s.ctrChanged own).regs = s.regs := by
  have hp := State.pollOwner_frame h own
  have hpf : (s.pollOwner own).feeds = [] := by rw [hp]; exact hf
  rw [State.ctrChanged, hf]
  simp only [State.closeFeeds, hpf, State.feedCheck]
  exact ⟨by rw [hp], by rw [hp]⟩

/-- A marker writes its counter, and what follows of that leaves memory and the registers alone. -/
theorem State.markerIn_frame {s : State} (h : s.rbit 0x1A040 0 = false) (hf : s.feeds = []) (c i : Nat) :
    (s.markerIn c i).mem = (s.wr32 (s.ctrAddr c i) ((s.ctr c i + 1) % 2 ^ 32)).mem ∧ (s.markerIn c i).regs = s.regs := by
  rw [State.markerIn]
  generalize (s.ctr c i + 1) % 2 ^ 32 = v
  have hoff : (s.wr32 (s.ctrAddr c i) v).rbit 0x1A040 0 = false := by
    rw [State.rbit, State.reg_of_regs (s.regs_wr32 _ _)]
    exact h
  obtain ⟨hmem, hregs⟩ := State.ctrChanged_frame hoff (by rw [State.feeds_wr32, hf]) c
  exact ⟨hmem, hregs.trans (s.regs_wr32 _ _)⟩

/-- A marker advances its counter, and writes no byte beside it. -/
theorem State.ctr_markerIn {s : State} (h : s.rbit 0x1A040 0 = false) (hf : s.feeds = []) (c i : Nat) :
    (s.markerIn c i).ctr c i = (s.ctr c i + 1) % 2 ^ 32
      ∧ (∀ a, (∀ k, k < 4 → (s.ctrAddr c i + k) % addrMod ≠ a % addrMod) → (s.markerIn c i).rd8 a = s.rd8 a) := by
  obtain ⟨hmem, hregs⟩ := State.markerIn_frame h hf c i
  have haddr : (s.markerIn c i).ctrAddr c i = s.ctrAddr c i := by simp only [State.ctrAddr, State.rpair, State.reg_of_regs hregs]
  constructor
  · have hrd := s.rd32_wr32 (s.ctrAddr c i) ((s.ctr c i + 1) % 2 ^ 32)
    rw [Nat.mod_mod] at hrd
    rw [State.ctr, haddr, State.rd32, State.rdLe_of_mem hmem]
    exact hrd
  · intro a ha
    rw [State.rd8_of_mem hmem]
    exact State.rd8_wr32_out _ _ _ _ ha

section
variable {s : State} {p : Nat} {f : Frame}

theorem exec_markerRx (h : Admits s p 6 f) (ht : s.mrkTarget f = .ok) (hoff : (s.chargeIn (fCtx f) f).rbit 0x1A040 0 = false) :
    exec (.markerRx p f) s = .next ((s.chargeIn (fCtx f) f).markerIn (fCtx f) (fld (f.w 8) 19 0)) := by
  have htgt : (s.chargeIn (fCtx f) f).mrkTarget f = .ok := by
    rw [State.mrkTarget, State.reg_win_chargeIn]
    exact ht
  refine congrArg Host.Outcome.next ((h.rx (by decide) _ htgt).trans ?_)
  rw [State.trace_off hoff]

theorem exec_markerRx_counts (h : Admits s p 6 f) (ht : s.mrkTarget f = .ok) (hf : s.feeds = []) {c i : Nat} (hc : c = fCtx f)
    (hi : i = fld (f.w 8) 19 0) (htr : s.rbit 0x1A040 0 = false) :
    ∃ t : State, exec (.markerRx p f) s = .next t ∧ t.ctr c i = (s.ctr c i + 1) % 2 ^ 32
      ∧ (∀ a, (∀ k, k < 4 → (s.ctrAddr c i + k) % addrMod ≠ a % addrMod) → t.rd8 a = s.rd8 a) := by
  subst hc hi
  have hoff : (s.chargeIn (fCtx f) f).rbit 0x1A040 0 = false := by
    rw [State.rbit, State.reg_chargeIn _ _ _ _ (by decide)]
    exact htr
  have haddr (i : Nat) : (s.chargeIn (fCtx f) f).ctrAddr (fCtx f) i = s.ctrAddr (fCtx f) i := by
    rw [State.ctrAddr, State.rpair_win_chargeIn, State.ctrAddr]
  have hctr (i : Nat) : (s.chargeIn (fCtx f) f).ctr (fCtx f) i = s.ctr (fCtx f) i := by
    rw [State.ctr, haddr, State.rd32, State.rdLe_of_mem (s.mem_chargeIn _ f), State.ctr, State.rd32]
  obtain ⟨hcount, hframe⟩ := State.ctr_markerIn hoff (by rw [State.feeds_chargeIn, hf]) (fCtx f) (fld (f.w 8) 19 0)
  rw [hctr] at hcount
  rw [haddr] at hframe
  refine ⟨_, exec_markerRx h ht hoff, hcount, fun a ha => (hframe a ha).trans ?_⟩
  exact State.rd8_of_mem (s.mem_chargeIn _ f) a

end

/-- Settles O52: each clause by the checks of R114 (`Admits.rx`) and what the kind's effect leaves in its slot or counter. -/
theorem countBarrierAndMarkerSlabs : Obligations.CountBarrierAndMarkerSlabs := by
  refine ⟨fun s p f e h hph ht he => ?_, fun s p f b h hph ht hb hn => exec_barrierArriveRx_reaches h hph ht hb hn,
    fun s p f b h hph ht hb hrel => ⟨fun hnone hmis => exec_barrierReleaseRx_reaches h hph ht hb hrel hnone hmis,
      fun hmis => ?_⟩,
    fun s p f c i h ht hf hc hi htr => exec_markerRx_counts h ht hf hc hi htr⟩
  · obtain ⟨t, e1, hexec, hfind, m, hm, hsrc, hnew⟩ := exec_countSlabRx_reaches h hph ht he
    refine ⟨t, e1, hexec, hfind, m, hm, hsrc, fun hfirst => ?_⟩
    obtain rfl := hnew hfirst
    exact ⟨rfl, Nat.mod_eq_of_lt (frameWord_lt f 9), Nat.mod_eq_of_lt (frameWord_lt f 10), rfl,
      length_countEnts _ _, fun j y hy => getElem?_countEnts hy⟩
  · rw [exec_barrierReleaseRx h hph ht, State.barRelTake_mismatch hb hrel hmis]
    rfl

end Sys2Proof.Machine
end

section
/-! PROOFS. The Tap (R54, R55, R309, R311, R312): a message acts, by its MTYPE, on the state that has received its words, and
the tiles of a stream fill the rows of the ROUTE that consumes it. -/
namespace Sys2Proof.Machine

-- bits of a register

/-- A bit of a register reads as it was last written. -/
theorem State.rbit_setRbit (s : State) (a i : Nat) (b : Bool) (h : i < 32) : (s.setRbit a i b).rbit a i = b := by
  have hf : fld ((s.setRbit a i b).reg a) i i = b2n b % 2 ^ (i + 1 - i) := s.rf_setRf a i i (b2n b) (Nat.le_refl i) h
  simp only [fld, Nat.add_sub_cancel_left, Nat.pow_one] at hf
  rw [State.rbit, bitOf, hf]
  cases b <;> rfl

-- what the Tap looks at: the words and the injection of a received message leave it alone (R363)

section
variable {s t : State}

theorem Moved.tapUp (h : Moved s t) : t.tapUp = s.tapUp := by
  rw [State.tapUp, State.rbit, h.inj.1 0x10000 (by decide), State.tapUp, State.rbit]

theorem Moved.tapVer (h : Moved s t) : t.tapVer = s.tapVer := by
  rw [State.tapVer, State.rf, h.inj.1 0x10000 (by decide), State.tapVer, State.rf]

theorem Moved.tap (h : Moved s t) : t.tap = s.tap := by rw [h.only]
theorem Moved.tapRuns (h : Moved s t) : t.tapRuns = s.tapRuns := by rw [h.only]
theorem Moved.passRows (h : Moved s t) : t.passRows = s.passRows := by rw [h.only]; rfl
theorem Moved.consumer (h : Moved s t) (n : Nat) : t.consumer n = s.consumer n := by rw [h.only]; rfl
theorem Moved.tapBlocks (h : Moved s t) (m : TapMsg) (x : TapRun) : t.tapBlocks m x = s.tapBlocks m x := by rw [h.only]; rfl
theorem Moved.placed (h : Moved s t) (r : Region) (b : Nat) : t.placed r b = s.placed r b := by rw [h.only]; rfl

end

theorem State.arrayWrite_moved (s : State) (a : Nat) : Moved s (s.arrayWrite a) := (Moved.refl s).arrayWrite a

-- the message by its MTYPE

section
variable {s : State} {m : TapMsg}

theorem State.tapMsg_hello (hup : s.tapUp = false) (ht : m.type = 1) : s.tapMsg m = s.tapHello m := by
  rw [State.tapMsg, if_pos (by rw [hup]; rfl), if_pos ht]

theorem State.tapMsg_bad (hup : s.tapUp = true) (hb : m.bad s.tapVer = true) : s.tapMsg m = s.tapBroken m := by
  rw [State.tapMsg, if_neg (by simp [hup]), if_pos hb]

theorem State.tapMsg_tile (hup : s.tapUp = true) (hb : m.bad s.tapVer = false) (ht : m.type = 2) :
    s.tapMsg m = s.tapTile m := by
  simp only [State.tapMsg, hup, hb, ht, Bool.not_true, Bool.false_eq_true, if_false]

theorem State.tapMsg_stopped (hup : s.tapUp = true) (hb : m.bad s.tapVer = false) (ht : m.type = 3) :
    s.tapMsg m = s.tapStopped m := by
  simp only [State.tapMsg, hup, hb, ht, Bool.not_true, Bool.false_eq_true, if_false]

theorem exec_tapHello (h : s.live = true) : exec (.tapHello m) s = .next ((s.arrayWrite 0xB).tapMsg m) :=
  congrArg Host.Outcome.next (if_pos h)
theorem exec_tapTile (h : s.live = true) : exec (.tapTile m) s = .next ((s.arrayWrite 0xB).tapMsg m) :=
  congrArg Host.Outcome.next (if_pos h)
theorem exec_tapStopped (h : s.live = true) : exec (.tapStopped m) s = .next ((s.arrayWrite 0xB).tapMsg m) :=
  congrArg Host.Outcome.next (if_pos h)

end

-- HELLO (R309)

section
variable {s : State} {m : TapMsg}

/-- The header of a good HELLO is accepted before a version is negotiated. -/
theorem TapMsg.hello_not_bad (hp : m.parity = false) (hs : m.som = false) (ht : m.type = 1) (hb : m.bare = true)
    (h0 : m.stream = 0) : m.bad 0 = false := by
  simp [TapMsg.bad, TapMsg.fieldsOk, hp, hs, ht, hb, h0]

/-- KTAP_STATUS with a version and UP. -/
def State.tapRaised (s : State) (v : Nat) : State := (s.setRf 0x10000 3 0 v).setRbit 0x10000 4 true

theorem State.tapUp_tapRaised (s : State) (v : Nat) : (s.tapRaised v).tapUp = true :=
  State.rbit_setRbit _ 0x10000 4 true (by decide)

theorem State.tapVer_tapRaised (s : State) (v : Nat) (h : v < 16) : (s.tapRaised v).tapVer = v := by
  rw [State.tapVer, State.tapRaised, State.setRbit,
    State.rf_setRf_of_disjoint _ 0x10000 4 4 _ 3 0 (by decide) (by decide) (by decide),
    State.rf_setRf _ 0x10000 3 0 v (by decide) (by decide)]
  exact Nat.mod_eq_of_lt h

/-- A good HELLO raises the link at the lower version, and changes neither memory nor a queue. -/
theorem State.tapHello_good (s : State) (hb : m.bad 0 = false) (hv : m.ver ≠ 0) :
    (s.tapHello m).tapUp = true ∧ (s.tapHello m).tapVer = min m.ver 2 ∧ (s.tapHello m).mem = s.mem
      ∧ (s.tapHello m).queues = s.queues := by
  have hraised : (s.tapHello m).regs = (s.tapRaised (min m.ver 2)).regs ∧ (s.tapHello m).mem = s.mem
      ∧ (s.tapHello m).queues = s.queues := by
    rw [State.tapHello, if_neg (by simp [hb, hv])]
    dsimp only
    split <;> exact ⟨rfl, rfl, rfl⟩
  obtain ⟨hregs, hmem, hqueues⟩ := hraised
  have hreg := State.reg_of_regs hregs 0x10000
  refine ⟨?_, ?_, hmem, hqueues⟩
  · rw [State.tapUp, State.rbit, hreg]
    exact s.tapUp_tapRaised _
  · rw [State.tapVer, State.rf, hreg]
    exact s.tapVer_tapRaised _ (by omega)

theorem exec_tapHello_up (hl : s.live = true) (hd : s.tapUp = false) (hb : m.bad 0 = false) (ht : m.type = 1)
    (hv : m.ver ≠ 0) :
    ∃ t : State, exec (.tapHello m) s = .next t ∧ t.tapUp = true ∧ t.tapVer = min m.ver 2 ∧ t.mem = s.mem
      ∧ t.queues = s.queues := by
  have hw := s.arrayWrite_moved 0xB
  obtain ⟨hup, hver, hmem, hqueues⟩ := (s.arrayWrite 0xB).tapHello_good hb hv
  rw [exec_tapHello hl, State.tapMsg_hello (hw.tapUp.trans hd) ht]
  exact ⟨_, rfl, hup, hver, hmem.trans (s.mem_arrayWrite 0xB), hqueues.trans hw.onlyMemory.2⟩

end

-- the ROUTE that consumes a stream

section
variable {s : State} {m : TapMsg} {x : TapRun} {c : Cmd}

theorem State.mem_tapRuns_of_consumer {n : Nat} (h : s.consumer n = some (x, c)) : x ∈ s.tapRuns := by
  obtain ⟨y, hy, hc⟩ := Option.bind_eq_some_iff.1 h
  obtain ⟨d, -, hpair⟩ := Option.map_eq_some_iff.1 hc
  obtain rfl : y = x := congrArg Prod.fst hpair
  exact List.mem_of_find?_eq_some hy

theorem State.tapTile_stopped (h : s.tap.stops.contains m.stream = true) : s.tapTile m = s := by
  rw [State.tapTile, if_pos h]

theorem State.tapTile_unconsumed (h : s.tap.stops.contains m.stream = false) (hv : s.tapVer = 2)
    (hc : s.consumer m.stream = none) : s.tapTile m = s.tapDrop m := by
  rw [State.tapTile, if_neg (ne_true_of_eq_false h), hc]
  exact if_neg (by omega)

theorem State.tapTile_consumed (h : s.tap.stops.contains m.stream = false) (hc : s.consumer m.stream = some (x, c)) :
    s.tapTile m = s.tapTake m x c := by
  rw [State.tapTile, if_neg (ne_true_of_eq_false h), hc]

theorem State.tapBroken_consumed (h : s.tap.stops.contains m.stream = false) (hc : s.consumer m.stream = some (x, c)) :
    s.tapBroken m = (s.tapBreach m).tapFault x := by
  rw [State.tapBroken, if_neg (ne_true_of_eq_false h), hc]

theorem State.tapStopped_unsealed (h : s.tap.stops.contains m.stream = false) (hc : s.consumer m.stream = some (x, c))
    (hd : x.done = false) : s.tapStopped m = s.tapFault x := by
  rw [State.tapStopped, if_neg (ne_true_of_eq_false h), hc]
  exact if_neg (by simp [hd])

theorem State.tapStopped_ends (h : s.tap.stops.contains m.stream = true) :
    s.tapStopped m = { s with tap := { s.tap with stops := s.tap.stops.filter (fun x => x != m.stream) } } := by
  rw [State.tapStopped, if_pos h]

end

-- the scores of a tile (R54, R59)

/-- The scores of the rows of a tile, as `tapScores` computes them. -/
def State.tileScores (s : State) (m : TapMsg) (x : TapRun) (c : Cmd) : List (List Score) :=
  (List.range m.nrows).map (fun i => (List.range m.ncol).map (fun j =>
    s.score (s.scoreEnv c.block c.stage c.fuB c.biasB)
      ((s.gRecs c.stage (s.dsc x.ctx c 5) m.row0 m.nrows).getD i default) (m.col0 + j)
      ((rowVals m.elem m.ncol (m.row i)).getD j 0)))

/-- The rows of the pass with the scores of a tile. -/
def State.tileRows (s : State) (m : TapMsg) (x : TapRun) (c : Cmd) : List (List Score) :=
  (List.range x.rows.length).map (fun i =>
    if m.row0 - x.pass * s.passRows ≤ i ∧ i < m.row0 - x.pass * s.passRows + m.nrows then
      x.rows.getD i [] ++ (s.tileScores m x c).getD (i - (m.row0 - x.pass * s.passRows)) []
    else x.rows.getD i [])

section
variable {s : State} {m : TapMsg} {x : TapRun} {c : Cmd}

theorem State.length_tileScores {i : Nat} (h : i < m.nrows) : ((s.tileScores m x c).getD i []).length = m.ncol := by
  simp [State.tileScores, List.getD_eq_getElem?_getD, List.getElem?_range h]

/-- A row of a tile has its columns after those that it had. -/
theorem State.length_tileRows {lo i : Nat} (hlo : lo = m.row0 - x.pass * s.passRows) (hi : i < m.nrows)
    (hlen : lo + m.nrows ≤ x.rows.length) :
    ((s.tileRows m x c).getD (lo + i) []).length = (x.rows.getD (lo + i) []).length + m.ncol := by
  subst hlo
  have hrow : m.row0 - x.pass * s.passRows + i < x.rows.length := by omega
  rw [State.tileRows, List.getD_eq_getElem?_getD, List.getElem?_map, List.getElem?_range hrow, Option.map_some,
    Option.getD_some, if_pos (by omega), List.length_append, Nat.add_sub_cancel_left, State.length_tileScores hi]

end

-- which steps leave the runs of the ROUTEs alone

@[simp] theorem State.tapRuns_putOwn (s : State) (q : Nat) (i : U32) (ws : List (Nat × List Byte)) :
    (s.putOwn q i ws).tapRuns = s.tapRuns := by
  rw [State.putOwn]
  split
  · split
    · exact ((Moved.refl s).puts ws).tapRuns
    · rfl
  · rfl

theorem Moved.fuScore {s t : State} (own : Nat) (r : Rpb) (fu : FuBank) (rows : List (List Score)) (h : Moved s t) :
    Moved s (t.fuScore own r fu rows) := by
  rw [State.fuScore]
  split
  · exact h.fuCharge _ _ _ _ _
  · exact h.fuCharge _ _ _ _ _
  · exact h

theorem State.tapRuns_foldl_putOwn (q : Nat) (j : U32) (ws : Nat → List (Nat × List Byte)) (l : List Nat) (s : State) :
    (l.foldl (fun s i => s.putOwn q j (ws i)) s).tapRuns = s.tapRuns := by
  induction l generalizing s with
  | nil => rfl
  | cons i l ih => rw [List.foldl_cons, ih, State.tapRuns_putOwn]

theorem State.mem_tapRuns_setRun {s : State} {x y : TapRun} (hx : x ∈ s.tapRuns) (h : x.q = y.q ∧ x.idx = y.idx) :
    y ∈ (s.setRun y).tapRuns :=
  List.mem_map.2 ⟨x, hx, if_pos h⟩

/-- A tile that is scored: its counts and stored logits leave the runs alone, and its rows may seal. -/
theorem State.tapScores_eq (s : State) (m : TapMsg) (x : TapRun) (c : Cmd) :
    ∃ u : State, u.tapRuns = s.tapRuns ∧ s.tapScores m x c = u.tapSeal m { x with rows := s.tileRows m x c } c := by
  unfold State.tapScores
  extract_lets r v lo gs got rows sf d s1 s2
  refine ⟨_, ?_, rfl⟩
  have hs1 : s1.tapRuns = s.tapRuns := by
    unfold s1
    split
    · exact ((Moved.refl _).opCount _ _ _).tapRuns.trans (State.tapRuns_foldl_putOwn _ _ _ _ s)
    · rfl
  have hs2 : Moved s1 s2 := (((Moved.refl s1).opCount _ _ _).opCount _ _ _).acct _ _ _
  exact (((hs2.fuScore _ _ _ _).charge _ _).arrayWrite 1).tapRuns.trans hs1

/-- Short of the last column no row of a tile seals. -/
theorem State.tapSeal_short (s : State) {m : TapMsg} (x : TapRun) {c : Cmd} (h : m.col0 + m.ncol < c.block.cols c.stage) :
    s.tapSeal m x c = s.setRun x := if_pos h

-- a tile that obeys R54 and R55

/-- A tile that obeys R54 and R55 for the ROUTE with run x and command c: rows of the current pass, the element format of the
block, columns that end at a multiple of 64 or at the last one, and every row at the tile's first column. -/
structure TileObeys (s : State) (m : TapMsg) (x : TapRun) (c : Cmd) : Prop where
  unsealed : x.done = false
  first    : x.pass * s.passRows ≤ m.row0
  last     : m.row0 + m.nrows ≤ x.pass * s.passRows + x.rows.length
  format   : m.elem = logitFmt c.block.inFmt
  cols     : m.col0 + m.ncol ≤ c.block.cols c.stage
  width    : m.ncol % 64 = 0 ∨ m.col0 + m.ncol = c.block.cols c.stage
  next     : ∀ i, i < m.nrows → (x.rows.getD (m.row0 - x.pass * s.passRows + i) []).length = m.col0

section
variable {s : State} {m : TapMsg} {x : TapRun} {c : Cmd}

/-- A tile that obeys the rules and whose blocks have their regions is scored. -/
theorem TileObeys.tapTake (h : TileObeys s m x c) (hp : ∀ b ∈ s.tapBlocks m x, s.placed (c.region x.ctx x.q) b = true) :
    s.tapTake m x c = (s.placeBlocks (c.region x.ctx x.q) []).2.tapScores m x c := by
  obtain ⟨hopen, hfirst, hlast, hfmt, hcols, hwidth, hnext⟩ := h
  have hnone : (s.tapBlocks m x).filter (fun b => !s.placed (c.region x.ctx x.q) b) = [] := by
    simpa [List.filter_eq_nil_iff] using hp
  unfold State.tapTake
  extract_lets r lo inPass later cols ok reg p
  have hin : inPass = true := by simp [inPass, lo, hopen, hfirst, hlast]
  have hok : ok = true := by
    simp only [ok, hin, Bool.and_eq_true, Bool.or_eq_true, beq_iff_eq, decide_eq_true_eq, List.all_eq_true, List.mem_range]
    exact ⟨⟨⟨⟨trivial, hfmt⟩, hcols⟩, hwidth⟩, hnext⟩
  have hplace : p = s.placeBlocks reg [] := congrArg (s.placeBlocks reg) hnone
  rw [if_neg (by simp [hin]), if_neg (by simp [hok]), hplace]
  exact if_pos rfl

/-- Short of the last column, a tile that obeys the rules adds its columns to its rows. -/
theorem TileObeys.tapTake_short (h : TileObeys s m x c)
    (hp : ∀ b ∈ s.tapBlocks m x, s.placed (c.region x.ctx x.q) b = true) (hx : x ∈ s.tapRuns)
    (hs : m.col0 + m.ncol < c.block.cols c.stage) :
    ∃ y ∈ (s.tapTake m x c).tapRuns, y.q = x.q ∧ y.idx = x.idx ∧ y.pass = x.pass
      ∧ ∀ i, i < m.nrows → (y.rows.getD (m.row0 - x.pass * s.passRows + i) []).length = m.col0 + m.ncol := by
  obtain ⟨u, hu, hscores⟩ := State.tapScores_eq (s.placeBlocks (c.region x.ctx x.q) []).2 m x c
  rw [h.tapTake hp, hscores, State.tapSeal_short _ _ hs]
  refine ⟨_, State.mem_tapRuns_setRun (x := x) (hu ▸ hx) ⟨rfl, rfl⟩, rfl, rfl, rfl, fun i hi => ?_⟩
  have hlen := h.last
  have hfirst := h.first
  have hrows : (s.placeBlocks (c.region x.ctx x.q) []).2.passRows = s.passRows := rfl
  exact (State.length_tileRows (by rw [hrows]) hi (by omega)).trans (congrArg (· + m.ncol) (h.next i hi))

end

-- the messages of a link that is up

section
variable {s : State} {m : TapMsg}

theorem exec_tapTile_stopped (hl : s.live = true) (hu : s.tapUp = true) (hb : m.bad s.tapVer = false) (ht : m.type = 2)
    (hs : s.tap.stops.contains m.stream = true) : exec (.tapTile m) s = .next (s.arrayWrite 0xB) := by
  have hw := s.arrayWrite_moved 0xB
  rw [exec_tapTile hl, State.tapMsg_tile (hw.tapUp.trans hu) (hw.tapVer ▸ hb) ht, State.tapTile_stopped (hw.tap ▸ hs)]

theorem exec_tapTile_unconsumed (hl : s.live = true) (hu : s.tapUp = true) (hb : m.bad s.tapVer = false)
    (ht : m.type = 2) (hs : s.tap.stops.contains m.stream = false) (hv : s.tapVer = 2)
    (hc : s.consumer m.stream = none) :
    exec (.tapTile m) s = .next (((s.arrayWrite 0xB).tapBreach m).sysCount 6) := by
  have hw := s.arrayWrite_moved 0xB
  rw [exec_tapTile hl, State.tapMsg_tile (hw.tapUp.trans hu) (hw.tapVer ▸ hb) ht,
    State.tapTile_unconsumed (hw.tap ▸ hs) (hw.tapVer.trans hv) ((hw.consumer _).trans hc), State.tapDrop]

theorem exec_tapTile_bad {x : TapRun} {c : Cmd} (hl : s.live = true) (hu : s.tapUp = true)
    (hs : s.tap.stops.contains m.stream = false) (hc : s.consumer m.stream = some (x, c)) (hb : m.bad s.tapVer = true) :
    exec (.tapTile m) s = .next (((s.arrayWrite 0xB).tapBreach m).fault x.q x.idx 0x10 (flt eTapStream 2)) := by
  have hw := s.arrayWrite_moved 0xB
  rw [exec_tapTile hl, State.tapMsg_bad (hw.tapUp.trans hu) (hw.tapVer ▸ hb),
    State.tapBroken_consumed (hw.tap ▸ hs) ((hw.consumer _).trans hc), State.tapFault]

theorem exec_tapStopped_unsealed {x : TapRun} {c : Cmd} (hl : s.live = true) (hu : s.tapUp = true)
    (hs : s.tap.stops.contains m.stream = false) (hc : s.consumer m.stream = some (x, c))
    (hb : m.bad s.tapVer = false) (ht : m.type = 3) (hd : x.done = false) :
    exec (.tapStopped m) s = .next ((s.arrayWrite 0xB).fault x.q x.idx 0x10 (flt eTapStream 2)) := by
  have hw := s.arrayWrite_moved 0xB
  rw [exec_tapStopped hl, State.tapMsg_stopped (hw.tapUp.trans hu) (hw.tapVer ▸ hb) ht,
    State.tapStopped_unsealed (hw.tap ▸ hs) ((hw.consumer _).trans hc) hd, State.tapFault]

theorem exec_tapStopped_ends (hl : s.live = true) (hu : s.tapUp = true) (hb : m.bad s.tapVer = false) (ht : m.type = 3)
    (hs : s.tap.stops.contains m.stream = true) :
    exec (.tapStopped m) s
      = .next { s.arrayWrite 0xB with tap := { s.tap with stops := s.tap.stops.filter (fun x => x != m.stream) } } := by
  have hw := s.arrayWrite_moved 0xB
  rw [exec_tapStopped hl, State.tapMsg_stopped (hw.tapUp.trans hu) (hw.tapVer ▸ hb) ht,
    State.tapStopped_ends (hw.tap ▸ hs), hw.tap]

/-- A tile that obeys R54 and R55 on the state before its words are received obeys them after. -/
theorem TileObeys.moved {t : State} {x : TapRun} {c : Cmd} (h : TileObeys s m x c) (g : Moved s t) : TileObeys t m x c := by
  obtain ⟨hopen, hfirst, hlast, hfmt, hcols, hwidth, hnext⟩ := h
  rw [← g.passRows] at hfirst hlast hnext
  exact ⟨hopen, hfirst, hlast, hfmt, hcols, hwidth, hnext⟩

theorem exec_tapTile_scored {x : TapRun} {c : Cmd} (hl : s.live = true) (hu : s.tapUp = true)
    (hb : m.bad s.tapVer = false) (ht : m.type = 2) (hs : s.tap.stops.contains m.stream = false)
    (hc : s.consumer m.stream = some (x, c)) (ho : TileObeys s m x c) (hn : m.col0 + m.ncol < c.block.cols c.stage)
    (hp : ∀ b ∈ s.tapBlocks m x, s.placed (c.region x.ctx x.q) b = true) :
    ∃ (t : State) (y : TapRun), exec (.tapTile m) s = .next t ∧ y ∈ t.tapRuns ∧ y.q = x.q ∧ y.idx = x.idx
      ∧ y.pass = x.pass
      ∧ ∀ i, i < m.nrows → (y.rows.getD (m.row0 - x.pass * s.passRows + i) []).length = m.col0 + m.ncol := by
  have hw := s.arrayWrite_moved 0xB
  obtain ⟨y, hy, hq, hidx, hpass, hrows⟩ := (ho.moved hw).tapTake_short
    (fun b h => (hw.placed _ b).trans (hp b (hw.tapBlocks m x ▸ h))) (hw.tapRuns ▸ State.mem_tapRuns_of_consumer hc) hn
  refine ⟨_, y, ?_, hy, hq, hidx, hpass, hw.passRows ▸ hrows⟩
  rw [exec_tapTile hl, State.tapMsg_tile (hw.tapUp.trans hu) (hw.tapVer ▸ hb) ht,
    State.tapTile_consumed (hw.tap ▸ hs) ((hw.consumer _).trans hc)]

/-- The timeout of STOPPED ends the stream and marks it (R311). -/
theorem exec_tapStopTimeout {n : Nat} (hl : s.live = true) (hclk : s.refclk = true)
    (hs : s.tap.stops.contains n = true) :
    ∃ t : State, exec (.tapStopTimeout n) s = .next t ∧ t.rbit 0x10000 7 = true
      ∧ t.tap.stops = s.tap.stops.filter (fun x => x != n) ∧ t.mem = s.mem := by
  refine ⟨_, congrArg Host.Outcome.next (if_pos ⟨hl, hclk, hs⟩), ?_, rfl, rfl⟩
  exact State.rbit_setRbit _ 0x10000 7 true (by decide)

end

/-- Settles O57: each message by the equation of its MTYPE on the state that has received its words; a tile that obeys R54 and
R55 through the rows it leaves (`TileObeys.tapTake_short`). -/
theorem tapTakesTiles : Obligations.TapTakesTiles := by
  refine ⟨fun s m hl hd hp hs ht hb h0 hv => ?_, fun s m hl hu hb ht => ⟨fun hs => ?_, fun hs hv hc => ?_,
      fun x c lo hs hc hd hfirst hlo hlast hfmt hcols hwidth hnext hpl => ?_⟩,
    fun s m x c hl hu hs hc => ⟨fun hb => ?_, fun hb ht hd => ?_⟩, fun s m hl hu hb ht hs => ?_,
    fun s n hl hclk hs => exec_tapStopTimeout hl hclk hs⟩
  · exact exec_tapHello_up hl hd (TapMsg.hello_not_bad hp hs ht hb h0) ht hv
  · exact exec_tapTile_stopped hl hu hb ht hs
  · exact exec_tapTile_unconsumed hl hu hb ht hs hv hc
  · subst hlo
    exact exec_tapTile_scored hl hu hb ht hs hc
      ⟨hd, hfirst, by omega, hfmt, Nat.le_of_lt hcols, .inl hwidth, hnext⟩ hcols hpl
  · exact exec_tapTile_bad hl hu hs hc hb
  · exact exec_tapStopped_unsealed hl hu hs hc hb ht hd
  · exact exec_tapStopped_ends hl hu hb ht hs

end Sys2Proof.Machine
end

section
/-! PROOFS. PUBLISH (R95, R244, R248): its run, and the flips of its commit. -/
namespace Sys2Proof.Machine

-- a bit of a register beside other writes

theorem State.rbit_eq_rf (s : State) (a i : Nat) : s.rbit a i = (s.rf a i i == 1) := by
  rw [State.rbit, bitOf, State.rf, fld, Nat.add_sub_cancel_left, Nat.pow_one]

theorem State.rbit_setReg_of_ne (s : State) (a v b i : Nat) (h : b ≠ a) : (s.setReg a v).rbit b i = s.rbit b i := by
  rw [State.rbit, State.reg_setReg_of_ne s a v b h, State.rbit]

/-- Writing a bit leaves every other bit of its register. -/
theorem State.rbit_setRbit_of_ne (s : State) (a i j : Nat) (b : Bool) (hi : i < 32) (h : i < j ∨ j < i) :
    (s.setRbit a i b).rbit a j = s.rbit a j := by
  rw [State.rbit_eq_rf, State.rbit_eq_rf, State.setRbit, State.rf_setRf_of_disjoint s a i i _ j j (Nat.le_refl i) hi h]

theorem State.reg_setRbit_of_ne (s : State) (a i : Nat) (b : Bool) (c : Nat) (h : c ≠ a) : (s.setRbit a i b).reg c = s.reg c :=
  s.reg_setRf_of_ne a i i _ c h

-- the flips

/-- A slot whose shadow map is not loaded is not flipped. -/
theorem State.flipSlot_not_loaded {s : State} {sl : Nat} (h : s.mapStat sl 1 = false) : s.flipSlot true false sl = s := by
  simp [State.flipSlot, h]

section
variable {s : State} {sl : Nat} (h : s.mapStat sl 1 = true) (hl : s.mapLoading sl = false)
include h hl

theorem State.flipSlot_loaded : s.flipSlot true false sl
    = ((s.setMapStat sl 0 true).setMapStat sl 1 false).setReg (0x31000 + 8 * sl) (s.mapEpoch sl + 1) := by
  simp [State.flipSlot, h, hl]

theorem State.mapEpoch_flipSlot : (s.flipSlot true false sl).mapEpoch sl = (s.mapEpoch sl + 1) % 2 ^ 32 := by
  rw [State.flipSlot_loaded h hl, State.mapEpoch, State.reg_setReg, if_pos rfl]

theorem State.live_flipSlot : (s.flipSlot true false sl).mapStat sl 0 = true := by
  rw [State.flipSlot_loaded h hl, State.mapStat, State.rbit_setReg_of_ne _ _ _ _ _ (by omega), State.setMapStat,
    State.rbit_setRbit_of_ne _ _ _ _ _ (by decide) (by decide)]
  exact State.rbit_setRbit s _ 0 true (by decide)

theorem State.shadow_flipSlot : (s.flipSlot true false sl).mapStat sl 1 = false := by
  rw [State.flipSlot_loaded h hl, State.mapStat, State.rbit_setReg_of_ne _ _ _ _ _ (by omega)]
  exact State.rbit_setRbit _ _ 1 false (by decide)

end

/-- FU tables whose shadow bank is not loaded are not flipped. -/
theorem State.flipFu_not_loaded {s : State} (h : s.rbit 0x80004 1 = false) : s.flipFu = s := by
  simp [State.flipFu, h]

section
variable {s : State} (h : s.rbit 0x80004 1 = true) (hl : s.anyStarted (fun _ x => x.op == 0x4C) = false)
include h hl

theorem State.flipFu_loaded : s.flipFu
    = (((s.setReg 0x80000 (s.reg 0x80000 + 1)).setRbit 0x80004 1 false).setRbit 0x80004 0 true).setRbit 0x80004 3 false := by
  simp [State.flipFu, h, hl]

theorem State.epoch_flipFu : s.flipFu.reg 0x80000 = (s.reg 0x80000 + 1) % 2 ^ 32 := by
  rw [State.flipFu_loaded h hl]
  iterate 3 rw [State.reg_setRbit_of_ne _ _ _ _ _ (by decide)]
  rw [State.reg_setReg, if_pos rfl]

/-- KFU_STAT after a flip: the shadow bank and the damage are no longer marked, and the tables are live. -/
theorem State.stat_flipFu :
    s.flipFu.rbit 0x80004 1 = false ∧ s.flipFu.rbit 0x80004 3 = false ∧ s.flipFu.rbit 0x80004 0 = true := by
  rw [State.flipFu_loaded h hl]
  refine ⟨?_, State.rbit_setRbit _ _ 3 false (by decide), ?_⟩
  · rw [State.rbit_setRbit_of_ne _ _ 3 1 _ (by decide) (by decide), State.rbit_setRbit_of_ne _ _ 0 1 _ (by decide) (by decide)]
    exact State.rbit_setRbit _ _ 1 false (by decide)
  · rw [State.rbit_setRbit_of_ne _ _ 3 0 _ (by decide) (by decide)]
    exact State.rbit_setRbit _ _ 0 true (by decide)

end

-- its run

/-- Outside the Gantry a command runs on memory as it stands. -/
theorem State.shown_of_op (s : State) (q : Nat) (i : U32) (c : Cmd) (h : c.op < 0x30 ∨ 0x34 < c.op) : s.shown q i c = s :=
  if_pos (.inr h)

theorem exec_publish_of_runs {s : State} {q : Nat} {i : U32} {c : Cmd} (h : Runs s q i 0x4B c) :
    exec (.publish q i) s = .next (s.complete q i [.publish (fld (c.s 0) 7 0) (fld (c.s 0) 16 8) (bitOf (c.s 1) 0)
      (bitOf (c.s 1) 1) (bitOf (c.s 1) 2)]) := by
  change execPublish q i s = _
  rw [execPublish, State.runCmd_of_runs h, s.shown_of_op q i c (by simp [h.op])]

/-- Settles O15, by the equations of the two flips. -/
theorem publishFlipsLoadedBanks : Obligations.PublishFlipsLoadedBanks := by
  intro s q i c sl
  refine ⟨exec_publish_of_runs, fun _ h hl => ?_, State.flipSlot_not_loaded, fun h hl => ?_, State.flipFu_not_loaded⟩
  · exact ⟨State.mapEpoch_flipSlot h hl, State.live_flipSlot h hl, State.shadow_flipSlot h hl⟩
  · exact ⟨State.epoch_flipFu h hl, State.stat_flipFu h hl⟩

end Sys2Proof.Machine
end

section
/-! PROOFS. The sort of route records (R82, R99): which records it keeps, the keys of its buckets, and its counts. -/
namespace Sys2Proof.Machine

-- the keys of the buckets

theorem mem_insKey {k j : Nat} {l : List Nat} : j ∈ insKey k l ↔ j = k ∨ j ∈ l := by
  induction l with
  | nil => exact List.mem_cons
  | cons a l ih =>
    rw [insKey]
    split
    · exact List.mem_cons
    · split
      · next h => simp [h]
      · simp only [List.mem_cons, ih]
        exact or_left_comm

/-- Insertion keeps a list of keys strictly rising. -/
theorem insKey_pairwise (k : Nat) {l : List Nat} (h : l.Pairwise (· < ·)) : (insKey k l).Pairwise (· < ·) := by
  induction l with
  | nil => exact List.pairwise_singleton _ k
  | cons a l ih =>
    obtain ⟨ha, hl⟩ := List.pairwise_cons.1 h
    rw [insKey]
    split
    · next hk => exact List.pairwise_cons.2 ⟨List.forall_mem_cons.2 ⟨hk, fun j hj => Nat.lt_trans hk (ha j hj)⟩, h⟩
    · split
      · exact h
      · refine List.pairwise_cons.2 ⟨fun j hj => ?_, ih hl⟩
        rcases mem_insKey.1 hj with rfl | hj
        · omega
        · exact ha j hj

/-- The keys of some records, strictly rising and each once. -/
def keysOf (rs : List KRec) : List Nat := rs.foldl (fun l r => insKey r.key l) []

theorem mem_foldl_insKey {k : Nat} (rs : List KRec) (l : List Nat) :
    k ∈ rs.foldl (fun l r => insKey r.key l) l ↔ k ∈ l ∨ ∃ r ∈ rs, r.key = k := by
  induction rs generalizing l with
  | nil => simp
  | cons r rs ih =>
    simp only [List.foldl_cons, ih, mem_insKey, List.mem_cons, or_and_right, exists_or, exists_eq_left]
    rw [or_assoc, or_left_comm, eq_comm (a := k)]

theorem mem_keysOf {k : Nat} {rs : List KRec} : k ∈ keysOf rs ↔ ∃ r ∈ rs, r.key = k :=
  (mem_foldl_insKey rs []).trans (or_iff_right List.not_mem_nil)

theorem keysOf_pairwise (rs : List KRec) : (keysOf rs).Pairwise (· < ·) :=
  List.foldlRecOn rs _ (motive := List.Pairwise (· < ·)) List.Pairwise.nil fun _ h r _ => insKey_pairwise r.key h

/-- What a condition keeps of a list and what it leaves out are as many as the list. -/
theorem length_filter_add_filter_not {α : Type} (p : α → Bool) (l : List α) :
    (l.filter p).length + (l.filter (fun a => !p a)).length = l.length := by
  have hnot : (fun a => decide ¬p a = true) = fun a => !p a := funext fun a => by cases p a <;> rfl
  rw [List.length_eq_countP_add_countP p (l := l), hnot, List.countP_eq_length_filter, List.countP_eq_length_filter]

/-- Records are as many as those of each key together, over rising keys that name every record. -/
theorem sum_length_filter_key {ks : List Nat} (hks : ks.Pairwise (· < ·)) (rs : List KRec) (h : ∀ r ∈ rs, r.key ∈ ks) :
    (ks.map (fun k => (rs.filter (fun r => r.key == k)).length)).sum = rs.length := by
  induction ks generalizing rs with
  | nil => rw [List.eq_nil_iff_forall_not_mem.2 fun r hr => List.not_mem_nil (h r hr)]; rfl
  | cons k ks ih =>
    obtain ⟨hk, hks⟩ := List.pairwise_cons.1 hks
    have hrest : ∀ r ∈ rs.filter (fun r => !r.key == k), r.key ∈ ks := fun r hr => by
      obtain ⟨hmem, hne⟩ := List.mem_filter.1 hr
      exact (List.mem_cons.1 (h r hmem)).resolve_left (by simpa using hne)
    have hlater : ∀ j ∈ ks, ((rs.filter (fun r => !r.key == k)).filter (fun r => r.key == j)).length
        = (rs.filter (fun r => r.key == j)).length := fun j hj => by
      rw [List.filter_filter]
      refine congrArg List.length (List.filter_congr fun r _ => ?_)
      by_cases hr : r.key = j
      · have := hk j hj
        simp only [hr, beq_self_eq_true, Bool.true_and, Bool.not_eq_true', beq_eq_false_iff_ne]
        omega
      · simp only [beq_eq_false_iff_ne.2 hr, Bool.false_and]
    rw [List.map_cons, List.sum_cons, ← List.map_congr_left hlater, ih hks _ hrest]
    exact length_filter_add_filter_not (fun r => r.key == k) rs

/-- The records are as many as those of each of their keys together. -/
theorem sum_length_filter_keysOf (rs : List KRec) :
    ((keysOf rs).map (fun k => (rs.filter (fun r => r.key == k)).length)).sum = rs.length :=
  sum_length_filter_key (keysOf_pairwise rs) rs fun r hr => mem_keysOf.2 ⟨r, hr, rfl⟩

-- the records that are kept

/-- The records that a capacity of c keeps of rs, after records of the keys seen. -/
def keptAfter (c : Nat) (seen : List Nat) (rs : List KRec) : List KRec :=
  ((rankAll seen rs).filter (fun p => !p.2.nolive && decide (p.1 < c))).map (fun p => p.2)

theorem keptAfter_nolive (c : Nat) (seen : List Nat) {r : KRec} (rs : List KRec) (h : r.nolive = true) :
    keptAfter c seen (r :: rs) = keptAfter c seen rs := by
  simp [keptAfter, rankAll, h]

theorem keptAfter_live (c : Nat) (seen : List Nat) {r : KRec} (rs : List KRec) (h : r.nolive = false) :
    keptAfter c seen (r :: rs)
      = if seen.count r.key < c then r :: keptAfter c (r.key :: seen) rs else keptAfter c (r.key :: seen) rs := by
  rw [List.count_eq_length_filter]
  split <;> simp [keptAfter, rankAll, *]

/-- Of each key the first records are kept, as many as the capacity leaves after those seen (R82). -/
theorem filter_key_keptAfter (c k : Nat) (seen : List Nat) (rs : List KRec) :
    (keptAfter c seen rs).filter (fun r => r.key == k)
      = (rs.filter (fun r => !r.nolive && r.key == k)).take (c - seen.count k) := by
  induction rs generalizing seen with
  | nil => simp [keptAfter, rankAll]
  | cons r rs ih =>
    cases hl : r.nolive with
    | true => rw [keptAfter_nolive c seen rs hl, ih, List.filter_cons_of_neg (by simp [hl])]
    | false =>
      rw [keptAfter_live c seen rs hl]
      by_cases hk : r.key = k
      · subst hk
        rw [List.filter_cons_of_pos (by simp [hl])]
        split
        · next hc =>
          obtain ⟨m, hm⟩ : ∃ m, c - seen.count r.key = m + 1 := ⟨_, (Nat.sub_add_cancel (Nat.sub_pos_of_lt hc)).symm⟩
          rw [List.filter_cons_of_pos (by simp), ih, List.count_cons_self, ← Nat.sub_sub, hm, List.take_succ_cons]
          rfl
        · rw [ih, List.count_cons_self, Nat.sub_eq_zero_of_le (by omega), Nat.sub_eq_zero_of_le (by omega), List.take_zero,
            List.take_zero]
      · rw [List.filter_cons_of_neg (by simp [hk])]
        split
        · rw [List.filter_cons_of_neg (by simp [hk]), ih, List.count_cons_of_ne hk]
        · rw [ih, List.count_cons_of_ne hk]

theorem length_rankAll (seen : List Nat) (rs : List KRec) : (rankAll seen rs).length = rs.length := by
  induction rs generalizing seen with
  | nil => rfl
  | cons r rs ih => rw [rankAll]; split <;> simp [ih]

-- the sorted result

/-- The buckets of the sort: one for each key of the kept records, with those of its key. -/
theorem sortRecs_buckets (c : Nat) (rs : List KRec) :
    (sortRecs c rs).buckets
      = (keysOf (keptAfter c [] rs)).map (fun k => ⟨k, (keptAfter c [] rs).filter (fun r => r.key == k)⟩) := rfl

theorem map_key_buckets (c : Nat) (rs : List KRec) :
    (sortRecs c rs).buckets.map (fun b => b.key) = keysOf (keptAfter c [] rs) := by
  rw [sortRecs_buckets, List.map_map]
  exact List.map_id _

/-- A bucket holds the first c records of its key, and its key is that of a kept record. -/
theorem recs_of_mem_buckets {c : Nat} {rs : List KRec} {b : Bucket} (h : b ∈ (sortRecs c rs).buckets) :
    b.recs = (rs.filter (fun r => !r.nolive && r.key == b.key)).take c ∧ b.recs ≠ [] := by
  rw [sortRecs_buckets] at h
  obtain ⟨k, hk, rfl⟩ := List.mem_map.1 h
  obtain ⟨r, hr, hrk⟩ := mem_keysOf.1 hk
  exact ⟨filter_key_keptAfter c k [] rs, List.ne_nil_of_mem (List.mem_filter.2 ⟨hr, by simp [hrk]⟩)⟩

/-- With a capacity above 0, each key of a record with a live replica has a bucket. -/
theorem key_mem_keysOf_kept {c : Nat} {rs : List KRec} {r : KRec} (hr : r ∈ rs) (hl : r.nolive = false) (hc : 0 < c) :
    r.key ∈ keysOf (keptAfter c [] rs) := by
  have hfirst : r ∈ rs.filter (fun x => !x.nolive && x.key == r.key) := List.mem_filter.2 ⟨hr, by simp [hl]⟩
  have hsome : (keptAfter c [] rs).filter (fun x => x.key == r.key) ≠ [] := by
    rw [filter_key_keptAfter, List.count_nil, Nat.sub_zero]
    exact fun h => (List.take_eq_nil_iff.1 h).elim (Nat.ne_of_gt hc) (List.ne_nil_of_mem hfirst)
  obtain ⟨x, hx⟩ := List.exists_mem_of_ne_nil _ hsome
  obtain ⟨hmem, hkey⟩ := List.mem_filter.1 hx
  exact mem_keysOf.2 ⟨x, hmem, by simpa using hkey⟩

/-- Each record is kept in one bucket or dropped. -/
theorem length_kept_add_dropped (c : Nat) (rs : List KRec) :
    (keptAfter c [] rs).length + (sortRecs c rs).dropped.length = rs.length := by
  have hdrop : (fun p : Nat × KRec => p.2.nolive || decide (c ≤ p.1)) = fun p => !(!p.2.nolive && decide (p.1 < c)) := by
    funext p
    rw [Bool.not_and, Bool.not_not, ← decide_not, decide_eq_decide.2 Nat.not_lt]
  rw [← length_rankAll [] rs, keptAfter, sortRecs, List.length_map, List.length_map, hdrop]
  exact length_filter_add_filter_not _ _

/-- Settles O20: the keys of the buckets are those of the kept records, and of each key the kept records are the first c
(`filter_key_keptAfter`). -/
theorem sortKeepsFirstOfEachBucket : Obligations.SortKeepsFirstOfEachBucket := by
  intro c rs
  refine ⟨?_, fun b hb => (recs_of_mem_buckets hb).symm, fun r hr hl hc => ?_, ?_⟩
  · rw [map_key_buckets]
    exact keysOf_pairwise _
  · exact List.mem_map.1 (map_key_buckets c rs ▸ key_mem_keysOf_kept hr hl hc)
  · rw [sortRecs_buckets, List.map_map, ← length_kept_add_dropped c rs, ← sum_length_filter_keysOf (keptAfter c [] rs)]
    rfl

end Sys2Proof.Machine
end

section
/-! PROOFS. COUNT_XCHG (R85, R165): its run once phase 1 is in. -/
namespace Sys2Proof.Machine

-- a command of a queue

theorem State.findCmd_idx {s : State} {q : Nat} {i : U32} {c : Cmd} (h : s.findCmd q i = some c) : c.idx = i := by
  simpa using List.find?_some h

/-- An update of a command is found, where it keeps the index. -/
theorem State.findCmd_updCmd {s : State} {q : Nat} {i : U32} {c : Cmd} (h : s.findCmd q i = some c) (g : Cmd → Cmd)
    (hg : ∀ x, (g x).idx = x.idx) : (s.updCmd q i g).findCmd q i = some (g c) := by
  rw [State.findCmd, State.updCmd, State.setQueue, State.queue, FMap.get_set, if_pos rfl]
  exact find?_map_update h _ g (State.findCmd_idx h) fun x => by rw [hg]

theorem State.findCmd_of_queues {s t : State} (h : t.queues = s.queues) (q : Nat) (i : U32) : t.findCmd q i = s.findCmd q i := by
  rw [State.findCmd, State.queue, h, State.findCmd, State.queue]

-- memory and the queues apart

/-- A change of the queues is apart from what a command moves. -/
theorem OnlyMemory.of_queues {s t u : State} (hq : t = { s with queues := t.queues }) (h : Moved t u) : OnlyMemory s u := by
  have hinj : Injected s t := by rw [hq]; exact .refl s
  exact ⟨by rw [h.only, hq], hinj.trans h.inj⟩

theorem State.mem_wr_congr {s t : State} (h : t.mem = s.mem) (bs : List Byte) (a : Nat) : (t.wr a bs).mem = (s.wr a bs).mem := by
  induction bs generalizing s t a with
  | nil => exact h
  | cons b bs ih => exact ih (by simp only [State.wr8, h]) (a + 1)

/-- What writes leave in memory depends on memory alone. -/
theorem State.mem_puts_congr {s t : State} (h : t.mem = s.mem) (ws : List (Nat × List Byte)) :
    (t.puts ws).mem = (s.puts ws).mem := by
  induction ws generalizing s t with
  | nil => exact h
  | cons w ws ih => exact ih (State.mem_wr_congr h w.2 w.1)

-- the run of COUNT_XCHG

/-- The FIRST and COUNT of each bucket of a COUNT_XCHG, with the answer of its owner. -/
def State.cxAnswers (s : State) (own : Nat) (c : Cmd) (e : Exch) : List ((Nat × Nat) × Nat × Nat) :=
  (s.bucketsOf (s.dsc own c 2) (s.destHdr (s.dsc own c 2))).map
    (fun b => (b.2.2.2.2, (bucketAnswer e.ph1 b.1 b.2.1).getD (0, 0)))

/-- The record updates of some answers (R85). -/
def cxUpdates (ans : List ((Nat × Nat) × Nat × Nat)) : List RecUpd := ans.flatMap (fun p => bucketUpd p.1.1 p.1.2 p.2.1 p.2.2)

/-- The offset table of some answers: the base row of each bucket, and its rows (R165). -/
def cxOffsets (ans : List ((Nat × Nat) × Nat × Nat)) : List Byte := ans.flatMap (fun p => wordsBytes [p.2.1, min p.2.2 p.1.2])

/-- The state with the record updates in the command and the offset table in memory, charged. -/
def State.cxDone (s : State) (own q : Nat) (c : Cmd) (ans : List ((Nat × Nat) × Nat × Nat)) : State :=
  ((((s.updCmd q c.idx (fun x => { x with recs := cxUpdates ans })).puts ((s.dsc own c 5).put 0 (cxOffsets ans))).charge own
    [2]).chargeRows own 9 (cxUpdates ans).length 8 (s.dsc own c 1).half)

/-- A COUNT_XCHG is answered: its phase 0 is sent, every member has answered without a mismatch, each bucket has its owner's
answer, and its slabs are acknowledged (R165). -/
structure CxAnswered (s : State) (own q : Nat) (c : Cmd) (e : Exch) : Prop where
  bound   : s.findExch own c.gen c.xid = some e
  sent    : e.cx0 = true
  members : ∀ m ∈ (s.readXb (s.dsc own c 3)).members, ∃ p ∈ e.ph1, p.src = m
  idle    : s.txBusy q c.idx = false
  agrees  : ∀ p ∈ e.ph1, p.mis = false
  buckets : ∀ b ∈ s.bucketsOf (s.dsc own c 2) (s.destHdr (s.dsc own c 2)), (bucketAnswer e.ph1 b.1 b.2.1).isSome = true

section
variable {s : State} {own q : Nat} {c : Cmd} {e : Exch}

theorem CxAnswered.runCount (h : CxAnswered s own q c e) :
    runCount s own q c = .done (s.cxDone own q c (s.cxAnswers own c e))
      [.count 4 ((cxUpdates (s.cxAnswers own c e)).filter (fun u => !u.adm)).length, .xchgDone c.gen c.xid] := by
  obtain ⟨hbound, hsent, hmem, hidle, hmis, hans⟩ := h
  have hall : ((s.readXb (s.dsc own c 3)).members.any fun m => !e.ph1.any fun p => p.src == m) = false := by
    simpa using hmem
  have hagree : e.ph1.any (fun m => m.mis) = false := by simpa using hmis
  have hnone : (s.bucketsOf (s.dsc own c 2) (s.destHdr (s.dsc own c 2))).find?
      (fun b => (bucketAnswer e.ph1 b.1 b.2.1).isNone) = none := by
    rw [List.find?_eq_none]
    exact fun b hb => by simp [Option.isSome_iff_ne_none.1 (hans b hb)]
  simp only [Machine.runCount, hbound, hsent, hall, hidle, hagree, hnone, Bool.not_true, Bool.false_eq_true, or_self, if_false]
  rfl

/-- The end of a COUNT_XCHG moves no more than its record updates in the queue and its offset table in memory. -/
theorem State.moved_cxDone (s : State) (own q : Nat) (c : Cmd) (ans : List ((Nat × Nat) × Nat × Nat)) :
    Moved (s.updCmd q c.idx (fun x => { x with recs := cxUpdates ans })) (s.cxDone own q c ans) :=
  (((Moved.refl _).puts _).charge _ _).chargeRows _ _ _ _ _

theorem State.onlyMemory_cxDone (s : State) (own q : Nat) (c : Cmd) (ans : List ((Nat × Nat) × Nat × Nat)) :
    OnlyMemory s (s.cxDone own q c ans) :=
  .of_queues rfl (s.moved_cxDone own q c ans)

theorem State.mem_cxDone (s : State) (own q : Nat) (c : Cmd) (ans : List ((Nat × Nat) × Nat × Nat)) :
    (s.cxDone own q c ans).mem = (s.strWr (s.dsc own c 5) 0 (cxOffsets ans)).mem := by
  rw [State.cxDone, State.mem_chargeRows, State.mem_charge]
  refine State.mem_puts_congr ?_ _
  rfl

theorem State.findCmd_cxDone (h : s.findCmd q c.idx = some c) (ans : List ((Nat × Nat) × Nat × Nat)) :
    (s.cxDone own q c ans).findCmd q c.idx = some { c with recs := cxUpdates ans } :=
  (State.findCmd_of_queues (s.moved_cxDone own q c ans).onlyMemory.2 q c.idx).trans
    (State.findCmd_updCmd h _ fun _ => rfl)

theorem exec_countXchg_answered (h : Runs s q c.idx 0x15 c) (ha : CxAnswered s (s.owner q) q c e) :
    exec (.countXchg q c.idx) s = .next ((s.cxDone (s.owner q) q c (s.cxAnswers (s.owner q) c e)).complete q c.idx
      [.count 4 ((cxUpdates (s.cxAnswers (s.owner q) c e)).filter (fun u => !u.adm)).length, .xchgDone c.gen c.xid]) := by
  change execCountXchg q c.idx s = _
  rw [execCountXchg, State.runCmd_of_runs h, s.shown_of_op q c.idx c (by simp [h.op])]
  simp only [ha.runCount]

end

/-- Settles O23: the run of an answered COUNT_XCHG (`CxAnswered.runCount`), and what its end leaves in the queue and in
memory. -/
theorem countXchgFixesRows : Obligations.CountXchgFixesRows := by
  intro s q i c own e bs ans ups hrun hown hbound hsent hmem hidle hmis hbs hans hansEq hups
  obtain rfl := State.findCmd_idx hrun.found
  subst hown hbs hansEq hups
  exact ⟨_, exec_countXchg_answered hrun ⟨hbound, hsent, hmem, hidle, hmis, hans⟩, s.onlyMemory_cxDone _ q c _,
    State.findCmd_cxDone hrun.found _, s.mem_cxDone _ q c _⟩

end Sys2Proof.Machine
end

section
/-! PROOFS. COMBINE (R153 to R157): the values of an output row, the one row that a step of its run writes, and the run. -/
namespace Sys2Proof.Machine

-- what is read, and what writes leave alone

theorem State.strRd_congr {s u : State} {d : Desc} {k n : Nat}
    (h : ∀ i, i < n → u.rd8 (d.byteAt (k + i)) = s.rd8 (d.byteAt (k + i))) : u.strRd d k n = s.strRd d k n :=
  List.map_congr_left fun i hi => h i (List.mem_range.1 hi)

theorem State.regs_wr (bs : List Byte) (s : State) (a : Nat) : (s.wr a bs).regs = s.regs := by
  induction bs generalizing s a with
  | nil => rfl
  | cons b bs ih => exact ih _ _

theorem State.regs_puts (ws : List (Nat × List Byte)) (s : State) : (s.puts ws).regs = s.regs := by
  induction ws generalizing s with
  | nil => rfl
  | cons w ws ih => exact (ih _).trans (s.regs_wr w.2 w.1)

theorem flatMap_congr_of_mem {α β : Type} {l : List α} {f g : α → List β} (h : ∀ x ∈ l, f x = g x) :
    l.flatMap f = l.flatMap g := by
  rw [List.flatMap_def, List.flatMap_def, List.map_congr_left h]

-- packed rows

theorem isMx_of_isFloat {fmt : Nat} (h : isFloat fmt = true) : isMx fmt = false := by
  have hle : fmt ≤ 2 := of_decide_eq_true h
  simp only [isMx, Bool.and_eq_false_iff, decide_eq_false_iff_not]
  omega

theorem length_flatMap_natLe (n : Nat) (xs : List Nat) : (xs.flatMap (natLe n)).length = xs.length * n := by
  induction xs with
  | nil => exact (Nat.zero_mul n).symm
  | cons x xs ih => rw [List.flatMap_cons, List.length_append, length_natLe, ih, List.length_cons, Nat.succ_mul, Nat.add_comm]

theorem length_rowPack {fmt : Nat} (h : isFloat fmt = true) (vs : List K36) :
    (rowPack fmt vs).1.length = vs.length * ebOf fmt := by
  rw [rowPack, if_neg (ne_true_of_eq_false (isMx_of_isFloat h))]
  exact (length_flatMap_natLe _ _).trans (by rw [List.length_map])

/-- The bytes that a write into a byte string stores: as one run of addresses, or one by one. -/
theorem Desc.touches_put_iff (d : Desc) (k : Nat) (bs : List Byte) (a : Nat) :
    touches (d.put k bs) a ↔
      if d.layout = 0 ∧ (k % d.rowB + bs.length ≤ d.rowB ∨ d.rows ≤ 1) then
        ∃ i, i < bs.length ∧ (d.byteAt k + i) % addrMod = a % addrMod
      else ∃ i, i < bs.length ∧ d.byteAt (k + i) % addrMod = a % addrMod := by
  rw [Desc.put]
  split
  next =>
    constructor
    · rintro ⟨w, hw, hi⟩
      obtain rfl := List.mem_singleton.1 hw
      exact hi
    · exact fun hi => ⟨_, List.mem_singleton.2 rfl, hi⟩
  next =>
    constructor
    · rintro ⟨w, hw, j, hj, ha⟩
      obtain ⟨i, hi, rfl⟩ := List.mem_map.1 hw
      obtain rfl : j = 0 := Nat.lt_one_iff.1 hj
      exact ⟨i, List.mem_range.1 hi, ha⟩
    · rintro ⟨i, hi, ha⟩
      exact ⟨_, List.mem_map.2 ⟨i, List.mem_range.2 hi, rfl⟩, 0, Nat.zero_lt_one, ha⟩

/-- Where a write into a byte string lands depends on the number of its bytes alone. -/
theorem Desc.touches_put_congr (d : Desc) (k : Nat) {bs cs : List Byte} (h : bs.length = cs.length) (a : Nat) :
    touches (d.put k bs) a ↔ touches (d.put k cs) a := by
  rw [d.touches_put_iff k bs, d.touches_put_iff k cs, h]

/-- The writes that zero the first n rows of a tensor of floats: they touch every byte of those rows. -/
def Desc.zeroRows (d : Desc) (n : Nat) : List (Nat × List Byte) :=
  d.rowsPut n (fun _ => List.replicate (d.d0 * ebOf d.fmt) 0)

/-- A row of values lands in its row. -/
theorem Desc.touches_zeroRows {d : Desc} (hf : isFloat d.fmt = true) {n r : Nat} (hr : r < n) {vs : List K36}
    (hvs : vs.length = d.d0) {a : Nat} (h : touches (d.put (r * d.rowB) (rowPack d.fmt vs).1) a) :
    touches (d.zeroRows n) a := by
  have hlen : (rowPack d.fmt vs).1.length = (List.replicate (d.d0 * ebOf d.fmt) (0 : Byte)).length := by
    rw [length_rowPack hf, hvs, List.length_replicate]
  obtain ⟨w, hw, hk⟩ := (d.touches_put_congr _ hlen a).1 h
  exact ⟨w, List.mem_flatMap.2 ⟨r, List.mem_range.2 hr, hw⟩, hk⟩

-- the sum of one row (R155, R156)

/-- Element x of a row: the sum, from 0, of weight times answer over some answers in their order (R155). -/
def sumAt (ws : List (K36 × List K36)) (x : Nat) : K36 := ws.foldl (fun a p => kFma p.1 (p.2.getD x 0) a) 0

/-- A token without an answer gives a row of zeros. -/
theorem map_sumAt_nil (n : Nat) : (List.range n).map (sumAt []) = List.replicate n 0 :=
  (List.map_const' ..).trans (congrArg (List.replicate · 0) List.length_range)

theorem sumAt_map_chunk (ws : List (K36 × List K36)) (c : Nat) {n i : Nat} (h : i < n) :
    sumAt (ws.map (fun p => (p.1, (p.2.drop c).take n))) i = sumAt ws (c + i) := by
  simp only [sumAt, List.foldl_map, List.getD_eq_getElem?_getD, List.getElem?_take_of_lt h, List.getElem?_drop]

theorem sumChunk_map_chunk (ws : List (K36 × List K36)) (c n : Nat) :
    sumChunk (ws.map (fun p => (p.1, (p.2.drop c).take n))) n = (List.range n).map (fun i => sumAt ws (c + i)) :=
  List.map_congr_left fun _ hi => sumAt_map_chunk ws c (List.mem_range.1 hi)

theorem length_sumChunk (ws : List (K36 × List K36)) (n : Nat) : (sumChunk ws n).length = n := by
  rw [sumChunk, List.length_map, List.length_range]

/-- k chunks of 512 from element c on, of a row of h elements. -/
theorem length_sumRow (ord : Bool) (h k c fr : Nat) (ws : List (K36 × List K36)) :
    (sumRow ord h k c fr ws).1.length = min (512 * k) (h - c) := by
  induction k generalizing c fr with
  | zero => exact (Nat.zero_min _).symm
  | succ k ih =>
    simp only [sumRow, List.length_append, length_sumChunk, ih]
    omega

/-- In ordered mode, or with no two answers to choose between, every chunk sums the answers in the order given (R156). -/
theorem sumRow_of_fixed_order {ord : Bool} {ws : List (K36 × List K36)} (ho : ord = true ∨ ws.length ≤ 1)
    (h k c fr : Nat) :
    (sumRow ord h k c fr ws).1 = (List.range (min (512 * k) (h - c))).map (fun i => sumAt ws (c + i)) := by
  induction k generalizing c fr with
  | zero => rw [Nat.mul_zero, Nat.zero_min, sumRow, List.range_zero, List.map_nil]
  | succ k ih =>
    have horder : (if ord then (ws, fr) else pickOrder (ws.length - 1) fr ws) = (ws, fr) := by
      rcases ho with ho | ho
      · exact if_pos ho
      · rw [Nat.sub_eq_zero_of_le ho, pickOrder, ite_self]
    have hsplit : min (512 * (k + 1)) (h - c) = min 512 (h - c) + min (512 * k) (h - (c + 512)) := by omega
    rw [hsplit, List.range_add, List.map_append, List.map_map, sumRow, horder]
    dsimp only
    rw [sumChunk_map_chunk, ih]
    refine congrArg (_ ++ ·) (List.map_congr_left fun i hi => ?_)
    have hfull : min 512 (h - c) = 512 := by have := List.mem_range.1 hi; omega
    rw [Function.comp_apply, hfull, Nat.add_assoc]

-- the values of an output row (R155, R157)

section
variable (d : Desc) (e rfmt h : Nat) (ps : List Desc) (tab : List (Nat × Nat × Nat))

/-- The answers of token t that are present, each with its weight, in ascending k. -/
def State.cmbAns (s : State) (t : Nat) : List (K36 × List K36) :=
  (List.range ps.length).flatMap (fun k =>
    ((tab.filter (fun x => x.1 == t && x.2.1 == k)).getLast?.map (fun x => (kOf32 x.2.2, rowVals rfmt h
      (s.strRd (ps.getD k default) (t * (ps.getD k default).rowB) (h * ebOf rfmt))))).toList)

/-- The h values of output row t: NaN for a token whose row was NaN, else the sums in ascending k. -/
def State.cmbVals (s : State) (t : Nat) : List K36 :=
  if bitOf (s.strLe d (destTstat e + t) 1) 4 then List.replicate h kNaN
  else (List.range h).map (sumAt (s.cmbAns rfmt h ps tab t))

theorem State.cmbVals_nan {s : State} {t : Nat} (hn : bitOf (s.strLe d (destTstat e + t) 1) 4 = true) :
    s.cmbVals d e rfmt h ps tab t = List.replicate h kNaN := if_pos hn

theorem State.cmbVals_sum {s : State} {t : Nat} (hn : bitOf (s.strLe d (destTstat e + t) 1) 4 = false) :
    s.cmbVals d e rfmt h ps tab t = (List.range h).map (sumAt (s.cmbAns rfmt h ps tab t)) := by
  rw [State.cmbVals, hn]
  rfl

end

section
variable {d : Desc} {e rfmt : Nat} {ps : List Desc} {tab : List (Nat × Nat × Nat)}

/-- Some writes leave what COMBINE reads for its first n tokens: the token statuses, and the answers in the planes. -/
structure CmbClear (d : Desc) (e rfmt h n : Nat) (ps : List Desc) (ws : List (Nat × List Byte)) : Prop where
  stats  : ∀ t, t < n → ¬ touches ws (d.byteAt (destTstat e + t))
  planes : ∀ t pd o, t < n → pd ∈ ps → o < h * ebOf rfmt → ¬ touches ws (pd.byteAt (t * pd.rowB + o))

section
variable {s u : State} {h n t : Nat} {ws : List (Nat × List Byte)} (hc : CmbClear d e rfmt h n ps ws)
  (hu : ∀ a, ¬ touches ws a → u.rd8 a = s.rd8 a) (ht : t < n)
include hc hu ht

theorem CmbClear.strLe_stat : u.strLe d (destTstat e + t) 1 = s.strLe d (destTstat e + t) 1 :=
  congrArg leNat (State.strRd_congr fun i hi => by
    obtain rfl : i = 0 := by omega
    exact hu _ (hc.stats t ht))

theorem CmbClear.cmbAns_eq : u.cmbAns rfmt h ps tab t = s.cmbAns rfmt h ps tab t := by
  refine flatMap_congr_of_mem fun k hk => ?_
  have hmem : ps.getD k default ∈ ps := by
    rw [List.getD_eq_getElem?_getD, List.getElem?_eq_getElem (List.mem_range.1 hk), Option.getD_some]
    exact List.getElem_mem _
  rw [State.strRd_congr fun o ho => hu _ (hc.planes t _ o ht hmem ho)]

theorem CmbClear.cmbVals_eq : u.cmbVals d e rfmt h ps tab t = s.cmbVals d e rfmt h ps tab t := by
  rw [State.cmbVals, hc.strLe_stat hu ht, hc.cmbAns_eq hu ht, State.cmbVals]

end

-- one row of the run

/-- The k slots of token t that have an admitted record, each with its weight, in ascending k, as `cmbRow` lists them. -/
def cmbSlots (tab : List (Nat × Nat × Nat)) (n t : Nat) : List (Nat × Nat) :=
  (List.range n).flatMap (fun k => match ((tab.filter (fun x => x.1 == t)).filter (fun x => x.2.1 == k)).getLast? with
    | some x => [(k, x.2.2)]
    | none => [])

theorem cmbSlots_nil (n t : Nat) : cmbSlots [] n t = [] :=
  List.flatMap_eq_nil_iff.2 fun _ _ => rfl

/-- The answers of token t read at its slots. -/
def State.slotAns (s : State) (rfmt h : Nat) (ps : List Desc) (t : Nat) (l : List (Nat × Nat)) : List (K36 × List K36) :=
  l.map (fun p => (kOf32 p.2, rowVals rfmt h
    (s.strRd (ps.getD p.1 default) (t * (ps.getD p.1 default).rowB) (h * ebOf rfmt))))

theorem State.slotAns_cmbSlots (s : State) (h t : Nat) :
    s.slotAns rfmt h ps t (cmbSlots tab ps.length t) = s.cmbAns rfmt h ps tab t := by
  rw [State.slotAns, cmbSlots, List.map_flatMap, State.cmbAns]
  refine flatMap_congr_of_mem fun k _ => ?_
  rw [List.filter_filter, List.filter_congr fun x _ => Bool.and_comm _ _]
  cases (tab.filter (fun x => x.1 == t && x.2.1 == k)).getLast? <;> rfl

/-- The sums of a row chunk by chunk, in the order that the mode gives, and the next free number (R156). -/
def State.cmbSum (s : State) (own h : Nat) (ws : List (K36 × List K36)) : List K36 × Nat :=
  sumRow (s.rbit (win own + 0x700) 0) h ((h + 511) / 512) 0 s.free ws

theorem State.length_cmbSum (s : State) (own h : Nat) (ws : List (K36 × List K36)) : (s.cmbSum own h ws).1.length = h := by
  rw [State.cmbSum, length_sumRow]
  omega

theorem State.cmbSum_of_fixed_order {s : State} {own : Nat} {ws : List (K36 × List K36)}
    (ho : s.rbit (win own + 0x700) 0 = true ∨ ws.length ≤ 1) (h : Nat) :
    (s.cmbSum own h ws).1 = (List.range h).map (sumAt ws) := by
  have hcover : min (512 * ((h + 511) / 512)) (h - 0) = h := by omega
  rw [State.cmbSum, sumRow_of_fixed_order ho, hcover]
  simp only [Nat.zero_add]

section
variable {s : State} {own : Nat} {out : Desc} {t : Nat} {y : CmbTally}

theorem State.cmbRow_nan (hn : bitOf (s.strLe d (destTstat e + t) 1) 4 = true) :
    (s.cmbRow own d out e rfmt ps tab t y).2
      = s.strWr out (t * out.rowB) (rowPack out.fmt (List.replicate out.d0 kNaN)).1 := by
  rw [State.cmbRow]
  exact congrArg Prod.snd (if_pos hn)

theorem State.cmbRow_skip (hn : bitOf (s.strLe d (destTstat e + t) 1) 4 = false) (hs : cmbSlots tab ps.length t = []) :
    (s.cmbRow own d out e rfmt ps tab t y).2
      = s.strWr out (t * out.rowB) (rowPack out.fmt (List.replicate out.d0 0)).1 := by
  rw [State.cmbRow]
  exact congrArg Prod.snd ((if_neg (ne_true_of_eq_false hn)).trans (if_pos (List.isEmpty_iff.2 hs)))

theorem State.cmbRow_sum (hn : bitOf (s.strLe d (destTstat e + t) 1) 4 = false) (hs : cmbSlots tab ps.length t ≠ []) :
    (s.cmbRow own d out e rfmt ps tab t y).2
      = { s with free := (s.cmbSum own out.d0 (s.slotAns rfmt out.d0 ps t (cmbSlots tab ps.length t))).2 }.strWr out
          (t * out.rowB)
          (rowPack out.fmt (s.cmbSum own out.d0 (s.slotAns rfmt out.d0 ps t (cmbSlots tab ps.length t))).1).1 := by
  rw [State.cmbRow]
  exact congrArg Prod.snd ((if_neg (ne_true_of_eq_false hn)).trans (if_neg (mt List.isEmpty_iff.1 hs)))

end

variable (d e rfmt ps tab) in
/-- A step of the run stores one row of its output, of as many values as the output has elements, and takes free numbers; in
ordered mode, or with one answer at most, the values are those of R155 in ascending k. -/
theorem State.cmbRow_cases (s : State) (own : Nat) (out : Desc) (t : Nat) (y : CmbTally) :
    ∃ (vs : List K36) (fr : Nat), vs.length = out.d0
      ∧ (s.cmbRow own d out e rfmt ps tab t y).2 = { s with free := fr }.strWr out (t * out.rowB) (rowPack out.fmt vs).1
      ∧ (s.rbit (win own + 0x700) 0 = true ∨ (s.cmbAns rfmt out.d0 ps tab t).length ≤ 1 →
          vs = s.cmbVals d e rfmt out.d0 ps tab t) := by
  cases hn : bitOf (s.strLe d (destTstat e + t) 1) 4 with
  | true =>
    exact ⟨_, s.free, List.length_replicate, State.cmbRow_nan hn,
      fun _ => (State.cmbVals_nan d e rfmt _ ps tab hn).symm⟩
  | false =>
    rw [State.cmbVals_sum d e rfmt _ ps tab hn, ← s.slotAns_cmbSlots]
    by_cases hs : cmbSlots tab ps.length t = []
    · refine ⟨_, s.free, List.length_replicate, State.cmbRow_skip hn hs, fun _ => ?_⟩
      rw [hs, State.slotAns, List.map_nil, map_sumAt_nil]
    · exact ⟨_, _, s.length_cmbSum .., State.cmbRow_sum hn hs, fun ho => State.cmbSum_of_fixed_order ho _⟩

-- the run

section
variable {s : State} {own : Nat} {out : Desc}

theorem Moved.cmbRow {s0 : State} (hm : Moved s0 s) (t : Nat) (y : CmbTally) :
    Moved s0 (s.cmbRow own d out e rfmt ps tab t y).2 := by
  obtain ⟨vs, fr, -, hrow, -⟩ := s.cmbRow_cases d e rfmt ps tab own out t y
  rw [hrow]
  exact (hm.free fr).strWr _ _ _

theorem Moved.cmbRows {s0 : State} (hm : Moved s0 s) (k t : Nat) (y : CmbTally) :
    Moved s0 (s.cmbRows own d out e rfmt ps tab k t y).2 := by
  induction k generalizing s t y with
  | zero => exact hm
  | succ k ih => exact ih (hm.cmbRow t y) _ _

theorem State.regs_cmbRow (s : State) (t : Nat) (y : CmbTally) :
    (s.cmbRow own d out e rfmt ps tab t y).2.regs = s.regs := by
  obtain ⟨vs, fr, -, hrow, -⟩ := s.cmbRow_cases d e rfmt ps tab own out t y
  rw [hrow]
  exact State.regs_puts _ _

/-- A step of the run stores to no byte outside the rows of the output. -/
theorem State.rd8_cmbRow_out (hf : isFloat out.fmt = true) {n t : Nat} (ht : t < n) (y : CmbTally) {a : Nat}
    (ha : ¬ touches (out.zeroRows n) a) : (s.cmbRow own d out e rfmt ps tab t y).2.rd8 a = s.rd8 a := by
  obtain ⟨vs, fr, hlen, hrow, -⟩ := s.cmbRow_cases d e rfmt ps tab own out t y
  rw [hrow, State.strWr, State.rd8_puts_out _ _ _ fun h => ha (Desc.touches_zeroRows hf ht hlen h)]
  rfl

theorem State.rd8_cmbRows_out (hf : isFloat out.fmt = true) {n k t : Nat} (ht : t + k ≤ n) (y : CmbTally) {a : Nat}
    (ha : ¬ touches (out.zeroRows n) a) : (s.cmbRows own d out e rfmt ps tab k t y).2.rd8 a = s.rd8 a := by
  induction k generalizing s t y with
  | zero => rfl
  | succ k ih =>
    rw [State.cmbRows, ih (by omega), State.rd8_cmbRow_out hf (by omega) y ha]

/-- A step of the run stores the row of R155 in ascending k, in ordered mode or with one answer at most. -/
theorem State.mem_cmbRow {t : Nat} (y : CmbTally)
    (ho : s.rbit (win own + 0x700) 0 = true ∨ (s.cmbAns rfmt out.d0 ps tab t).length ≤ 1) :
    (s.cmbRow own d out e rfmt ps tab t y).2.mem
      = (s.strWr out (t * out.rowB) (rowPack out.fmt (s.cmbVals d e rfmt out.d0 ps tab t)).1).mem := by
  obtain ⟨vs, fr, -, hrow, hvs⟩ := s.cmbRow_cases d e rfmt ps tab own out t y
  rw [hrow, hvs ho]
  exact State.mem_puts_congr (s := s) (t := { s with free := fr }) rfl (out.put _ _)

/-- From a state u that agrees with s in its registers and outside the output, where the output stands clear of what is read
and no token leaves an order to choose: the run stores the rows of R155 as s has them. -/
theorem State.mem_cmbRows {u : State} {n k t : Nat} (hf : isFloat out.fmt = true)
    (hc : CmbClear d e rfmt out.d0 n ps (out.zeroRows n))
    (ho : s.rbit (win own + 0x700) 0 = true ∨ ∀ t, t < n → (s.cmbAns rfmt out.d0 ps tab t).length ≤ 1)
    (hreg : u.regs = s.regs) (hu : ∀ a, ¬ touches (out.zeroRows n) a → u.rd8 a = s.rd8 a) (ht : t + k ≤ n)
    (y : CmbTally) :
    (u.cmbRows own d out e rfmt ps tab k t y).2.mem = (u.puts ((List.range' t k).flatMap (fun r =>
      out.put (r * out.rowB) (rowPack out.fmt (s.cmbVals d e rfmt out.d0 ps tab r)).1))).mem := by
  induction k generalizing u t y with
  | zero => rfl
  | succ k ih =>
    have htn : t < n := by omega
    have hord : u.rbit (win own + 0x700) 0 = true ∨ (u.cmbAns rfmt out.d0 ps tab t).length ≤ 1 := by
      rw [State.rbit, State.reg_of_regs hreg, hc.cmbAns_eq hu htn]
      exact ho.imp id fun h => h t htn
    rw [State.cmbRows, ih ((State.regs_cmbRow u t y).trans hreg)
      (fun a ha => (State.rd8_cmbRow_out hf htn y ha).trans (hu a ha)) (by omega), List.range'_succ, List.flatMap_cons,
      State.puts_append, ← hc.cmbVals_eq hu htn]
    exact State.mem_puts_congr (State.mem_cmbRow y hord) _

end

end

-- the command

section
variable (s : State) (own : Nat) (c : Cmd)

/-- The planes of a COMBINE's exchange. -/
def State.cmbPlanes : List Desc := (s.readXb (s.dsc own c 3)).planes.map (fun p => s.desc own p)

/-- Its weight table (R154). -/
def State.cmbTab : List (Nat × Nat × Nat) := s.weightTab (s.dsc own c 1) (s.destHdr (s.dsc own c 2)).akept

/-- Its rows written: the tally, and the state. -/
def State.cmbRun : CmbTally × State :=
  s.cmbRows own (s.dsc own c 2) (s.dsc own c 4) (s.destHdr (s.dsc own c 2)).e (s.readXb (s.dsc own c 3)).rfmt
    (s.cmbPlanes own c) (s.cmbTab own c) (c.s 0) 0 {}

/-- Its rows written, counted and charged. -/
def State.cmbDone : State :=
  ((((((s.cmbRun own c).2.opCount 10 (s.readXb (s.dsc own c 3)).rfmt ((s.cmbRun own c).1.seen * (s.dsc own c 4).d0)).opCount
    11 (s.dsc own c 4).fmt (c.s 0 * (s.dsc own c 4).d0)).charge own [3]).chargeReads own
    (s.cmbReads own c (s.readXb (s.dsc own c 3)).rfmt (s.cmbPlanes own c) (s.cmbTab own c))).chargeRows own 9 (c.s 0)
    (s.dsc own c 4).rowB (s.dsc own c 4).half)

/-- What its commit does. -/
def State.cmbActs : List Act :=
  [.count 5 (s.cmbRun own c).1.skips, .count 6 (s.cmbRun own c).1.nans,
    .stick 0x600 (b2n ((s.cmbRun own c).1.nans != 0) + 2 * b2n (s.cmbRun own c).1.nanOut
      + 4 * b2n (s.cmbRun own c).1.ovf),
    .dropPlanes c.gen c.xid, .unbindExch c.gen c.xid]

theorem State.unbindExch_mem_cmbActs : Act.unbindExch c.gen c.xid ∈ s.cmbActs own c := by
  simp only [State.cmbActs, List.mem_cons, true_or, or_true]

theorem State.dropPlanes_mem_cmbActs : Act.dropPlanes c.gen c.xid ∈ s.cmbActs own c := by
  simp only [State.cmbActs, List.mem_cons, true_or, or_true]

theorem runCombine_of_met (h : c.pre = true ∨ c.s 0 = 0) :
    runCombine s own c = .done (s.cmbDone own c) (s.cmbActs own c) :=
  if_neg fun ⟨hpre, ht⟩ => h.elim (fun h => by rw [h] at hpre; exact Bool.false_ne_true hpre) ht

theorem State.moved_cmbDone : Moved s (s.cmbDone own c) :=
  ((((((Moved.refl s).cmbRows _ _ _).opCount _ _ _).opCount _ _ _).charge _ _).chargeReads _ _).chargeRows _ _ _ _ _

theorem State.mem_cmbDone : (s.cmbDone own c).mem = (s.cmbRun own c).2.mem := by
  rw [State.cmbDone, State.mem_chargeRows, State.mem_chargeReads, State.mem_charge, State.mem_opCount, State.mem_opCount]

theorem State.rd8_cmbDone_out (hf : isFloat (s.dsc own c 4).fmt = true) {a : Nat}
    (ha : ¬ touches ((s.dsc own c 4).zeroRows (c.s 0)) a) : (s.cmbDone own c).rd8 a = s.rd8 a :=
  (State.rd8_of_mem (s.mem_cmbDone own c) a).trans (State.rd8_cmbRows_out hf (by omega) _ ha)

/-- A single token without an answer, whose row was not NaN, gives one row of zeros (R157). -/
theorem State.mem_cmbDone_zeros (ht : c.s 0 = 1) (htab : s.cmbTab own c = [])
    (hn : bitOf (s.strLe (s.dsc own c 2) (destTstat (s.destHdr (s.dsc own c 2)).e) 1) 4 = false) :
    (s.cmbDone own c).mem
      = (s.strWr (s.dsc own c 4) 0 (rowPack (s.dsc own c 4).fmt (List.replicate (s.dsc own c 4).d0 0)).1).mem := by
  rw [← Nat.add_zero (destTstat _)] at hn
  rw [s.mem_cmbDone, State.cmbRun, ht, htab, State.cmbRows, State.cmbRows, State.cmbRow_skip hn (cmbSlots_nil _ 0),
    Nat.zero_mul]

/-- The rows of R155 stand in the output, where it stands clear of what is read and no token leaves an order to choose. -/
theorem State.holdsRows_cmbDone (hf : isFloat (s.dsc own c 4).fmt = true)
    (hc : CmbClear (s.dsc own c 2) (s.destHdr (s.dsc own c 2)).e (s.readXb (s.dsc own c 3)).rfmt (s.dsc own c 4).d0 (c.s 0)
      (s.cmbPlanes own c) ((s.dsc own c 4).zeroRows (c.s 0)))
    (ho : s.rbit (win own + 0x700) 0 = true ∨ ∀ t, t < c.s 0 → (s.cmbAns (s.readXb (s.dsc own c 3)).rfmt (s.dsc own c 4).d0
      (s.cmbPlanes own c) (s.cmbTab own c) t).length ≤ 1) :
    HoldsRows (s.cmbDone own c) (s.dsc own c 4) (c.s 0) (fun t => (rowPack (s.dsc own c 4).fmt
      (s.cmbVals (s.dsc own c 2) (s.destHdr (s.dsc own c 2)).e (s.readXb (s.dsc own c 3)).rfmt (s.dsc own c 4).d0
        (s.cmbPlanes own c) (s.cmbTab own c) t)).1) := by
  refine holdsRows_puts s _ _ _ _ (State.rd8_of_mem ?_)
  rw [s.mem_cmbDone, State.cmbRun, State.mem_cmbRows hf hc ho rfl (fun _ _ => rfl) (by omega), ← List.range_eq_range']
  rfl

end

section
variable {s : State} {q : Nat} {i : U32} {c : Cmd}

theorem exec_combine_of_runs (h : Runs s q i 0x2A c) (hm : c.pre = true ∨ c.s 0 = 0) :
    exec (.combine q i) s = .next ((s.cmbDone (s.owner q) c).complete q i (s.cmbActs (s.owner q) c)) := by
  change execCombine q i s = _
  rw [execCombine, State.runCmd_of_runs h, s.shown_of_op q i c (.inl (by rw [h.op]; decide)),
    runCombine_of_met s (s.owner q) c hm]

theorem exec_combinePrefetch (hc : s.findCmd q i = some c) (hl : s.live = true) (hop : c.op = 0x2A)
    (hr : s.ctxRuns (s.owner q) = true) :
    exec (.combinePrefetch q i) s = .next (s.updCmd q i (fun y => { y with pre := y.pre || s.preMet (s.owner q) y })) := by
  change execCombinePrefetch q i s = _
  rw [execCombinePrefetch, hc]
  exact congrArg _ (if_pos ⟨hl, hop, hr⟩)

end

/-- Settles O26: the run of COMBINE writes its rows one by one (`State.cmbRow_cases`), each inside the output, and where the
output stands clear of what it reads, each row is that of R155 (`State.mem_cmbRows`). -/
theorem combineWritesItsRows : Obligations.CombineWritesItsRows := by
  refine ⟨?_, fun _ _ _ _ => exec_combinePrefetch⟩
  intro s q i c own out hrun hown hout hmet hf
  subst hown hout
  obtain ⟨honly, hqueues⟩ := (s.moved_cmbDone (s.owner q) c).onlyMemory
  refine ⟨_, _, exec_combine_of_runs hrun hmet, honly, hqueues, s.unbindExch_mem_cmbActs _ c,
    s.dropPlanes_mem_cmbActs _ c, fun a => s.rd8_cmbDone_out _ c hf, s.mem_cmbDone_zeros _ c, ?_⟩
  intro d b ts ps wrs tab ans row hd hb hts hps hwrs htab hans hrow hstat hplane hord
  subst hd hb hts hps hwrs htab hans hrow
  exact s.holdsRows_cmbDone _ c hf ⟨hstat, hplane⟩ hord

end Sys2Proof.Machine
end

section
/-! PROOFS. What trace records and frames that leave keep of the block's units, and a command that is complete (R33). -/
namespace Sys2Proof.Machine

-- trace records and frames

/-- t is s but for device memory, the registers, the counters, the fabric time, free numbers, the error unit, what the Piers
hold and the Catwalk. -/
def UnitsKept (s t : State) : Prop :=
  t = { s with mem := t.mem, regs := t.regs, cnt48 := t.cnt48, energyRem := t.energyRem, ftime := t.ftime, free := t.free,
               err := t.err, net := t.net, cw := t.cw }

theorem UnitsKept.refl (s : State) : UnitsKept s s := rfl

theorem UnitsKept.trans {s t u : State} (h : UnitsKept s t) (g : UnitsKept t u) : UnitsKept s u := by
  rw [UnitsKept] at h g ⊢
  rw [g, h]

section
variable {s t : State} (h : UnitsKept s t)
include h

theorem UnitsKept.queues : t.queues = s.queues := by rw [h]
theorem UnitsKept.part : t.part = s.part := by rw [h]
theorem UnitsKept.rings : t.rings = s.rings := by rw [h]
theorem UnitsKept.ringCtl : t.ringCtl = s.ringCtl := by rw [h]
theorem UnitsKept.leads : t.leads = s.leads := by rw [h]
theorem UnitsKept.aborts : t.aborts = s.aborts := by rw [h]

theorem UnitsKept.chip : t.chip = s.chip := by rw [State.chip, h.part, State.chip]
theorem UnitsKept.findCmd (q : Nat) (i : U32) : t.findCmd q i = s.findCmd q i := State.findCmd_of_queues h.queues q i
theorem UnitsKept.findRing (slot : Nat) : t.findRing slot = s.findRing slot := by rw [State.findRing, h.rings, State.findRing]
theorem UnitsKept.ringAt (c gid : Nat) (gseq : U32) : t.ringAt c gid gseq = s.ringAt c gid gseq := by
  rw [State.ringAt, h.rings, State.ringAt]
theorem UnitsKept.findLead (c gid : Nat) (gseq : U32) (att : Nat) : t.findLead c gid gseq att = s.findLead c gid gseq att := by
  rw [State.findLead, h.leads, State.findLead]

end

theorem Moved.unitsKept {s t : State} (h : Moved s t) : UnitsKept s t := by
  rw [UnitsKept, h.only]

theorem State.unitsKept_emit (s : State) (dst vc : Nat) (f : Frame) : UnitsKept s (s.emit dst vc f) := by
  rw [UnitsKept, State.emit, State.pump_frame]

theorem State.unitsKept_tracePost (s : State) : UnitsKept s s.tracePost := by
  rw [State.tracePost]
  split <;> rfl

theorem State.unitsKept_traceLocal (s : State) (r : List Byte) : UnitsKept s (s.traceLocal r) := by
  have hwr := ((Moved.refl s).wr (s.lpair 0x1A048 + 32 * (s.reg 0x1A050 % 2 ^ s.rf 0x1A040 8 4)) r).unitsKept
  rw [State.traceLocal]
  refine UnitsKept.trans ?_ (State.unitsKept_tracePost _)
  split <;> exact hwr.trans rfl

theorem State.unitsKept_tracePut (s : State) (r : List Byte) : UnitsKept s (s.tracePut r) := by
  rw [State.tracePut]
  split
  · refine UnitsKept.trans (UnitsKept.trans ?_ (State.unitsKept_emit _ _ 5 _)) (State.unitsKept_tracePost _)
    rfl
  · exact s.unitsKept_traceLocal r

theorem State.unitsKept_traceLose (s : State) (n t cause chip : Nat) : UnitsKept s (s.traceLose n t cause chip) := rfl

theorem State.unitsKept_traceLoss (s : State) : UnitsKept s s.traceLoss := by
  rw [State.traceLoss]
  split
  · have hnone : UnitsKept s { s with cw := { s.cw with loss := none } } := rfl
    split
    · exact hnone.trans (State.unitsKept_traceLocal _ _)
    · exact hnone.trans (State.unitsKept_tracePut _ _)
  · exact .refl s

theorem State.unitsKept_trace (s : State) (rt own q : Nat) (ws : List Nat) : UnitsKept s (s.trace rt own q ws) := by
  have htime : UnitsKept s s.readTime.2 := rfl
  rw [State.trace]
  split
  · exact .refl s
  · rw [State.traceRec]
    dsimp only
    split
    · exact .refl s
    · split
      · exact htime.trans (State.unitsKept_traceLose ..)
      · have hloss := htime.trans (State.unitsKept_traceLoss _)
        split
        · exact hloss
        · split
          · exact hloss.trans (State.unitsKept_traceLose ..)
          · exact hloss.trans (State.unitsKept_tracePut ..)

-- a command that is complete

theorem Moved.chargeOutputs {s t : State} (own : Nat) (c : Cmd) (acts : List Act) (h : Moved s t) :
    Moved s (t.chargeOutputs own c acts) := by
  rw [State.chargeOutputs]
  refine Moved.chargeWrites _ _ ?_
  split
  · exact h
  · generalize c.wrote = l
    induction l generalizing t with
    | nil => exact h
    | cons x l ih => exact ih (h.chargeRows _ _ _ _ _)

/-- A command is still there once its outputs are hidden. -/
theorem State.findCmd_hideOutputs {s : State} {q : Nat} {i : U32} {c : Cmd} (h : s.findCmd q i = some c) :
    ∃ c' : Cmd, (s.hideOutputs q i).2.findCmd q i = some c' := by
  rw [State.hideOutputs, h]
  dsimp only
  split
  · exact ⟨c, h⟩
  · split
    · exact ⟨c, (State.findCmd_of_queues ((Moved.refl s).scramble _).onlyMemory.2 q i).trans h⟩
    · exact ⟨_, State.findCmd_updCmd h _ fun _ => rfl⟩

/-- A command whose work is done is complete, with its effects for the commit. -/
theorem State.findCmd_complete {s : State} {q : Nat} {i : U32} {c : Cmd} (h : s.findCmd q i = some c) (acts : List Act) :
    ∃ y : Cmd, (s.complete q i acts).findCmd q i = some y ∧ y.phase = .complete ∧ ∀ a ∈ acts, a ∈ y.acts := by
  obtain ⟨c', hc'⟩ := State.findCmd_hideOutputs h
  rw [State.complete, h]
  dsimp only
  refine ⟨_, (State.findCmd_of_queues ((Moved.refl _).chargeOutputs _ c _).onlyMemory.2 q i).trans
    (State.findCmd_updCmd hc' _ fun _ => rfl), rfl, fun a ha => List.mem_append_right _ ha⟩

end Sys2Proof.Machine
end

section
/-! PROOFS. The Trestle's shared operations (R176 to R178, R193, R195): a slot that is updated, the frames of a collective, the
leader that takes a report, and the decision. -/
namespace Sys2Proof.Machine

-- slots

theorem State.findRing_updRing {s : State} {slot : Nat} {r : RingSlot} (h : s.findRing slot = some r) (g : RingSlot → RingSlot) :
    (s.updRing slot g).findRing slot = some (g r) := by
  obtain ⟨x, hx, rfl⟩ := Option.map_eq_some_iff.1 h
  have hslot : x.1 = slot := by simpa using List.find?_some hx
  rw [State.findRing, State.updRing, find?_map_update hx (fun p => p.1 = slot) (fun p => (p.1, g p.2)) hslot fun _ => rfl]
  rfl

/-- The only slot bound is found by its number, and by its command. -/
theorem State.findRing_of_rings {s : State} {slot : Nat} {r : RingSlot} (h : s.rings = [(slot, r)]) :
    s.findRing slot = some r := by simp [State.findRing, h]

theorem State.ringOf_of_rings {s : State} {slot : Nat} {r : RingSlot} (h : s.rings = [(slot, r)]) :
    s.ringOf r.q r.idx = some (slot, r) := by simp [State.ringOf, h]

-- frames

theorem Frame.w_mkFrame (ws : List Nat) (bs : List Byte) {i : Nat} (hi : i < 16) : (mkFrame ws bs).w i = ws.getD i 0 % 2 ^ 32 := by
  simp [Frame.w, mkFrame, u32, hi]

/-- The FKIND of a frame of the Trestle (R198). -/
theorem fKind_ringHdr (s : State) (kind c gid dst att retry gseq w4 seq w7 size w9 nxt ofs : Nat) (hk : kind < 16) :
    fKind (mkFrame (s.ringHdr kind c gid dst att retry gseq w4 seq w7 size w9 nxt ofs)) = kind := by
  rw [fKind, Frame.w_mkFrame _ _ (by decide), State.ringHdr, List.getD_cons_zero, fld]
  omega

/-- A REPORT or DECIDE that is sent is kept, and leaves the rest of the units alone. -/
theorem State.unitsKept_sendRingCtl (s : State) (c gid : Nat) (gseq : U32) (dst : Nat) (f : Frame) :
    UnitsKept { s with ringCtl := s.ringCtl ++ [⟨c, gid, gseq, dst, f⟩] } (s.sendRingCtl c gid gseq dst f) :=
  State.unitsKept_emit _ _ _ _

theorem State.ringReport_member (s : State) {ms : List Nat} {l : Nat} (h : ms.head? = some l) (hl : l ≠ s.chip)
    (c q gid : Nat) (gseq : U32) (att retry op code : Nat) :
    s.ringReport c q gid gseq att retry op code ms
      = (none, (s.trace 0x08 c q [gid, gseq.toNat, 1, code]).sendRingCtl c gid gseq l
          (mkFrame (s.ringHdr 4 c gid l att retry gseq.toNat op 0 0 0 code 0 0))) := by
  obtain ⟨tail, rfl⟩ := List.head?_eq_some_iff.1 h
  exact if_neg hl

-- the leader

theorem State.group_eq_ok_iff (s : State) (c gid : Nat) (ms : List Nat) :
    s.group c gid = .ok ms ↔ s.groupMembers c gid = ms ∧ s.groupFlt c gid = none := by
  rw [State.group, State.groupOf]
  cases s.groupFlt c gid <;> simp

/-- The leader's note of an attempt replaces the one it has. -/
def State.putLead (s : State) (l : RingLead) : State :=
  { s with leads := s.leads.filter (fun x => !(x.ctx == l.ctx && x.gid == l.gid && x.gseq == l.gseq && x.attempt == l.attempt))
                      ++ [l] }

theorem State.findLead_putLead (s : State) (l : RingLead) :
    (s.putLead l).findLead l.ctx l.gid l.gseq l.attempt = some l := by
  have hold : (s.leads.filter (fun x => !(x.ctx == l.ctx && x.gid == l.gid && x.gseq == l.gseq && x.attempt == l.attempt))).find?
      (fun x => x.ctx == l.ctx && x.gid == l.gid && x.gseq == l.gseq && x.attempt == l.attempt) = none :=
    List.find?_eq_none.2 fun x hx => by
      simpa only [Bool.not_eq_true', Bool.not_eq_true] using (List.mem_filter.1 hx).2
  rw [State.findLead, State.putLead, List.find?_append, hold]
  simp

/-- The DECIDEs that a leader sends leave its notes and the abort table alone. -/
theorem State.kept_sendDecides (ds : List Nat) (s : State) (c gid : Nat) (gseq : U32) (att op code : Nat) (rerun : Bool) :
    (s.sendDecides c gid gseq att op code rerun ds).leads = s.leads
      ∧ (s.sendDecides c gid gseq att op code rerun ds).aborts = s.aborts := by
  induction ds generalizing s with
  | nil => exact ⟨rfl, rfl⟩
  | cons d ds ih =>
    have hsend := fun f => State.unitsKept_sendRingCtl s c gid gseq d f
    rw [State.sendDecides]
    split
    · exact ih s
    · exact ⟨(ih _).1.trans (hsend _).leads, (ih _).2.trans (hsend _).aborts⟩

section
variable {s : State} {c gid : Nat} {gseq : U32} {att : Nat} (hlead : s.findLead c gid gseq att = none)
include hlead

/-- The first report of an attempt is one of a fault: the leader decides, and notes it (R195, R196). -/
theorem State.leaderTake_fault {code : Nat} (hcode : code ≠ 0) (retry op src : Nat) :
    ∃ t : State, s.leaderTake c gid gseq att retry op code src
        = (some (code, decide (code = 0x1B) && decide (att < retry)), t)
      ∧ t.findLead c gid gseq att = some { ctx := c, gid := gid, gseq := gseq, attempt := att, decided := true }
      ∧ t.aborts = s.aborts := by
  have htake : s.leaderTake c gid gseq att retry op code src
      = (some (code, decide (code = 0x1B) && decide (att < retry)),
        (s.putLead { ctx := c, gid := gid, gseq := gseq, attempt := att, decided := true }).sendDecides c gid gseq att op code
          (decide (code = 0x1B) && decide (att < retry)) (s.groupMembers c gid).eraseDups) := by
    simp [State.leaderTake, hlead, hcode, State.putLead]
  obtain ⟨hleads, haborts⟩ := State.kept_sendDecides (s.groupMembers c gid).eraseDups
    (s.putLead { ctx := c, gid := gid, gseq := gseq, attempt := att, decided := true }) c gid gseq att op code
    (decide (code = 0x1B) && decide (att < retry))
  refine ⟨_, htake, ?_, haborts⟩
  rw [State.findLead, hleads]
  exact s.findLead_putLead { ctx := c, gid := gid, gseq := gseq, attempt := att, decided := true }

/-- The first report of an attempt is one of success, and another member is still to report: the leader holds it (R193). -/
theorem State.leaderTake_waits {src : Nat} (hms : ∃ m ∈ s.groupMembers c gid, m ≠ src) (retry op : Nat) :
    s.leaderTake c gid gseq att retry op 0 src
      = (none, s.putLead { ctx := c, gid := gid, gseq := gseq, attempt := att, done := [src] }) := by
  have hall : ¬ ∀ m ∈ s.groupMembers c gid, m = src := by
    obtain ⟨m, hm, hne⟩ := hms
    exact fun hall => hne (hall m hm)
  simp [State.leaderTake, hlead, hall, State.putLead]

/-- The leader of a group of one decides at its own report (R193). -/
theorem State.leaderTake_alone (hg : s.group c gid = .ok [s.chip]) (retry op : Nat) :
    s.leaderTake c gid gseq att retry op 0 s.chip = (some (0, false),
      s.putLead { ctx := c, gid := gid, gseq := gseq, attempt := att, done := [s.chip], decided := true }) := by
  obtain ⟨hmem, hflt⟩ := (s.group_eq_ok_iff c gid _).1 hg
  simp [State.leaderTake, hlead, hmem, hflt, State.putLead, State.sendDecides, List.eraseDups_cons, State.chip]

end

-- the decision

theorem Moved.biasPass {s t : State} (mode : Nat) (gamma bmax : K36) (rc : List Nat) (k : Nat) (sl : List (Nat × Nat))
    (h : Moved s t) : Moved s (t.biasPass mode gamma bmax rc k sl) := by
  induction sl generalizing t k with
  | nil => exact h
  | cons x sl ih => exact ih _ (h.wr _ _)

theorem State.findCmd_unhide {s : State} {q : Nat} {i : U32} {c : Cmd} (h : s.findCmd q i = some c) :
    (s.unhide q i).findCmd q i = some { c with saved := [] } := by
  rw [State.unhide, h]
  exact State.findCmd_updCmd ((State.findCmd_of_queues ((Moved.refl s).puts _).onlyMemory.2 q i).trans h) _ fun _ => rfl

/-- The reduced counts of a CAMBER_UPDATE, as they stand in its buffer (R204). -/
def State.camberSums (s : State) (own : Nat) (c : Cmd) : List Nat :=
  (List.range (((s.camberSlots own c).map (fun p => p.2)).sum)).map (fun k => s.str32 (s.dsc own c 6) (4 * k))

/-- The shadow bias banks written from the counts in the buffer, and charged (R204). -/
def State.camberBanks (s : State) (own : Nat) (c : Cmd) : State :=
  (s.biasPass (fld (c.s 1) 1 0) (kOf32 (c.s 4)) (kOf32 (c.s 5)) (s.camberSums own c) 0 (s.camberSlots own c)).chargeReads own
    ((s.dsc own c 6).headReads (4 * ((s.camberSlots own c).map (fun p => p.2)).sum)
      ++ flatReads 1 (4 * ((s.camberSlots own c).map (fun p => p.2)).sum))

/-- What the commit of a CAMBER_UPDATE does to its slots: the counts are cleared, and the shadow banks have been written. -/
def State.camberClears (s : State) (own : Nat) (c : Cmd) : List Act :=
  (s.camberSlots own c).flatMap (fun p => [.write (s.cmbSlot p.1) (List.replicate (4 * p.2) 0), .biasWritten p.1])

theorem State.camberEnd_eq (s : State) (own q : Nat) (c : Cmd) (ring : Bool) : s.camberEnd own q c ring
    = ((s.unhide q c.idx).camberBanks own c).complete q c.idx
        ((s.unhide q c.idx).camberClears own c ++ if ring then [.ringEnd] else []) := rfl

theorem State.moved_camberBanks (s : State) (own : Nat) (c : Cmd) : Moved s (s.camberBanks own c) :=
  ((Moved.refl s).biasPass _ _ _ _ _ _).chargeReads _ _

/-- The banks of a CAMBER_UPDATE are written, and the command is complete (R204). -/
theorem State.findCmd_camberEnd {s : State} {q : Nat} {c x : Cmd} (h : s.findCmd q c.idx = some x) (own : Nat) (ring : Bool) :
    ∃ y : Cmd, (s.camberEnd own q c ring).findCmd q c.idx = some y ∧ y.phase = .complete := by
  obtain ⟨y, hy, hphase, -⟩ := State.findCmd_complete ((State.findCmd_of_queues
    ((s.unhide q c.idx).moved_camberBanks own c).onlyMemory.2 q c.idx).trans (State.findCmd_unhide h)) _
  rw [State.camberEnd_eq]
  exact ⟨y, hy, hphase⟩

/-- A collective that learns of success is complete, with its effects for the commit (R192, R193, R204). -/
theorem State.ringDecide_commit {s : State} {slot : Nat} {r : RingSlot} {c : Cmd} (hr : s.findRing slot = some r)
    (hc : s.findCmd r.q r.idx = some c) (rerun : Bool) :
    ∃ y : Cmd, (s.ringDecide slot 0 rerun).findCmd r.q r.idx = some y ∧ y.phase = .complete
      ∧ (c.op ≠ 0x3D → ∀ a ∈ r.acts, a ∈ y.acts) := by
  have hc0 (g : RingSlot → RingSlot) :
      ((s.trace 0x08 r.ctx r.q [r.gid, r.gseq.toNat, 2, 0]).updRing slot g).findCmd r.q r.idx = some c :=
    ((s.unitsKept_trace _ _ _ _).findCmd r.q r.idx).trans hc
  rw [State.ringDecide, hr]
  simp only [if_true, hc0]
  split
  next hop =>
    have hidx : c.idx = r.idx := State.findCmd_idx hc
    rw [← hidx] at hc0 ⊢
    obtain ⟨y, hy, hphase⟩ := State.findCmd_camberEnd (State.findCmd_updCmd (hc0 _)
      (fun c => { c with acts := c.acts ++ [.stick 0x810 (2 * b2n r.rerun)] }) fun _ => rfl) r.ctx true
    exact ⟨y, hy, hphase, fun hne => absurd hop hne⟩
  next => 
    obtain ⟨y, hy, hphase, hacts⟩ := State.findCmd_complete (hc0 _) r.acts
    exact ⟨y, hy, hphase, fun _ => hacts⟩

-- a report

/-- A member whose part is complete, with every frame acknowledged, reports success (R193). -/
theorem State.ringCheck_done {s : State} {slot : Nat} {r : RingSlot} (hr : s.findRing slot = some r) (hst : r.started = true)
    (hrep : r.reported = none) (hfin : r.finals = r.want) (htx : r.tx = []) : s.ringCheck slot = s.ringTell slot 0 := by
  simp [State.ringCheck, hr, hst, hrep, hfin, htx]

/-- The slot is marked with the code of the report that it makes. -/
def State.reporting (s : State) (slot code : Nat) : State := s.updRing slot (fun r => { r with reported := some code })

theorem State.findRing_reporting {s : State} {slot : Nat} {r : RingSlot} (h : s.findRing slot = some r) (code : Nat) :
    (s.reporting slot code).findRing slot = some { r with reported := some code } :=
  State.findRing_updRing h _

section
variable {s : State} {slot code : Nat} {r : RingSlot} (hr : s.findRing slot = some r) (hdec : r.decided = none)
  (hrep : r.reported = none)
include hr hdec hrep

/-- A first report that brings no decision at this chip. -/
theorem State.ringTell_of_none {t : State}
    (h : (s.reporting slot code).ringReport r.ctx r.q r.gid r.gseq r.attempt r.retry r.op code r.members = (none, t)) :
    s.ringTell slot code = t := by
  rw [State.reporting] at h
  simp [State.ringTell, hr, hdec, hrep, h]

/-- A first report that brings the decision at this chip. -/
theorem State.ringTell_of_some {d : Nat × Bool} {t : State}
    (h : (s.reporting slot code).ringReport r.ctx r.q r.gid r.gseq r.attempt r.retry r.op code r.members = (some d, t)) :
    s.ringTell slot code = t.ringDecide slot d.1 d.2 := by
  rw [State.reporting] at h
  simp [State.ringTell, hr, hdec, hrep, h]

/-- A member that is not the leader sends its REPORT to the leader. -/
theorem State.ringTell_member {l : Nat} (hm : r.members.head? = some l) (hl : l ≠ s.chip) :
    ∃ f : Frame, fKind f = 4 ∧ s.ringTell slot code = ((s.reporting slot code).trace 0x08 r.ctx r.q
      [r.gid, r.gseq.toNat, 1, code]).sendRingCtl r.ctx r.gid r.gseq l f :=
  ⟨_, fKind_ringHdr _ 4 _ _ _ _ _ _ _ _ _ _ _ _ _ (by decide),
    State.ringTell_of_none hr hdec hrep (State.ringReport_member (s.reporting slot code) hm hl ..)⟩

/-- The leader of a group of one decides with its own report of success. -/
theorem State.ringTell_alone (hm : r.members = [s.chip]) (hg : s.group r.ctx r.gid = .ok [s.chip])
    (hlead : s.findLead r.ctx r.gid r.gseq r.attempt = none) (htr : s.rbit 0x1A040 0 = false) :
    s.ringTell slot 0 = ((s.reporting slot 0).putLead
      { ctx := r.ctx, gid := r.gid, gseq := r.gseq, attempt := r.attempt, done := [s.chip], decided := true }).ringDecide
        slot 0 false := by
  refine State.ringTell_of_some hr hdec hrep (d := (0, false)) ?_
  rw [hm, State.ringReport, State.trace_off (by exact htr)]
  exact (if_pos rfl).trans (State.leaderTake_alone (s := s.reporting slot 0) hlead hg r.retry r.op)

end

end Sys2Proof.Machine
end

section
/-! PROOFS. The run of a collective's command (R186, R190, R191, R193): an attempt begins, a leader without others decides, and
another member reports. -/
namespace Sys2Proof.Machine

/-- The attempt of slot r begins: the own chunk or block leaves, charged, and the slot's waits follow. -/
def State.ringBegun (s : State) (slot : Nat) (r : RingSlot) (c : Cmd) : State :=
  (((s.ringBegin slot r).charge r.ctx [6]).chargeReads r.ctx ((s.desc r.ctx r.src).headReads (r.count * r.eb)
    ++ (if r.op = 4 then (s.dsc r.ctx c 6).headReads (2 * r.n) else []))).ringSeen slot none

section
variable {s : State} {q slot : Nat} {c : Cmd} {r : RingSlot} (ho : s.ringOf q c.idx = some (slot, r))
include ho

theorem runRing_begins (hst : r.started = false) (hop : c.op ≠ 0x3D) :
    runRing s q c = .busy ((s.ringBegun slot r c).ringCheck slot) := by
  simp [runRing, ho, hst, hop, State.ringBegun]

theorem runRing_started (hst : r.started = true) : runRing s q c = .busy (s.ringCheck slot) := by
  simp [runRing, ho, hst]

end

/-- The part of this chip in a collective is complete, unreported and undecided: every final segment is here, and no frame is
under way. -/
structure PartDone (s : State) (slot : Nat) (r : RingSlot) : Prop where
  bound      : s.findRing slot = some r
  started    : r.started = true
  unreported : r.reported = none
  undecided  : r.decided = none
  final      : r.finals = r.want
  sent       : r.tx = []

theorem PartDone.ringCheck {s : State} {slot : Nat} {r : RingSlot} (h : PartDone s slot r) :
    s.ringCheck slot = s.ringTell slot 0 :=
  State.ringCheck_done h.bound h.started h.unreported h.final h.sent

/-- In a group of this chip alone, with no report held yet and the trace off, the collective's command is complete (R193). -/
theorem PartDone.alone {s : State} {slot : Nat} {r : RingSlot} {c : Cmd} (h : PartDone s slot r) (hm : r.members = [s.chip])
    (hg : s.group r.ctx r.gid = .ok [s.chip]) (hlead : s.findLead r.ctx r.gid r.gseq r.attempt = none)
    (htr : s.rbit 0x1A040 0 = false) (hc : s.findCmd r.q r.idx = some c) :
    ∃ y : Cmd, (s.ringCheck slot).findCmd r.q r.idx = some y ∧ y.phase = .complete
      ∧ (c.op ≠ 0x3D → ∀ a ∈ r.acts, a ∈ y.acts) := by
  rw [h.ringCheck, State.ringTell_alone h.bound h.undecided h.unreported hm hg hlead htr]
  exact State.ringDecide_commit (s := (s.reporting slot 0).putLead _) (State.findRing_reporting h.bound 0) hc false

/-- A member that is not the leader keeps its command and sends a REPORT, which it keeps (R193, R199). -/
theorem PartDone.member {s : State} {slot l : Nat} {r : RingSlot} (h : PartDone s slot r) (hm : r.members.head? = some l)
    (hl : l ≠ s.chip) (q : Nat) (i : U32) :
    ∃ f : Frame, (s.ringCheck slot).ringCtl = s.ringCtl ++ [⟨r.ctx, r.gid, r.gseq, l, f⟩] ∧ fKind f = 4
      ∧ (s.ringCheck slot).findCmd q i = s.findCmd q i := by
  obtain ⟨f, hkind, htell⟩ := State.ringTell_member (code := 0) h.bound h.undecided h.unreported hm hl
  have htrace := (s.reporting slot 0).unitsKept_trace 0x08 r.ctx r.q [r.gid, r.gseq.toNat, 1, 0]
  have hsend := State.unitsKept_sendRingCtl ((s.reporting slot 0).trace 0x08 r.ctx r.q [r.gid, r.gseq.toNat, 1, 0])
    r.ctx r.gid r.gseq l f
  rw [h.ringCheck, htell]
  exact ⟨f, hsend.ringCtl.trans (congrArg (· ++ _) htrace.ringCtl), hkind,
    (hsend.findCmd q i).trans (htrace.findCmd q i)⟩

/-- The four collectives of a queue run alike. -/
theorem exec_collective {s t : State} {q op : Nat} {i : U32} {c : Cmd} {k : Instr}
    (hk : op = 0x38 ∧ k = .ringReduce q i ∨ op = 0x39 ∧ k = .ringGather q i ∨ op = 0x3A ∧ k = .shift q i
      ∨ op = 0x3B ∧ k = .permute q i) (h : Runs s q i op c) (ht : runRing s q c = .busy t) : exec k s = .next t := by
  have hrun : s.runCmd q i op (fun s _ c => runRing s q c) = t := by
    rw [State.runCmd_of_runs h, s.shown_of_op q i c (by rw [h.op]; omega)]
    simp only [ht]
  rcases hk with ⟨rfl, rfl⟩ | ⟨rfl, rfl⟩ | ⟨rfl, rfl⟩ | ⟨rfl, rfl⟩ <;> exact congrArg _ hrun

/-- Settles O29, by what the run of a collective does before and after its attempt has begun. -/
theorem collectivesBeginAndDecide : Obligations.CollectivesBeginAndDecide := by
  intro s q i c op k slot r hk hrun hrings hq hi
  obtain rfl := State.findCmd_idx hrun.found
  have hring := State.findRing_of_rings hrings
  have hof : s.ringOf q c.idx = some (slot, r) := by rw [← hq, ← hi]; exact State.ringOf_of_rings hrings
  have hop : c.op ≠ 0x3D := by rw [hrun.op]; omega
  refine ⟨fun hst => exec_collective hk hrun (runRing_begins hof hst hop), fun hst hrep hdec hfin htx hm hg hlead htr => ?_,
    fun l hst hrep hdec hfin htx hm hl => ?_⟩
  · obtain ⟨y, hy, hphase, hacts⟩ := PartDone.alone ⟨hring, hst, hrep, hdec, hfin, htx⟩ hm hg hlead htr
      (by rw [hq, hi]; exact hrun.found)
    rw [hq, hi] at hy
    exact ⟨_, y, exec_collective hk hrun (runRing_started hof hst), hy, hphase, hacts hop⟩
  · obtain ⟨f, hctl, hkind, hcmd⟩ := PartDone.member ⟨hring, hst, hrep, hdec, hfin, htx⟩ hm hl q c.idx
    exact ⟨_, f, exec_collective hk hrun (runRing_started hof hst), hctl, hkind, hcmd.trans hrun.found⟩

end Sys2Proof.Machine
end

section
/-! PROOFS. Frames that a Pier sends or holds (R106, R319), and the checks of R200: a frame of the Trestle that passes them has the
effect of its kind. -/
namespace Sys2Proof.Machine

-- frames sent or held

/-- A pump sends or holds every frame that waits. -/
theorem mem_pumpGo {x : Nat × Nat × Frame} {l : List (Nat × Nat × Frame)} (h : x ∈ l) (blocked cr rm : List (Nat × Nat)) :
    (∃ n, (x.1, x.2.1, x.2.2, n) ∈ (pumpGo blocked cr rm l).sent) ∨ x ∈ (pumpGo blocked cr rm l).queued := by
  induction l generalizing blocked cr rm with
  | nil => exact absurd h List.not_mem_nil
  | cons y l ih =>
    obtain ⟨p, vc, f⟩ := y
    rw [pumpGo]
    dsimp only
    split
    · rcases List.mem_cons.1 h with rfl | hx
      · exact .inl ⟨_, List.mem_cons_self⟩
      · exact (ih hx _ _ _).imp (fun ⟨n, hn⟩ => ⟨n, List.mem_cons_of_mem _ hn⟩) id
    · rcases List.mem_cons.1 h with rfl | hx
      · exact .inr List.mem_cons_self
      · exact (ih hx _ _ _).imp id (List.mem_cons_of_mem _)

theorem mem_queueFrame {p vc : Nat} {f : Frame} {q : List (Nat × Nat × Frame)} {x : Nat × Nat × Frame} :
    x ∈ queueFrame p vc f q ↔ x = (p, vc, f) ∨ x ∈ q := by
  rw [queueFrame]
  split
  · have hq : x ∈ q ↔ x ∈ q.takeWhile (fun x => !waitingTrace p x) ∨ x ∈ q.dropWhile (fun x => !waitingTrace p x) := by
      rw [← List.mem_append, List.takeWhile_append_dropWhile]
    rw [hq, List.mem_append, List.mem_cons]
    exact or_left_comm
  · rw [List.mem_append, List.mem_singleton]
    exact or_comm

section
variable {s : State} {vc : Nat} {g : Frame}

theorem State.Sends.pump (h : s.Sends vc g) : s.pump.Sends vc g := by
  rw [State.pump]
  dsimp only
  split
  · exact h
  · obtain ⟨p, hp⟩ := h
    rw [State.Sends, State.chargeOut_frame]
    refine ⟨p, ?_⟩
    rcases hp with hp | hp
    · exact .inl (List.mem_append_left _ hp)
    · rcases mem_pumpGo hp [] s.net.credit s.net.room with ⟨n, hn⟩ | hq
      · exact .inl (List.mem_append_right _ (List.mem_map.2 ⟨_, hn, rfl⟩))
      · exact .inr hq

/-- A frame that is handed to a Pier has been sent or waits. -/
theorem State.sends_emit (s : State) (dst vc : Nat) (f : Frame) : (s.emit dst vc f).Sends vc f :=
  State.Sends.pump ⟨s.pierFor dst, .inr (mem_queueFrame.2 (.inl rfl))⟩

theorem State.Sends.emit (h : s.Sends vc g) (dst v : Nat) (f : Frame) : (s.emit dst v f).Sends vc g := by
  obtain ⟨p, hp⟩ := h
  exact State.Sends.pump ⟨p, hp.imp id fun hq => mem_queueFrame.2 (.inr hq)⟩

theorem State.Sends.foldl {α : Type} {op : State → α → State}
    (hop : ∀ {t : State} (a : α), t.Sends vc g → (op t a).Sends vc g) (l : List α) (h : s.Sends vc g) : (l.foldl op s).Sends vc g := by
  induction l generalizing s with
  | nil => exact h
  | cons a l ih => exact ih (hop a h)

/-- Of frames that are handed to a Pier one by one, each has been sent or waits. -/
theorem State.sends_foldl_emit {α : Type} {l : List α} {a : α} (h : a ∈ l) (s : State) (dst vc : Nat) (g : α → Frame) :
    (l.foldl (fun s a => s.emit dst vc (g a)) s).Sends vc (g a) := by
  induction l generalizing s with
  | nil => exact absurd h List.not_mem_nil
  | cons b l ih =>
    rcases List.mem_cons.1 h with rfl | ha
    · exact .foldl (fun _ hs => hs.emit _ _ _) l (s.sends_emit dst vc (g a))
    · exact ih ha _

theorem State.Sends.ringResendFrom (h : s.Sends vc g) (slot : Nat) (t : RingTx) (n : Nat) :
    (s.ringResendFrom slot t n).Sends vc g := by
  rw [State.ringResendFrom]
  split
  · exact h
  · split
    · exact h
    · exact .foldl (fun _ hs => hs.emit _ _ _) _ h

end

-- a frame that passes

/-- t is s once a frame has been received, and perhaps an answer to it sent: but for the counters, what the Piers hold, and
an injection that is applied. -/
structure FrameTaken (s t : State) : Prop where
  only : t = { s with regs := t.regs, err := t.err, cnt48 := t.cnt48, energyRem := t.energyRem, net := t.net }
  regs : ∀ a, a ≠ 0x1014 → t.reg a = s.reg a

theorem State.frameTaken_chargeIn (s : State) (own : Nat) (f : Frame) : FrameTaken s (s.chargeIn own f) := by
  refine ⟨?_, s.reg_chargeIn own f⟩
  rw [State.chargeIn, (State.arrayWrite_injected _ _).2]
  rfl

theorem FrameTaken.emit {s t : State} (h : FrameTaken s t) (dst vc : Nat) (f : Frame) : FrameTaken s (t.emit dst vc f) := by
  have hframe : t.emit dst vc f = { t with net := (t.emit dst vc f).net, cnt48 := (t.emit dst vc f).cnt48,
                                           energyRem := (t.emit dst vc f).energyRem } := by
    rw [State.emit, State.pump_frame]
  refine ⟨?_, fun a ha => (State.reg_of_regs ?_ a).trans (h.regs a ha)⟩
  · rw [hframe, h.only]
  · rw [hframe]

/-- The words of a window are apart from KERR_INJECT. -/
theorem win_add_ne_inject (c r : Nat) : win c + r ≠ 0x1014 := by
  rw [win]
  split <;> omega

section
variable {s t : State} (h : FrameTaken s t)
include h

theorem FrameTaken.unitsKept : UnitsKept s t := by rw [UnitsKept, h.only]
theorem FrameTaken.mem : t.mem = s.mem := by rw [h.only]

theorem FrameTaken.reg_win (c r : Nat) : t.reg (win c + r) = s.reg (win c + r) := h.regs _ (win_add_ne_inject c r)

theorem FrameTaken.rpair {a : Nat} (h0 : a ≠ 0x1014) (h4 : a + 4 ≠ 0x1014) : t.rpair a = s.rpair a := by
  rw [State.rpair, h.regs a h0, h.regs _ h4, State.rpair]

theorem FrameTaken.rd32 (a : Nat) : t.rd32 a = s.rd32 a := State.rdLe_of_mem h.mem a 4

theorem FrameTaken.desc (own i : Nat) : t.desc own i = s.desc own i := by
  have haddr : t.descAddr own i = s.descAddr own i := by
    rw [State.descAddr, h.rpair (by rw [kdsc]; omega) (by rw [kdsc]; omega), State.descAddr]
  have hwords : t.descWords own i = s.descWords own i := by
    simp only [State.descWords, haddr, h.rd32]
  have hold (m : List U32) : t.descOld own i m = s.descOld own i m := by rw [State.descOld, h.only, State.descOld]
  have hfree : t.free = s.free := by rw [h.only]
  simp only [State.desc, hwords, hold, hfree]

theorem FrameTaken.hValid (own i : Nat) : t.hValid own i = s.hValid own i := by
  rw [State.hValid, h.desc, h.regs _ (by rw [kdsc]; omega), State.hValid]

theorem FrameTaken.boxWalk (order : Nat) (o n st : List Nat) : t.boxWalk order o n st = s.boxWalk order o n st := by
  have htorus (ax : Nat) : t.torus ax = s.torus ax := by
    rw [State.torus, State.rf, h.regs _ (by decide), State.torus, State.rf]
  simp only [State.boxWalk, State.chipAt, htorus]

/-- A frame that is received leaves the groups as they are. -/
theorem FrameTaken.groupMembers (c gid : Nat) : t.groupMembers c gid = s.groupMembers c gid := by
  have hword (i : Nat) : t.groupWord c gid i = s.groupWord c gid i := by
    rw [State.groupWord, h.rd32, h.rpair (win_add_ne_inject c _) (by rw [Nat.add_assoc]; exact win_add_ne_inject c _),
      State.groupWord]
  have hstr (d : Desc) (k : Nat) : t.str16 d k = s.str16 d k := by
    rw [State.str16, State.strLe, State.strRd_congr fun i _ => State.rd8_of_mem h.mem _, State.str16, State.strLe]
  simp only [State.groupMembers, hword, h.reg_win, h.boxWalk, h.desc, h.hValid, hstr]

theorem FrameTaken.leads? (c gid : Nat) : t.leads? c gid = s.leads? c gid := by
  rw [State.leads?, h.groupMembers, h.unitsKept.chip, State.leads?]

theorem FrameTaken.ringCtlAgrees (r : RingSlot) (f : Frame) : t.ringCtlAgrees r f = s.ringCtlAgrees r f := by
  rw [State.ringCtlAgrees, State.ordOf, State.rbit, h.reg_win, State.ringCtlAgrees, State.ordOf, State.rbit]

end

/-- A frame that passes the checks 1 to 4 of R200 is charged to its context and has its effect. -/
theorem RingAdmits.rx {s : State} {p k : Nat} {f : Frame} (h : RingAdmits s p k f) (eff : State → State) :
    s.ringRx p k f eff = eff (s.chargeIn (fCtx f) f) := by
  obtain ⟨hpier, hhdr, hok, hkind, hfab, hctx, hkey⟩ := h
  have hgate : s.ringGate f = none := by simp [State.ringGate, hhdr, hok, hfab, hctx, hkey]
  simp [State.ringRx, hpier, hkind, hgate]

end Sys2Proof.Machine
end

section
/-! PROOFS. The ends of collectives (R193 to R200): a REPORT at the leader, a DECIDE at a member, kept frames that are sent again,
and the two timeouts. -/
namespace Sys2Proof.Machine

-- what a chip takes note of

/-- The abort table takes a decision while it has room (R195). -/
theorem State.aborts_abortPut {s : State} (h : s.aborts.length < 256) (a : AbortEnt) :
    (s.abortPut a).aborts = s.aborts ++ [a] := by
  rw [State.abortPut, if_pos h]

theorem State.findLead_abortPut (s : State) (a : AbortEnt) (c gid : Nat) (gseq : U32) (att : Nat) :
    (s.abortPut a).findLead c gid gseq att = s.findLead c gid gseq att := by
  rw [State.abortPut]
  split <;> rfl

-- the effect of a REPORT

/-- The abort entry of a decision about the collective of a frame. -/
def abortOf (f : Frame) (code : Nat) (rerun : Bool) : AbortEnt :=
  { ctx := fCtx f, gid := rGid f, gseq := rSeq f, attempt := rAtt f, code := code, rerun := rerun }

/-- The state that has answered a REPORT or a DECIDE. -/
def State.acked (s : State) (f : Frame) : State := s.ringAnswer f 2 0 0 0

theorem FrameTaken.acked {s t : State} (h : FrameTaken s t) (f : Frame) : FrameTaken s (t.acked f) := h.emit _ _ _

section
variable {s : State} {f : Frame} (hat : s.ringAt (fCtx f) (rGid f) (rSeq f) = none)
  (hl : s.leads? (fCtx f) (rGid f) = true) (hok : ringCodeOk f = true)
include hat hl hok

theorem State.reportTake_held {t : State}
    (h : (s.acked f).leaderTake (fCtx f) (rGid f) (rSeq f) (rAtt f) (rRetry f) (rOp f) (rCode f) (fSrc f) = (none, t)) :
    s.reportTake f = t := by
  rw [State.acked] at h
  simp [State.reportTake, hat, hl, hok, h]

theorem State.reportTake_decided {d : Nat × Bool} {t : State} (hd : d.1 ≠ 0)
    (h : (s.acked f).leaderTake (fCtx f) (rGid f) (rSeq f) (rAtt f) (rRetry f) (rOp f) (rCode f) (fSrc f) = (some d, t)) :
    s.reportTake f = (t.abortPut (abortOf f d.1 d.2)).abortWaiting := by
  rw [State.acked] at h
  simp [State.reportTake, hat, hl, hok, h, hd, abortOf]

end

section
variable {s : State} {f : Frame} {slot : Nat} {r : RingSlot} (hat : s.ringAt (fCtx f) (rGid f) (rSeq f) = some (slot, r))
include hat

/-- A REPORT or DECIDE of an attempt that the slot has left is counted, and not answered (R200). -/
theorem State.reportTake_left (h : rAtt f < r.attempt) : s.reportTake f = s.ctxCount (fCtx f) 7 1 := by
  simp [State.reportTake, hat, h]

theorem State.decideTake_left (h : rAtt f < r.attempt) : s.decideTake f = s.ctxCount (fCtx f) 7 1 := by
  simp [State.decideTake, hat, h]

/-- The first DECIDE of the slot's attempt is taken (R195). -/
theorem State.decideTake_first (hatt : r.attempt = rAtt f) (hdec : r.decided = none) (hag : s.ringCtlAgrees r f = true)
    (hok : ringCodeOk f = true) :
    s.decideTake f = ((s.acked f).decideSeen (fCtx f) (rGid f) (rSeq f) (rAtt f)).ringDecide slot (rCode f) (bitOf (f.w 9) 8) := by
  simp [State.decideTake, hat, hatt, hdec, hag, hok, State.acked]

end

/-- A first DECIDE of a fault that finds no slot is held (R195). -/
theorem State.decideTake_held {s : State} {f : Frame} (hat : s.ringAt (fCtx f) (rGid f) (rSeq f) = none)
    (hok : ringCodeOk f = true) (hcode : rCode f ≠ 0) (hlead : s.findLead (fCtx f) (rGid f) (rSeq f) (rAtt f) = none) :
    s.decideTake f = (((s.acked f).decideSeen (fCtx f) (rGid f) (rSeq f) (rAtt f)).abortPut
      (abortOf f (rCode f) (bitOf (f.w 9) 8))).abortWaiting := by
  simp [State.decideTake, hat, hok, hcode, hlead, State.acked, abortOf]

-- the rows

section
variable {s : State} {p : Nat} {f : Frame}

theorem exec_reportRx (h : RingAdmits s p 4 f) : exec (.reportRx p f) s = .next ((s.chargeIn (fCtx f) f).reportTake f) :=
  congrArg Host.Outcome.next (h.rx _)

theorem exec_decideRx (h : RingAdmits s p 5 f) : exec (.decideRx p f) s = .next ((s.chargeIn (fCtx f) f).decideTake f) :=
  congrArg Host.Outcome.next (h.rx _)

section
variable (h : RingAdmits s p 4 f) (hl : s.leads? (fCtx f) (rGid f) = true)
  (hat : s.ringAt (fCtx f) (rGid f) (rSeq f) = none) (hok : ringCodeOk f = true)
  (hlead : s.findLead (fCtx f) (rGid f) (rSeq f) (rAtt f) = none)
include h hl hat hok hlead

/-- The leader holds a first REPORT of success while another member is still to report. -/
theorem exec_reportRx_held {ms : List Nat} (hg : s.group (fCtx f) (rGid f) = .ok ms) (hcode : rCode f = 0)
    (hms : ∃ m ∈ ms, m ≠ fSrc f) :
    ∃ (t : State) (l : RingLead), exec (.reportRx p f) s = .next t
      ∧ t.findLead (fCtx f) (rGid f) (rSeq f) (rAtt f) = some l ∧ l.done = [fSrc f] ∧ l.decided = false
      ∧ t.aborts = s.aborts := by
  have hin := s.frameTaken_chargeIn (fCtx f) f
  have hack := hin.acked f
  obtain ⟨rfl, -⟩ := (s.group_eq_ok_iff _ _ _).1 hg
  have htake := State.leaderTake_waits ((hack.unitsKept.findLead _ _ _ _).trans hlead)
    (src := fSrc f) (by rwa [hack.groupMembers]) (rRetry f) (rOp f)
  rw [← hcode] at htake
  rw [exec_reportRx h, State.reportTake_held ((hin.unitsKept.ringAt _ _ _).trans hat) ((hin.leads? _ _).trans hl) hok htake]
  exact ⟨_, _, rfl, State.findLead_putLead _ _, rfl, rfl, hack.unitsKept.aborts⟩

/-- The leader decides at once on a first REPORT of a fault, and holds the decision. -/
theorem exec_reportRx_fault (hcode : rCode f ≠ 0) (hroom : s.aborts.length < 256) :
    ∃ (t : State) (l : RingLead), exec (.reportRx p f) s = .next t.abortWaiting
      ∧ t.findLead (fCtx f) (rGid f) (rSeq f) (rAtt f) = some l ∧ l.decided = true
      ∧ t.aborts = s.aborts ++ [abortOf f (rCode f) (decide (rCode f = 0x1B) && decide (rAtt f < rRetry f))] := by
  have hin := s.frameTaken_chargeIn (fCtx f) f
  have hack := hin.acked f
  obtain ⟨t, htake, hfind, haborts⟩ := State.leaderTake_fault ((hack.unitsKept.findLead _ _ _ _).trans hlead) hcode
    (rRetry f) (rOp f) (fSrc f)
  replace haborts := haborts.trans hack.unitsKept.aborts
  rw [exec_reportRx h, State.reportTake_decided ((hin.unitsKept.ringAt _ _ _).trans hat) ((hin.leads? _ _).trans hl) hok
    hcode htake]
  refine ⟨_, _, rfl, (t.findLead_abortPut _ _ _ _ _).trans hfind, rfl, ?_⟩
  rw [State.aborts_abortPut (by rw [haborts]; exact hroom), haborts]

end

theorem exec_decideRx_held (h : RingAdmits s p 5 f) (hok : ringCodeOk f = true)
    (hat : s.ringAt (fCtx f) (rGid f) (rSeq f) = none) (hcode : rCode f ≠ 0)
    (hlead : s.findLead (fCtx f) (rGid f) (rSeq f) (rAtt f) = none) (hroom : s.aborts.length < 256) :
    ∃ t : State, exec (.decideRx p f) s = .next t.abortWaiting
      ∧ t.aborts = s.aborts ++ [abortOf f (rCode f) (bitOf (f.w 9) 8)] := by
  have hin := s.frameTaken_chargeIn (fCtx f) f
  have haborts : (((s.chargeIn (fCtx f) f).acked f).decideSeen (fCtx f) (rGid f) (rSeq f) (rAtt f)).aborts = s.aborts :=
    (hin.acked f).unitsKept.aborts
  rw [exec_decideRx h, State.decideTake_held ((hin.unitsKept.ringAt _ _ _).trans hat) hok hcode
    ((hin.unitsKept.findLead _ _ _ _).trans hlead)]
  refine ⟨_, rfl, ?_⟩
  rw [State.aborts_abortPut (by rw [haborts]; exact hroom), haborts]

/-- A first DECIDE of success completes the collective's command. -/
theorem exec_decideRx_commit {slot : Nat} {r : RingSlot} {c : Cmd} (h : RingAdmits s p 5 f) (hok : ringCodeOk f = true)
    (hat : s.ringAt (fCtx f) (rGid f) (rSeq f) = some (slot, r)) (hr : s.findRing slot = some r) (hatt : r.attempt = rAtt f)
    (hdec : r.decided = none) (hag : s.ringCtlAgrees r f = true) (hcode : rCode f = 0) (hc : s.findCmd r.q r.idx = some c) :
    ∃ (t : State) (y : Cmd), exec (.decideRx p f) s = .next t ∧ t.findCmd r.q r.idx = some y ∧ y.phase = .complete := by
  have hin := s.frameTaken_chargeIn (fCtx f) f
  have hack := (hin.acked f).unitsKept
  obtain ⟨y, hy, hphase, -⟩ := State.ringDecide_commit
    (s := ((s.chargeIn (fCtx f) f).acked f).decideSeen (fCtx f) (rGid f) (rSeq f) (rAtt f))
    ((hack.findRing slot).trans hr) ((hack.findCmd r.q r.idx).trans hc) (bitOf (f.w 9) 8)
  rw [exec_decideRx h, State.decideTake_first ((hin.unitsKept.ringAt _ _ _).trans hat) hatt hdec
    ((hin.ringCtlAgrees r f).trans hag) hok, hcode]
  exact ⟨_, y, rfl, hy, hphase⟩

end

-- timers

/-- Each kept REPORT or DECIDE of a collective toward a chip is sent again (R199). -/
theorem exec_ringResend {s : State} (hlive : s.live = true) (hclk : s.refclk = true) (c gid dst : Nat) (gseq : U32) :
    ∃ t : State, exec (.ringResend c gid gseq dst) s = .next t
      ∧ (∀ k ∈ s.ringCtl, k.ctx = c → k.gid = gid → k.gseq = gseq → k.dst = dst → t.Sends 3 (fResend k.f)) := by
  refine ⟨_, congrArg Host.Outcome.next (if_neg (by simp [hlive, hclk])), fun k hk hctx hgid hgseq hdst => ?_⟩
  have hsent := State.sends_foldl_emit (l := s.ringCtl.filter
    (fun k => k.ctx == c && k.gid == gid && k.gseq == gseq && k.dst == dst)) (a := k)
    (List.mem_filter.2 ⟨hk, by simp [hctx, hgid, hgseq, hdst]⟩) s dst 3 (fun k => fResend k.f)
  dsimp only
  split
  · exact hsent
  · refine .foldl (fun x hx => ?_) _ hsent
    split
    · exact hx.ringResendFrom _ _ _
    · exact hx.ringResendFrom _ _ _
    · exact hx

section
variable {s : State} {slot : Nat} {r : RingSlot} (hr : s.findRing slot = some r) (hlive : s.live = true)
  (hclk : s.refclk = true) (hdec : r.decided = none)
include hr hlive hclk hdec

/-- A member that is not the leader reports its timeout (R194). -/
theorem exec_collectiveTimeout {l : Nat} (hrep : r.reported = none) (hm : r.members.head? = some l) (hl : l ≠ s.chip) :
    ∃ (t : State) (r1 : RingSlot), exec (.collectiveTimeout slot) s = .next t ∧ t.findRing slot = some r1
      ∧ r1.reported = some (if s.slotWaiters = 0 then eTimeout else eOrderSuspect) := by
  obtain ⟨f, -, htell⟩ := State.ringTell_member (code := if s.slotWaiters = 0 then eTimeout else eOrderSuspect)
    hr hdec hrep hm hl
  have hexec : exec (.collectiveTimeout slot) s
      = .next (s.ringTell slot (if s.slotWaiters = 0 then eTimeout else eOrderSuspect)) := by
    change execCollectiveTimeout slot s = _
    simp [execCollectiveTimeout, hr, hlive, hclk, hrep]
  rw [htell] at hexec
  exact ⟨_, _, hexec, ((State.unitsKept_sendRingCtl _ _ _ _ _ _).findRing slot).trans
    (((State.unitsKept_trace _ _ _ _ _).findRing slot).trans (State.findRing_reporting hr _)), rfl⟩

/-- A member that has reported and learns no decision faults (R194). -/
theorem exec_decideTimeout (hrep : r.reported.isSome = true) :
    exec (.decideTimeout slot) s = .next ((s.updRing slot (fun r => { r with reported := some eTimeout })).ringFault slot r
      { flt eTimeout 12 with inst := slot }) := by
  change execDecideTimeout slot s = _
  simp [execDecideTimeout, hr, hlive, hclk, hrep, hdec]

end

/-- Settles O56, clause by clause: the leader's note of a REPORT, the abort table, the decision at a slot, and the timers. -/
theorem collectivesEnd : Obligations.CollectivesEnd := by
  refine ⟨fun s p f ms h hl hat hok hlead hg =>
      ⟨exec_reportRx_held h hl hat hok hlead hg, exec_reportRx_fault h hl hat hok hlead⟩,
    fun s p slot f r hat hatt => ?_,
    fun s p f h hok => ⟨exec_decideRx_held h hok, fun slot r c hat hr hattEq hdec hag hcode hc _ =>
      exec_decideRx_commit h hok hat hr hattEq hdec hag hcode hc⟩,
    fun s c gid dst gseq hlive hclk => exec_ringResend hlive hclk c gid dst gseq,
    fun s slot r hr hlive hclk hdec => ⟨fun l ms hrep hm hl => ?_, exec_decideTimeout hr hlive hclk hdec⟩⟩
  · have hin := ((s.frameTaken_chargeIn (fCtx f) f).unitsKept.ringAt _ _ _).trans hat
    exact ⟨fun h => by rw [exec_reportRx h, State.reportTake_left hin hatt],
      fun h => by rw [exec_decideRx h, State.decideTake_left hin hatt]⟩
  · exact exec_collectiveTimeout hr hlive hclk hdec hrep (by rw [hm]; rfl) hl

end Sys2Proof.Machine
end

section
/-! PROOFS. The Camber commands (R203, R204): CAMBER_ACCUM and its addition, and CAMBER_UPDATE where it loads, where it is local
and where it reduces over a group of this chip alone. -/
namespace Sys2Proof.Machine

-- words in a row

/-- Byte k of a number. -/
theorem getElem?_natLe (n v k : Nat) (hk : k < n) : (natLe n v)[k]? = some (BitVec.ofNat 8 (v / 256 ^ k)) := by
  induction n generalizing v k with
  | zero => omega
  | succ n ih =>
    cases k with
    | zero => simp [natLe]
    | succ k =>
      rw [natLe, List.getElem?_cons_succ, ih _ _ (by omega), Nat.div_div_eq_div_mul, ← Nat.pow_succ']

/-- Byte k of word j of some words. -/
theorem getElem?_wordsBytes {ws : List Nat} {j k v : Nat} (hj : ws[j]? = some v) (hk : k < 4) :
    (wordsBytes ws)[4 * j + k]? = some (BitVec.ofNat 8 (v / 256 ^ k)) := by
  induction ws generalizing j with
  | nil => simp at hj
  | cons w ws ih =>
    rw [wordsBytes, List.flatMap_cons]
    cases j with
    | zero =>
      obtain rfl : w = v := by simpa using hj
      rw [List.getElem?_append_left (by rw [length_natLe]; omega), Nat.mul_zero, Nat.zero_add, getElem?_natLe _ _ _ hk]
    | succ j =>
      rw [List.getElem?_append_right (by rw [length_natLe]; omega), length_natLe, show 4 * (j + 1) + k - 4 = 4 * j + k by omega]
      exact ih (by simpa using hj)

theorem length_wordsBytes (ws : List Nat) : (wordsBytes ws).length = 4 * ws.length := by
  rw [wordsBytes, length_flatMap_natLe, Nat.mul_comm]

/-- Word j of some words reads as it was written, where they do not fill the address space. -/
theorem State.rd32_wr_words (s : State) (a : Nat) {ws : List Nat} {j v : Nat} (hj : ws[j]? = some v)
    (hlen : 4 * ws.length ≤ addrMod) : (s.wr a (wordsBytes ws)).rd32 (a + 4 * j) = v % 2 ^ 32 := by
  have hrd : (s.wr a (wordsBytes ws)).rd (a + 4 * j) 4 = natLe 4 v := by
    refine List.ext_getElem? fun k => ?_
    rw [State.rd, List.getElem?_map]
    by_cases hk : k < 4
    · rw [List.getElem?_range hk, getElem?_natLe _ _ _ hk, Option.map_some, Nat.add_assoc]
      refine congrArg some (State.rd8_wr_in _ s a _ _ (getElem?_wordsBytes hj hk) fun i h1 h2 => ?_)
      rw [length_wordsBytes] at h2
      rw [addrMod] at hlen ⊢
      omega
    · rw [List.getElem?_eq_none (by simp; omega), List.getElem?_eq_none (by rw [length_natLe]; omega)]
      rfl
  exact (congrArg leNat hrd).trans (leNat_natLe 4 v)

-- CAMBER_ACCUM

/-- The counts that a CAMBER_ACCUM adds: those of its DEST, or none where it has no tokens (R203). -/
def State.accumCounts (s : State) (d : Desc) : List Nat :=
  if (s.destHdr d).t = 0 then [] else (List.range (s.destHdr d).e).map (fun j => s.str32 d (destEcnt + 4 * j))

/-- The reads and writes of a CAMBER_ACCUM, charged. -/
def State.accumCharged (s : State) (own : Nat) (d : Desc) : State :=
  (s.chargeReads own (d.headReads 64 ++ d.headReads (4 * (s.accumCounts d).length)
    ++ flatReads 1 (4 * (s.accumCounts d).length))).chargeWrites own [4 * (s.accumCounts d).length]

section
variable {s : State} {q : Nat} {i : U32} {c : Cmd} (h : Runs s q i 0x3C c)
include h

theorem exec_camberAccum_slot {sl : Nat} (hsl : s.accumSlot (s.owner q) c = some sl) :
    exec (.camberAccum q i) s = .next ((s.accumCharged (s.owner q) (s.dsc (s.owner q) c 1)).complete q i
      [.camberAdd sl (s.accumCounts (s.dsc (s.owner q) c 1))]) := by
  change execCamberAccum q i s = _
  rw [execCamberAccum, State.runCmd_of_runs h, s.shown_of_op q i c (.inr (by rw [h.op]; decide))]
  simp only [hsl]
  rfl

theorem exec_camberAccum_none (hsl : s.accumSlot (s.owner q) c = none) :
    exec (.camberAccum q i) s = .next (s.complete q i []) := by
  change execCamberAccum q i s = _
  rw [execCamberAccum, State.runCmd_of_runs h, s.shown_of_op q i c (.inr (by rw [h.op]; decide))]
  simp only [hsl]

end

theorem State.moved_accumCharged (s : State) (own : Nat) (d : Desc) : Moved s (s.accumCharged own d) :=
  ((Moved.refl s).chargeReads _ _).chargeWrites _ _

theorem State.mem_accumCharged (s : State) (own : Nat) (d : Desc) : (s.accumCharged own d).mem = s.mem := by
  rw [State.accumCharged, State.mem_chargeWrites, State.mem_chargeReads]

-- its addition

/-- The sums of a slot's counts with others, held at 2^32 - 1 (R203). -/
def State.heldSums (s : State) (sl : Nat) (cs : List Nat) : List Nat :=
  (List.range cs.length).map (fun j => min (s.rd32 (s.cmbSlot sl + 4 * j) + cs.getD j 0) 0xFFFFFFFF)

@[simp] theorem State.mem_ctxCount (s : State) (c k n : Nat) : (s.ctxCount c k n).mem = s.mem := s.mem_cwAdd _ _
@[simp] theorem State.mem_stick (s : State) (c o m : Nat) : (s.stick c o m).mem = s.mem := s.mem_ite _ _ (s.mem_setReg _ _)

theorem State.mem_camberAddAct (s : State) (own sl : Nat) (cs : List Nat) :
    (s.camberAddAct own sl cs).mem = (s.wr (s.cmbSlot sl) (wordsBytes (s.heldSums sl cs))).mem := by
  rw [State.camberAddAct, wordsBytes, State.heldSums, List.flatMap_map, List.flatMap_map]
  split
  · rfl
  · rw [State.mem_stick, State.mem_ctxCount]

theorem State.rd32_camberAddAct (s : State) (own sl : Nat) {cs : List Nat} {j : Nat} (hlen : cs.length ≤ 65536)
    (hj : j < cs.length) :
    (s.camberAddAct own sl cs).rd32 (s.cmbSlot sl + 4 * j) = min (s.rd32 (s.cmbSlot sl + 4 * j) + cs.getD j 0) 0xFFFFFFFF := by
  have hsum : (s.heldSums sl cs)[j]? = some (min (s.rd32 (s.cmbSlot sl + 4 * j) + cs.getD j 0) 0xFFFFFFFF) := by
    rw [State.heldSums, List.getElem?_map, List.getElem?_range hj, Option.map_some]
  have hfit : 4 * (s.heldSums sl cs).length ≤ addrMod := by
    rw [State.heldSums, List.length_map, List.length_range, addrMod]
    omega
  rw [State.rd32, State.rdLe_of_mem (s.mem_camberAddAct own sl cs)]
  exact (s.rd32_wr_words _ hsum hfit).trans (Nat.mod_eq_of_lt (by omega))

-- CAMBER_UPDATE that loads

/-- The biases of a buffer stored in the shadow banks of some slots, from byte p.1 of the buffer on (R204). -/
def State.loadBanks (s : State) (buf : Desc) (sl : List (Nat × Nat)) (p : Nat × State) : Nat × State :=
  sl.foldl (fun p x => (p.1 + 4 * x.2, p.2.wr (s.shadowBias x.1) (s.strRd buf p.1 (4 * x.2)))) p

theorem Moved.loadBanks {s t u : State} {k : Nat} (h : Moved t u) (buf : Desc) (sl : List (Nat × Nat)) :
    Moved t (s.loadBanks buf sl (k, u)).2 := by
  induction sl generalizing k u with
  | nil => exact h
  | cons x sl ih => exact ih (h.wr _ _)

section
variable {s : State} {q : Nat} {i : U32} {c : Cmd} (h : Runs s q i 0x3D c)
include h

/-- A CAMBER_UPDATE that loads. -/
theorem exec_camberUpdate_loads (hmode : fld (c.s 1) 1 0 = 2) :
    exec (.camberUpdate q i) s = .next (((s.loadBanks (s.dsc (s.owner q) c 6) (s.camberSlots (s.owner q) c) (0, s)).2.chargeReads
        (s.owner q) ((s.dsc (s.owner q) c 6).headReads
          (s.loadBanks (s.dsc (s.owner q) c 6) (s.camberSlots (s.owner q) c) (0, s)).1)).complete q i
      ((s.camberSlots (s.owner q) c).map (fun x => .biasWritten x.1))) := by
  have hring : c.camberRing = false := by simp [Cmd.camberRing, hmode]
  change execCamberUpdate q i s = _
  rw [execCamberUpdate, State.runCmd_of_runs h, s.shown_of_op q i c (.inr (by rw [h.op]; decide))]
  simp only [hring, hmode, Bool.false_eq_true, if_false, if_true]
  rfl

/-- A CAMBER_UPDATE that is local: the counts go to the buffer, and the banks are written from there. -/
theorem exec_camberUpdate_local (hmode : fld (c.s 1) 1 0 ≠ 2) (hlocal : bitOf (c.s 1) 2 = true) :
    exec (.camberUpdate q i) s = .next (((s.strWr (s.dsc (s.owner q) c 6) 0
      (s.camberCounts (s.camberSlots (s.owner q) c))).chargeReads (s.owner q)
        (flatReads 1 (4 * ((s.camberSlots (s.owner q) c).map (fun p => p.2)).sum))).camberEnd (s.owner q) q c false) := by
  have hring : c.camberRing = false := by simp [Cmd.camberRing, hlocal]
  change execCamberUpdate q i s = _
  rw [execCamberUpdate, State.runCmd_of_runs h, s.shown_of_op q i c (.inr (by rw [h.op]; decide))]
  simp only [hring, hmode, Bool.false_eq_true, if_false]

/-- A CAMBER_UPDATE that reduces runs as a collective does. -/
theorem exec_camberUpdate_reduces {t : State} (hmode : fld (c.s 1) 1 0 ≠ 2) (hlocal : bitOf (c.s 1) 2 = false)
    (ht : runRing s q c = .busy t) : exec (.camberUpdate q i) s = .next t := by
  have hring : c.camberRing = true := by simp [Cmd.camberRing, hlocal, hmode]
  change execCamberUpdate q i s = _
  rw [execCamberUpdate, State.runCmd_of_runs h, s.shown_of_op q i c (.inr (by rw [h.op]; decide))]
  simp only [hring, if_true, ht]

end

-- the banks do not depend on the accounts

/-- s with other 48-bit counters and energy remainders. -/
def State.accounts (s : State) (x : List (Nat × U48)) (y : List (Nat × Nat)) : State := { s with cnt48 := x, energyRem := y }

theorem State.chargeReads_eq (s : State) (own : Nat) (l : List (Nat × Nat × Bool)) :
    s.chargeReads own l = s.accounts (s.chargeReads own l).cnt48 (s.chargeReads own l).energyRem := by
  rw [State.chargeReads]
  induction l generalizing s with
  | nil => rfl
  | cons x l ih => exact ih _

section
variable (s : State) (x : List (Nat × U48)) (y : List (Nat × Nat))

theorem State.wr_accounts (bs : List Byte) (a : Nat) : (s.accounts x y).wr a bs = (s.wr a bs).accounts x y := by
  induction bs generalizing s a with
  | nil => rfl
  | cons b bs ih => exact ih (s.wr8 a b) (a + 1)

theorem State.puts_accounts (ws : List (Nat × List Byte)) : (s.accounts x y).puts ws = (s.puts ws).accounts x y := by
  induction ws generalizing s with
  | nil => rfl
  | cons w ws ih => rw [State.puts, State.wr_accounts, ih, State.puts]

theorem State.unhide_accounts (q : Nat) (i : U32) : (s.accounts x y).unhide q i = (s.unhide q i).accounts x y := by
  have hfind : (s.accounts x y).findCmd q i = s.findCmd q i := rfl
  rw [State.unhide, hfind, State.unhide]
  cases s.findCmd q i with
  | none => rfl
  | some c => exact congrArg (State.updCmd · q i _) (s.puts_accounts x y c.saved)

theorem State.biasPass_accounts (mode : Nat) (gamma bmax : K36) (rc : List Nat) (k : Nat) (sl : List (Nat × Nat)) :
    (s.accounts x y).biasPass mode gamma bmax rc k sl = (s.biasPass mode gamma bmax rc k sl).accounts x y := by
  induction sl generalizing s k with
  | nil => rfl
  | cons p sl ih =>
    rw [State.biasPass, State.biasPass, ← ih, ← State.wr_accounts]
    rfl

theorem State.mem_camberBanks_accounts (own : Nat) (c : Cmd) : ((s.accounts x y).camberBanks own c).mem
    = (s.biasPass (fld (c.s 1) 1 0) (kOf32 (c.s 4)) (kOf32 (c.s 5)) (s.camberSums own c) 0 (s.camberSlots own c)).mem := by
  rw [State.camberBanks, State.mem_chargeReads, State.biasPass_accounts]
  rfl

theorem State.moved_camberBanks_accounts (own : Nat) (c : Cmd) : Moved s ((s.accounts x y).camberBanks own c) :=
  ((Moved.refl s).plain rfl).trans ((s.accounts x y).moved_camberBanks own c)

end

/-- A CAMBER_UPDATE that is local: with its counts in the buffer, and what it keeps of its outputs in memory again, its banks are
written and it is complete. -/
theorem exec_camberUpdate_banks {s b : State} {q : Nat} {i : U32} {c : Cmd} (h : Runs s q i 0x3D c) (hmode : fld (c.s 1) 1 0 ≠ 2)
    (hlocal : bitOf (c.s 1) 2 = true) (hb : b = (s.strWr (s.dsc (s.owner q) c 6) 0
      (s.camberCounts (s.camberSlots (s.owner q) c))).unhide q i) :
    ∃ x y, exec (.camberUpdate q i) s
      = .next (((b.accounts x y).camberBanks (s.owner q) c).complete q i (b.camberClears (s.owner q) c)) := by
  obtain rfl := State.findCmd_idx h.found
  have hexec := exec_camberUpdate_local h hmode hlocal
  rw [State.camberEnd_eq, State.chargeReads_eq, State.unhide_accounts, ← hb, if_neg Bool.false_ne_true, List.append_nil] at hexec
  exact ⟨_, _, hexec⟩

/-- Settles O18: the runs of the two commands, the addition word by word, and for the local CAMBER_UPDATE that its banks do not
depend on what has been charged. -/
theorem camberCommandsComplete : Obligations.CamberCommandsComplete := by
  refine ⟨⟨fun s q i c d h hd => ?_, fun s own sl cs j hlen hj => s.rd32_camberAddAct own sl hlen hj⟩, fun s q i c h => ?_⟩
  · subst hd
    cases hsl : s.accumSlot (s.owner q) c with
    | none => exact ⟨s, exec_camberAccum_none h hsl, (Moved.refl s).onlyMemory.1, rfl, rfl⟩
    | some sl =>
      obtain ⟨honly, hqueues⟩ := (s.moved_accumCharged (s.owner q) (s.dsc (s.owner q) c 1)).onlyMemory
      exact ⟨_, exec_camberAccum_slot h hsl, honly, hqueues, s.mem_accumCharged _ _⟩
  · obtain rfl := State.findCmd_idx h.found
    refine ⟨fun hmode => ?_, fun sl buf b hmode hlocal hsl hbuf hb hbsl hbbuf => ?_,
      fun slot r hmode hlocal hrings hq hi hst hrep hdec hfin htx hm hg hlead htr => ?_⟩
    · obtain ⟨honly, hqueues⟩ := (((Moved.refl s).loadBanks (s := s) (k := 0) (s.dsc (s.owner q) c 6)
        (s.camberSlots (s.owner q) c)).chargeReads (s.owner q) _).onlyMemory
      refine ⟨_, exec_camberUpdate_loads h hmode, honly, hqueues, fun sl e hone => ?_⟩
      rw [State.mem_chargeReads, hone]
      rfl
    · subst hsl hbuf
      obtain ⟨x, y, hexec⟩ := exec_camberUpdate_banks h hmode hlocal hb
      obtain ⟨honly, hqueues⟩ := (b.moved_camberBanks_accounts x y (s.owner q) c).onlyMemory
      rw [State.camberClears, hbsl] at hexec
      refine ⟨_, hexec, honly, hqueues, ?_⟩
      rw [State.mem_camberBanks_accounts, State.camberSums, hbsl, hbbuf]
    · have hring := State.findRing_of_rings hrings
      obtain ⟨y, hy, hphase, -⟩ := PartDone.alone ⟨hring, hst, hrep, hdec, hfin, htx⟩ hm hg hlead htr
        (by rw [hq, hi]; exact h.found)
      rw [hq, hi] at hy
      exact ⟨_, y, exec_camberUpdate_reduces h hmode hlocal
        (runRing_started (by rw [← hq, ← hi]; exact State.ringOf_of_rings hrings) hst), hy, hphase⟩

end Sys2Proof.Machine
end

section
/-! PROOFS. What the Gantry's commands share (R34, R217, R229): a run that stores some writes and is counted and charged, and the
command that is complete with it. -/
namespace Sys2Proof.Machine

/-- u is t but for what has been counted and charged: memory stands. -/
structure Charged (t u : State) : Prop where
  moved : Moved t u
  mem   : u.mem = t.mem

theorem Charged.refl (s : State) : Charged s s := ⟨.refl s, rfl⟩

section
variable {t u : State} (h : Charged t u)
include h

theorem Charged.opCount (o f n : Nat) : Charged t (u.opCount o f n) :=
  ⟨h.moved.opCount _ _ _, (u.mem_opCount _ _ _).trans h.mem⟩

theorem Charged.mxCount (a b r n : Nat) : Charged t (u.mxCount a b r n) :=
  ⟨h.moved.mxCount _ _ _ _, (u.mem_mxCount _ _ _ _).trans h.mem⟩

theorem Charged.fuCharge (own f n : Nat) (b : FuBank) (m : Nat) : Charged t (u.fuCharge own f n b m) :=
  ⟨h.moved.fuCharge _ _ _ _ _, (u.mem_fuCharge _ _ _ _ _).trans h.mem⟩

/-- What every command of the Gantry charges at its end: its beats, its reads and its rows. -/
theorem Charged.rows (own : Nat) (ks : List Nat) (reads : List (Nat × Nat × Bool)) (k r n : Nat) (half : Bool) :
    Charged t (((u.charge own ks).chargeReads own reads).chargeRows own k r n half) :=
  ⟨((h.moved.charge _ _).chargeReads _ _).chargeRows _ _ _ _ _, by simpa using h.mem⟩

end

/-- u is v with some writes done, but for what has been counted, charged and drawn. -/
structure Wrote (v u : State) (ws : List (Nat × List Byte)) : Prop where
  moved : Moved v u
  mem   : u.mem = (v.puts ws).mem

theorem Wrote.of_charged {v u : State} {ws : List (Nat × List Byte)} (h : Charged (v.puts ws) u) : Wrote v u ws :=
  ⟨((Moved.refl v).puts ws).trans h.moved, h.mem⟩

section
variable {v u : State} {ws : List (Nat × List Byte)}

theorem Wrote.rd8_out (h : Wrote v u ws) {a : Nat} (ha : ¬ touches ws a) : u.rd8 a = v.rd8 a :=
  (State.rd8_of_mem h.mem a).trans (State.rd8_puts_out ws v a ha)

theorem Wrote.holdsRows {d : Desc} {n : Nat} {row : Nat → List Byte} (h : Wrote v u (d.rowsPut n row)) :
    HoldsRows u d n row :=
  holdsRows_puts v u d n row (State.rd8_of_mem h.mem)

end

/-- A run that is done completes its command. -/
theorem State.runCmd_of_done {s u : State} {q op : Nat} {i : U32} {c : Cmd} (h : Runs s q i op c)
    {f : State → Nat → Cmd → RunRes} {acts : List Act} (hf : f (s.shown q i c) (s.owner q) c = .done u acts) :
    s.runCmd q i op f = u.complete q i acts := by
  rw [State.runCmd_of_runs h, hf]

end Sys2Proof.Machine
end

section
/-! PROOFS. COPY (R217, R219, R221, R237): every row is read and converted before a row is written. -/
namespace Sys2Proof.Machine

variable (s : State) (own : Nat) (c : Cmd)

/-- The bytes that COPY stores in destination row r. -/
def State.copyOut (r : Nat) : List Byte :=
  if c.s 5 = 0 then
    (convAny (s.dsc own c 1).fmt (s.dsc own c 2).fmt (s.dsc own c 2).d0
      (s.copyRow (s.dsc own c 1) (s.dsc own c 2) (c.s 3) (c.s 4) r)).1
  else
    (s.fuRow (c.fuB.getD 0) (c.s 5) (s.dsc own c 1).fmt (s.dsc own c 2).fmt (s.dsc own c 2).d0
      (s.copyRow (s.dsc own c 1) (s.dsc own c 2) (c.s 3) (c.s 4) r)).1

theorem runCopy_writes : ∃ u acts, runCopy s own c = .done u acts
    ∧ Wrote s u ((s.dsc own c 2).rowsPut (c.s 0) (s.copyOut own c)) := by
  unfold runCopy
  extract_lets sd dd f n raw fb rows s1 s2 s3
  have hrow (r : Nat) (hr : r < c.s 0) : (rows.getD r default).1 = s.copyOut own c r := by
    simp only [rows, raw, List.getD_eq_getElem?_getD, List.getElem?_map, List.getElem?_range hr, Option.map_some,
      Option.getD_some, State.copyOut]
    by_cases hf : c.s 5 = 0
    · rw [if_pos hf, if_pos hf]
    · rw [if_neg hf, if_neg hf]
  have hs1 : s1 = s.puts (dd.rowsPut (c.s 0) (s.copyOut own c)) :=
    (State.foldl_strWr dd (fun r => (rows.getD r default).1) _ s).trans
      (congrArg s.puts (flatMap_congr_of_mem fun r hr => by rw [hrow r (List.mem_range.1 hr)]))
  have h2 : Charged s1 s2 := (((Charged.refl s1).opCount _ _ _).opCount _ _ _).mxCount _ _ _ _
  have h3 : Charged s1 s3 := by
    by_cases hf : f = 0
    · rw [show s3 = s2 from if_pos hf]
      exact h2
    · rw [show s3 = _ from if_neg hf]
      exact (h2.fuCharge _ _ _ _ _).opCount _ _ _
  exact ⟨_, _, rfl, .of_charged (hs1 ▸ h3.rows _ _ _ _ _ _ _)⟩

/-- Settles O10: the run of COPY (`runCopy_writes`), which reads every row before it writes one. -/
theorem copyWritesItsRows : Obligations.CopyWritesItsRows := by
  intro s v q i c sd dd row hrun hv hsd hdd hrow
  subst hv hsd hdd hrow
  obtain ⟨u, acts, hdone, hw⟩ := runCopy_writes (s.shown q i c) (s.owner q) c
  obtain ⟨honly, hqueues⟩ := hw.moved.onlyMemory
  exact ⟨u, acts, congrArg _ (State.runCmd_of_done hrun hdone), honly, hqueues, fun a => hw.rd8_out, hw.holdsRows⟩

end Sys2Proof.Machine
end

section
/-! PROOFS. The gathers (R223, R224, R228): what one index stores, which writes clear of its source row leave as it is, and the
rows of a whole index list. -/
namespace Sys2Proof.Machine

-- the rows as a list of writes

section
variable (v : State) (own : Nat) (sd dd : Desc)

/-- The writes of a gather for some indices, the first of them for destination row j. -/
def State.gatherPuts (j : Nat) (xs : List (Option Nat)) : List (Nat × List Byte) :=
  (xs.zipIdx j).flatMap (fun p => dd.put (p.2 * dd.rowB) (v.gatherRow own sd dd p.1))

theorem State.gatherPuts_cons (j : Nat) (x : Option Nat) (xs : List (Option Nat)) :
    v.gatherPuts own sd dd j (x :: xs)
      = dd.put (j * dd.rowB) (v.gatherRow own sd dd x) ++ v.gatherPuts own sd dd (j + 1) xs := by
  rw [State.gatherPuts, List.zipIdx_cons, List.flatMap_cons, State.gatherPuts]

theorem zipIdx_eq_map_range {α : Type} (l : List α) (d : α) :
    l.zipIdx = (List.range l.length).map (fun r => (l.getD r d, r)) := by
  refine List.ext_getElem (by rw [List.length_zipIdx, List.length_map, List.length_range]) fun r h1 h2 => ?_
  rw [List.length_zipIdx] at h1
  rw [List.getElem_zipIdx, List.getElem_map, List.getElem_range, List.getD_eq_getElem?_getD, List.getElem?_eq_getElem h1,
    Option.getD_some, Nat.zero_add]

theorem State.gatherPuts_zero (ix : List (Option Nat)) :
    v.gatherPuts own sd dd 0 ix = dd.rowsPut ix.length (fun r => v.gatherRow own sd dd (ix.getD r none)) := by
  rw [State.gatherPuts, zipIdx_eq_map_range ix none, List.flatMap_map, Desc.rowsPut]

end

-- writes that stand clear of a source row

section
variable {v : State} {own : Nat} {sd dd : Desc} {ws : List (Nat × List Byte)} {k : Nat}

theorem State.puts_frame (ws : List (Nat × List Byte)) (s : State) : s.puts ws = { s with mem := (s.puts ws).mem } := by
  induction ws generalizing s with
  | nil => rfl
  | cons w ws ih => rw [State.puts, ih, s.wr_frame]

/-- An entry of a descriptor table reads as before where no write touches its 64 bytes. -/
theorem State.desc_puts (h : Nat) (hc : ∀ o, o < 64 → ¬ touches ws (v.descAddr own h + o)) :
    (v.puts ws).desc own h = v.desc own h := by
  have haddr : (v.puts ws).descAddr own h = v.descAddr own h := by
    simp only [State.descAddr, State.rpair, State.reg_of_regs (v.regs_puts ws)]
  have hcache : (v.puts ws).dcache = v.dcache := by rw [State.puts_frame]
  have hfree : (v.puts ws).free = v.free := by rw [State.puts_frame]
  have hwords : (v.puts ws).descWords own h = v.descWords own h := by
    refine List.map_congr_left fun i hi => ?_
    have hi := List.mem_range.1 hi
    rw [haddr, State.rd32, State.rdLe, State.rd, State.rd32, State.rdLe, State.rd]
    refine congrArg (fun l => u32 (leNat l)) (List.map_congr_left fun b hb => ?_)
    have hb := List.mem_range.1 hb
    rw [Nat.add_assoc]
    exact State.rd8_puts_out _ _ _ (hc _ (by omega))
  have hold (m : List U32) : (v.puts ws).descOld own h m = v.descOld own h m := by rw [State.descOld, hcache, State.descOld]
  rw [State.desc, hwords, hold, hfree]
  rfl

/-- A page is looked up as before where no write touches its page-list entry and the entry of the list's descriptor. -/
theorem State.pagedRow_puts (hl : ∀ o, o < 64 → ¬ touches ws (v.descAddr own sd.plist + o))
    (he : ∀ o, o < 8 → ¬ touches ws ((v.desc own sd.plist).byteAt (8 * (k / (2 ^ sd.ps / sd.p1)) + o))) :
    (v.puts ws).pagedRow own sd k = v.pagedRow own sd k := by
  have hentry : (v.puts ws).strLe (v.desc own sd.plist) (8 * (k / (2 ^ sd.ps / sd.p1))) 8
      = v.strLe (v.desc own sd.plist) (8 * (k / (2 ^ sd.ps / sd.p1))) 8 :=
    congrArg leNat (State.strRd_congr fun o ho => State.rd8_puts_out _ _ _ (he o ho))
  have hwin (a n : Nat) : (v.puts ws).inWindow own a n = v.inWindow own a n := by
    simp only [State.inWindow, State.reg_of_regs (v.regs_puts ws)]
  simp only [State.pagedRow, State.desc_puts _ hl, hentry, hwin]

/-- What an index stores does not change with writes that stand clear of the row it names. -/
theorem State.rowClear.gatherRow_puts (h : v.rowClear own sd ws k) :
    (v.puts ws).gatherRow own sd dd (some k) = v.gatherRow own sd dd (some k) := by
  by_cases hl : sd.layout = 2
  · rw [State.rowClear, if_pos hl] at h
    obtain ⟨hlist, hentry, hpage⟩ := h
    simp only [State.gatherRow, if_pos hl, State.pagedRow_puts hlist hentry]
    cases hp : v.pagedRow own sd k with
    | error f => rfl
    | ok a =>
      cases a with
      | none => rfl
      | some a =>
        rw [hp] at hpage
        have hrd : (v.puts ws).rd a sd.rowB = v.rd a sd.rowB :=
          List.map_congr_left fun o ho => State.rd8_puts_out _ _ _ (hpage o (List.mem_range.1 ho))
        exact congrArg (fun r => (convAny sd.fmt dd.fmt sd.d0 r).1) hrd
  · rw [State.rowClear, if_neg hl] at h
    simp only [State.gatherRow, if_neg hl]
    rw [State.strRd_congr fun o ho => State.rd8_puts_out _ _ _ (h o ho)]

theorem State.rowClear.of_append {vs : List (Nat × List Byte)} (h : v.rowClear own sd (ws ++ vs) k) : v.rowClear own sd ws k := by
  have hsub {a : Nat} (ha : ¬ touches (ws ++ vs) a) : ¬ touches ws a := fun ht => ha ((touches_append ws vs a).2 (.inl ht))
  by_cases hl : sd.layout = 2
  · rw [State.rowClear, if_pos hl] at h ⊢
    obtain ⟨hlist, hentry, hpage⟩ := h
    refine ⟨fun o ho => hsub (hlist o ho), fun o ho => hsub (hentry o ho), ?_⟩
    revert hpage
    cases v.pagedRow own sd k with
    | error f => exact id
    | ok a =>
      cases a with
      | none => exact id
      | some a => exact fun hpage o ho => hsub (hpage o ho)
  · rw [State.rowClear, if_neg hl] at h ⊢
    exact fun o ho => hsub (h o ho)

/-- The page entry of a row that stands clear is good. -/
theorem State.rowClear.page_ok (h : v.rowClear own sd ws k) (hl : sd.layout = 2) :
    ∃ a, (v.puts ws).pagedRow own sd k = .ok a := by
  rw [State.rowClear, if_pos hl] at h
  obtain ⟨hlist, hentry, hpage⟩ := h
  rw [State.pagedRow_puts hlist hentry]
  cases hp : v.pagedRow own sd k with
  | error f => rw [hp] at hpage; exact hpage.elim
  | ok a => exact ⟨a, rfl⟩

end

-- the run

section
variable {v : State} {own : Nat} {sd dd : Desc} {done ws : List (Nat × List Byte)}

/-- An index whose page entry, if it has one, is good: its row is stored, and the gather goes on. -/
theorem State.gatherRows_cons (s : State) (j : Nat) (x : Option Nat) (xs : List (Option Nat)) (y : GatherTally)
    (hpage : ∀ k, x = some k → sd.layout = 2 → ∃ a, s.pagedRow own sd k = .ok a) :
    ∃ y', s.gatherRows own sd dd j (x :: xs) y
      = (s.strWr dd (j * dd.rowB) (s.gatherRow own sd dd x)).gatherRows own sd dd (j + 1) xs y' := by
  cases x with
  | none => exact ⟨_, rfl⟩
  | some k =>
    rw [State.gatherRows]
    by_cases hl : sd.layout = 2
    · obtain ⟨a, ha⟩ := hpage k rfl hl
      cases a with
      | none => simp only [State.gatherRow, if_pos hl, ha]; exact ⟨_, rfl⟩
      | some a => simp only [State.gatherRow, if_pos hl, ha]; exact ⟨_, rfl⟩
    · simp only [State.gatherRow, if_neg hl]
      exact ⟨_, rfl⟩

/-- The gather of some indices, after other writes of the same command: where every row that an index names stands clear of
all its writes, it meets no bad page and stores the rows as v has them. -/
theorem State.gatherRows_puts (xs : List (Option Nat)) (j : Nat) (y : GatherTally) (hws : ws = done ++ v.gatherPuts own sd dd j xs)
    (hclear : ∀ k, some k ∈ xs → v.rowClear own sd ws k) :
    ((v.puts done).gatherRows own sd dd j xs y).1 = none
      ∧ ((v.puts done).gatherRows own sd dd j xs y).2.2 = v.puts ws := by
  induction xs generalizing done j y with
  | nil =>
    rw [hws]
    exact ⟨rfl, congrArg v.puts (List.append_nil done).symm⟩
  | cons x xs ih =>
    have hdone (k : Nat) (hk : x = some k) : v.rowClear own sd done k :=
      (hws ▸ hclear k (by simp [hk])).of_append
    obtain ⟨y', hy⟩ := (v.puts done).gatherRows_cons (dd := dd) j x xs y fun k hk => (hdone k hk).page_ok
    have hrow : (v.puts done).gatherRow own sd dd x = v.gatherRow own sd dd x := by
      cases x with
      | none => rfl
      | some k => exact (hdone k rfl).gatherRow_puts
    rw [hy, hrow, State.strWr, ← State.puts_append]
    refine ih _ _ ?_ fun k hk => hclear k (List.mem_cons_of_mem _ hk)
    rw [hws, State.gatherPuts_cons, List.append_assoc]

end

theorem State.length_indices (s : State) (d : Desc) (n rows : Nat) : (s.indices d n rows).length = n := by
  rw [State.indices, List.length_map, List.length_range]

section
variable (v : State) (own : Nat) (c : Cmd)

/-- The rows that the indices of an indexed command name in its source, or none. -/
def State.gatherIx : List (Option Nat) := v.indices (v.dsc own c 2) (c.s 0) (v.dsc own c 1).rows

/-- What a gather stores in destination row r. -/
def State.gatherOut (r : Nat) : List Byte :=
  v.gatherRow own (v.dsc own c 1) (v.dsc own c 3) ((v.gatherIx own c).getD r none)

theorem runGather_writes (op : Nat) (hclear : ∀ k, some k ∈ v.gatherIx own c →
      v.rowClear own (v.dsc own c 1) ((v.dsc own c 3).rowsPut (c.s 0) (v.gatherOut own c)) k) :
    ∃ u acts, runGather v own op c = .done u acts ∧ Wrote v u ((v.dsc own c 3).rowsPut (c.s 0) (v.gatherOut own c)) := by
  unfold runGather
  extract_lets sd dd n r y pages s1
  have hall : dd.rowsPut (c.s 0) (v.gatherOut own c) = [] ++ v.gatherPuts own sd dd 0 (v.gatherIx own c) := by
    rw [List.nil_append, State.gatherPuts_zero, State.gatherIx, State.length_indices]
    rfl
  obtain ⟨hnone, hstate⟩ : r.1 = none ∧ r.2.2 = v.puts (dd.rowsPut (c.s 0) (v.gatherOut own c)) :=
    State.gatherRows_puts _ 0 {} hall hclear
  have h1 : Charged r.2.2 s1 := (((Charged.refl _).opCount _ _ _).mxCount _ _ _ _).rows _ _ _ _ _ _ _
  rw [hstate] at h1
  split
  · next f hf => rw [hnone] at hf; cases hf
  · exact ⟨_, _, rfl, .of_charged h1⟩

end

/-- Settles O11: the run of a gather (`runGather_writes`), each of whose rows is what it was before the others were stored. -/
theorem gatherWritesItsRows : Obligations.GatherWritesItsRows := by
  intro s v q i c op k sd dd ix row hk hrun hv hsd hdd hix hrow hclear
  subst hv hsd hdd hix hrow
  have hwrites := fun n => runGather_writes (s.shown q i c) (s.owner q) c n hclear
  obtain ⟨u, acts, hexec, hw⟩ : ∃ u acts, exec k s = .next (u.complete q i acts) ∧ Wrote (s.shown q i c) u _ := by
    rcases hk with ⟨rfl, rfl⟩ | ⟨rfl, rfl⟩
    · obtain ⟨u, acts, hdone, hw⟩ := hwrites 14
      exact ⟨u, acts, congrArg _ (State.runCmd_of_done hrun hdone), hw⟩
    · obtain ⟨u, acts, hdone, hw⟩ := hwrites 17
      exact ⟨u, acts, congrArg _ (State.runCmd_of_done hrun hdone), hw⟩
  obtain ⟨honly, hqueues⟩ := hw.moved.onlyMemory
  exact ⟨u, acts, hexec, honly, hqueues, fun a => hw.rd8_out, hw.holdsRows⟩

end Sys2Proof.Machine
end

section
/-! PROOFS. The scatters (R223, R225, R226): the rows that their indices name, the last of several that name one row, and the
sums of SCATTER_ACC. -/
namespace Sys2Proof.Machine

-- the rows that the indices name

theorem flatMap_toList {α β : Type} (f : α → Option β) (l : List α) : l.flatMap (fun a => (f a).toList) = l.filterMap f := by
  induction l with
  | nil => rfl
  | cons a l ih =>
    rw [List.flatMap_cons, ih, List.filterMap_cons]
    cases f a <;> rfl

theorem scatterPairs_eq_filterMap (ix : List (Option Nat)) :
    scatterPairs ix = (List.range ix.length).filterMap (fun j => (ix.getD j none).map (fun x => (j, x))) := by
  rw [← flatMap_toList, scatterPairs]
  refine flatMap_congr_of_mem fun j _ => ?_
  cases ix.getD j none <;> rfl

theorem mem_scatterPairs {ix : List (Option Nat)} {j x : Nat} : (j, x) ∈ scatterPairs ix ↔ ix[j]? = some (some x) := by
  rw [scatterPairs_eq_filterMap, List.mem_filterMap]
  constructor
  · rintro ⟨j', hj, hx⟩
    obtain ⟨y, hy, he⟩ := Option.map_eq_some_iff.1 hx
    cases he
    rw [List.getD_eq_getElem?_getD, List.getElem?_eq_getElem (List.mem_range.1 hj), Option.getD_some] at hy
    rw [List.getElem?_eq_getElem (List.mem_range.1 hj), hy]
  · intro h
    obtain ⟨hj, -⟩ := List.getElem?_eq_some_iff.1 h
    exact ⟨j, List.mem_range.2 hj, by rw [List.getD_eq_getElem?_getD, h]; rfl⟩

/-- The pairs of a scatter stand in ascending j. -/
theorem pairwise_scatterPairs (ix : List (Option Nat)) : (scatterPairs ix).Pairwise (fun a b => a.1 < b.1) := by
  rw [scatterPairs_eq_filterMap]
  refine List.Pairwise.filterMap _ (fun j j' hlt p hp p' hp' => ?_) List.pairwise_lt_range
  obtain ⟨-, -, rfl⟩ := Option.map_eq_some_iff.1 hp
  obtain ⟨-, -, rfl⟩ := Option.map_eq_some_iff.1 hp'
  exact hlt

/-- The writes of a scatter: each row goes to the row that its index names. -/
def Desc.scatterPuts (d : Desc) (row : Nat → List Byte) (ps : List (Nat × Nat)) : List (Nat × List Byte) :=
  ps.flatMap (fun p => d.put (p.2 * d.rowB) (row p.1))

/-- A byte of the last row that an index names stands where no other byte of the named rows has its address. -/
theorem State.rd8_scatterPuts (s : State) (d : Desc) (row : Nat → List Byte) {ix : List (Option Nat)} {j x o : Nat} {b : Byte}
    (hlen : ∀ j, (row j).length = d.rowB) (hj : ix[j]? = some (some x)) (hb : (row j)[o]? = some b)
    (hlast : ∀ j', j < j' → ix[j']? ≠ some (some x))
    (hapart : ∀ y o', some y ∈ ix → o' < d.rowB → (y, o') ≠ (x, o) →
      d.byteAt (y * d.rowB + o') % addrMod ≠ d.byteAt (x * d.rowB + o) % addrMod) :
    (s.puts (d.scatterPuts row (scatterPairs ix))).rd8 (d.byteAt (x * d.rowB + o)) = b := by
  obtain ⟨before, after, hsplit⟩ := List.append_of_mem (mem_scatterPairs.2 hj)
  have hafter : ¬ touches (d.scatterPuts row after) (d.byteAt (x * d.rowB + o)) := by
    rintro ⟨w, hw, ht⟩
    obtain ⟨⟨j', y⟩, hp, hw⟩ := List.mem_flatMap.1 hw
    have hsorted := hsplit ▸ pairwise_scatterPairs ix
    have hlt : j < j' := (List.pairwise_cons.1 (List.pairwise_append.1 hsorted).2.1).1 _ hp
    have hy : ix[j']? = some (some y) := mem_scatterPairs.1 (hsplit ▸ List.mem_append_right _ (List.mem_cons_of_mem _ hp))
    obtain ⟨o', ho', ha⟩ := d.put_touch y _ _ (hlen j') ⟨w, hw, ht⟩
    refine hapart y o' (List.mem_of_getElem? hy) ho' (fun he => ?_) ha
    cases he
    exact hlast j' hlt hy
  have hputs : s.puts (d.scatterPuts row (scatterPairs ix))
      = ((s.puts (d.scatterPuts row before)).strWr d (x * d.rowB) (row j)).puts (d.scatterPuts row after) := by
    rw [hsplit, Desc.scatterPuts, List.flatMap_append, List.flatMap_cons, State.puts_append, State.puts_append]
    rfl
  rw [hputs, State.rd8_puts_out _ _ _ hafter]
  exact State.rd8_put_in _ d x o _ b (hlen j) hb fun o' ho' hne =>
    hapart x o' (List.mem_of_getElem? hj) ho' fun he => hne (congrArg Prod.snd he)

/-- Rows of pairs written one after the other. -/
theorem State.foldl_scatterPuts (d : Desc) (row : Nat → List Byte) (ps : List (Nat × Nat)) (s : State) :
    ps.foldl (fun s p => s.strWr d (p.2 * d.rowB) (row p.1)) s = s.puts (d.scatterPuts row ps) := by
  induction ps generalizing s with
  | nil => rfl
  | cons p ps ih => rw [List.foldl_cons, ih, Desc.scatterPuts, Desc.scatterPuts, List.flatMap_cons, State.puts_append, State.strWr]

-- SCATTER

section
variable (v : State) (own : Nat) (c : Cmd)

/-- The pairs of a scatter: the rows that its indices in bounds name, in ascending j. -/
def State.scatterRows : List (Nat × Nat) := scatterPairs (v.indices (v.dsc own c 2) (c.s 0) (v.dsc own c 3).rows)

/-- Source row j as SCATTER stores it. -/
def State.scatterOut (j : Nat) : List Byte :=
  (convAny (v.dsc own c 1).fmt (v.dsc own c 3).fmt (v.dsc own c 1).d0
    (v.strRd (v.dsc own c 1) (j * (v.dsc own c 1).rowB) (v.dsc own c 1).rowB)).1

theorem runScatter_writes : ∃ u acts, runScatter v own c = .done u acts
    ∧ Wrote v u ((v.dsc own c 3).scatterPuts (v.scatterOut own c) (v.scatterRows own c)) := by
  unfold runScatter
  extract_lets sd dd ps rows s1 drop s2
  have hs1 : s1 = v.puts (dd.scatterPuts (v.scatterOut own c) ps) :=
    List.foldl_map.trans (State.foldl_scatterPuts dd (v.scatterOut own c) ps v)
  have h2 : Charged s1 s2 := (((Charged.refl s1).opCount _ _ _).mxCount _ _ _ _).rows _ _ _ _ _ _ _
  exact ⟨_, _, rfl, .of_charged (hs1 ▸ h2)⟩

end

-- SCATTER_ACC

theorem mem_of_mem_pickOrder {α : Type} {k fr : Nat} {l : List α} {a : α} (h : a ∈ (pickOrder k fr l).1) : a ∈ l := by
  induction k generalizing fr l with
  | zero => exact h
  | succ k ih =>
    unfold pickOrder at h
    dsimp only at h
    split at h
    · exact h
    · next x r hd =>
      have hl : l = l.take (Config.freePick fr % l.length) ++ x :: r := by rw [← hd, List.take_append_drop]
      rw [hl]
      rcases List.mem_cons.1 h with rfl | h
      · exact List.mem_append_right _ List.mem_cons_self
      · rcases List.mem_append.1 (ih h) with h | h
        · exact List.mem_append_left _ h
        · exact List.mem_append_right _ (List.mem_cons_of_mem _ h)

section
variable (s : State) (sd dd : Desc)

/-- The sum that an addition of SCATTER_ACC stores for a pair (j, row): element by element, what stands in the row and the
elements of source row j (R226). -/
def State.accRow (p : Nat × Nat) : List Byte :=
  (List.range dd.d0).flatMap (fun e => natLe (ebOf dd.fmt)
    (accEl dd.fmt ((rowEls dd.fmt dd.d0 (s.strRd dd (p.2 * dd.rowB) dd.rowB)).getD e 0)
      ((rowEls sd.fmt sd.d0 (s.strRd sd (p.1 * sd.rowB) sd.rowB)).getD e 0)))

theorem State.length_accRow (p : Nat × Nat) : (s.accRow sd dd p).length = dd.d0 * ebOf dd.fmt := by
  rw [State.accRow, ← List.flatMap_map, length_flatMap_natLe, List.length_map, List.length_range]

/-- The additions of SCATTER_ACC, one after the other. -/
def State.accRows (ps : List (Nat × Nat)) : State := ps.foldl (fun s p => s.strWr dd (p.2 * dd.rowB) (s.accRow sd dd p)) s

/-- The writes that zero the rows of some pairs: they touch every byte that an addition there stores. -/
def Desc.zeroNamed (d : Desc) (ps : List (Nat × Nat)) : List (Nat × List Byte) :=
  ps.flatMap (fun p => d.put (p.2 * d.rowB) (List.replicate (d.d0 * ebOf d.fmt) 0))

variable {s sd dd} in
theorem Moved.accRows {s0 : State} (h : Moved s0 s) (ps : List (Nat × Nat)) : Moved s0 (s.accRows sd dd ps) := by
  induction ps generalizing s with
  | nil => exact h
  | cons p ps ih => exact ih (h.strWr _ _ _)

/-- Additions for some of the pairs store to the rows of the pairs only. -/
theorem State.rd8_accRows_out {ps qs : List (Nat × Nat)} {a : Nat} (hsub : qs ⊆ ps) (h : ¬ touches (dd.zeroNamed ps) a) :
    (s.accRows sd dd qs).rd8 a = s.rd8 a := by
  induction qs generalizing s with
  | nil => rfl
  | cons p qs ih =>
    obtain ⟨hp, hqs⟩ := List.cons_subset.1 hsub
    have hlen : (s.accRow sd dd p).length = (List.replicate (dd.d0 * ebOf dd.fmt) (0 : Byte)).length := by
      rw [State.length_accRow, List.length_replicate]
    have hrow : ¬ touches (dd.put (p.2 * dd.rowB) (s.accRow sd dd p)) a := fun ht => by
      obtain ⟨w, hw, hk⟩ := (dd.touches_put_congr _ hlen a).1 ht
      exact h ⟨w, List.mem_flatMap.2 ⟨p, hp, hw⟩, hk⟩
    rw [State.accRows, List.foldl_cons, ← State.accRows, ih _ hqs]
    exact State.rd8_puts_out _ _ _ hrow

end

section
variable (v : State) (own : Nat) (c : Cmd)

/-- The order in which SCATTER_ACC takes its pairs: ascending j in ordered mode, else free picks (R226). -/
def State.accOrder (ps : List (Nat × Nat)) : List (Nat × Nat) × Nat :=
  if v.ordOf own then (ps, v.free) else pickOrder (ps.length - 1) v.free ps

theorem State.accOrder_subset (ps : List (Nat × Nat)) : (v.accOrder own ps).1 ⊆ ps := by
  intro p hp
  by_cases ho : v.ordOf own = true
  · rwa [State.accOrder, if_pos ho] at hp
  · rw [State.accOrder, if_neg ho] at hp
    exact mem_of_mem_pickOrder hp

theorem State.accOrder_singleton (p : Nat × Nat) : v.accOrder own [p] = ([p], v.free) := ite_self _

/-- The state in which the additions of SCATTER_ACC have been done. -/
def State.accAdded : State :=
  { v with free := (v.accOrder own (v.scatterRows own c)).2 }.accRows (v.dsc own c 1) (v.dsc own c 3)
    (v.accOrder own (v.scatterRows own c)).1

theorem State.moved_accAdded : Moved v (v.accAdded own c) := ((Moved.refl v).free _).accRows _

theorem runScatterAcc_adds : ∃ u acts, runScatterAcc v own c = .done u acts ∧ Charged (v.accAdded own c) u :=
  ⟨_, _, rfl, ((Charged.refl _).opCount _ _ _).rows _ _ _ _ _ _ _⟩

theorem State.rd8_accAdded_out {a : Nat} (h : ¬ touches ((v.dsc own c 3).zeroNamed (v.scatterRows own c)) a) :
    (v.accAdded own c).rd8 a = v.rd8 a :=
  State.rd8_accRows_out _ _ _ (v.accOrder_subset own _) h

/-- With one index alone in bounds the named row takes the sum of what stood and the source row. -/
theorem State.accAdded_single {j x : Nat} (h : v.scatterRows own c = [(j, x)]) :
    v.accAdded own c = v.strWr (v.dsc own c 3) (x * (v.dsc own c 3).rowB) (v.accRow (v.dsc own c 1) (v.dsc own c 3) (j, x)) := by
  rw [State.accAdded, h, State.accOrder_singleton]
  rfl

end

/-- Settles O12: the writes of SCATTER (`runScatter_writes`), of which the last to a row stands (`State.rd8_scatterPuts`), and the
additions of SCATTER_ACC in whatever order (`runScatterAcc_adds`). -/
theorem scattersStoreNamedRows : Obligations.ScattersStoreNamedRows := by
  refine ⟨fun s v q i c sd dd ix row hrun hv hsd hdd hix hrow => ?_, fun s v q i c sd dd ps n hrun hv hsd hdd hn hps => ?_⟩
  · subst hv hsd hdd hix hrow
    obtain ⟨u, acts, hdone, hw⟩ := runScatter_writes (s.shown q i c) (s.owner q) c
    obtain ⟨honly, hqueues⟩ := hw.moved.onlyMemory
    refine ⟨u, acts, congrArg _ (State.runCmd_of_done hrun hdone), honly, hqueues, fun a => hw.rd8_out, ?_⟩
    intro hlen j x o b hj hb hlast hapart
    rw [State.rd8_of_mem hw.mem]
    exact State.rd8_scatterPuts _ _ _ hlen hj hb hlast hapart
  · subst hv hsd hdd hn hps
    obtain ⟨u, acts, hdone, hm, hmem⟩ := runScatterAcc_adds (s.shown q i c) (s.owner q) c
    obtain ⟨honly, hqueues⟩ := ((State.moved_accAdded _ _ _).trans hm).onlyMemory
    refine ⟨u, acts, congrArg _ (State.runCmd_of_done hrun hdone), honly, hqueues, fun a ha => ?_, fun j x hone => ?_⟩
    · rw [State.rd8_of_mem hmem]
      exact State.rd8_accAdded_out _ _ _ ha
    · rw [hmem, State.accAdded_single _ _ _ hone]
      rfl

end Sys2Proof.Machine
end

section
/-! PROOFS. DESC_CREATE (R208, R213, R214) and DESC_RETIRE (R216): their runs, and the entry that reads back as its descriptor. -/
namespace Sys2Proof.Machine

-- the words of a stored entry

theorem natLe_mod (n v : Nat) : natLe n (v % 256 ^ n) = natLe n v := by
  induction n generalizing v with
  | zero => rfl
  | succ n ih =>
    rw [Nat.pow_succ', natLe, natLe, Nat.mod_mul_right_div_self, ih]
    exact congrArg (· :: _) (BitVec.eq_of_toNat_eq (Nat.mod_mod_of_dvd v (Nat.dvd_mul_right 256 _)))

/-- Eight bytes are two words. -/
theorem natLe_eight (x : Nat) : natLe 8 x = wordsBytes [x % 2 ^ 32, x / 2 ^ 32] := by
  have hdiv : x / 256 / 256 / 256 / 256 = x / 2 ^ 32 := by omega
  have hlow : natLe 4 (x % 2 ^ 32) = natLe 4 x := natLe_mod 4 x
  rw [wordsBytes, List.flatMap_cons, hlow, ← hdiv]
  rfl

theorem wordsBytes_append (ws vs : List Nat) : wordsBytes (ws ++ vs) = wordsBytes ws ++ wordsBytes vs := List.flatMap_append

/-- An entry that has been stored is what its table holds. -/
theorem State.descWords_wr (s : State) (own h : Nat) {ws : List Nat} (hlen : ws.length = 16) :
    (s.wr (s.descAddr own h) (wordsBytes ws)).descWords own h = ws.map u32 := by
  have haddr : (s.wr (s.descAddr own h) (wordsBytes ws)).descAddr own h = s.descAddr own h := by
    simp only [State.descAddr, State.rpair, State.reg_of_regs (s.regs_wr _ _)]
  refine List.ext_getElem (by simp [State.descWords, hlen]) fun k hk _ => ?_
  have hk : k < ws.length := by simpa [State.descWords, hlen] using hk
  simp only [State.descWords, haddr, List.getElem_map, List.getElem_range]
  rw [s.rd32_wr_words _ (List.getElem?_eq_getElem hk) (by rw [hlen]; decide)]
  exact BitVec.eq_of_toNat_eq (by simp [u32])

theorem toNat_getD_map_u32 {ws : List Nat} (h : ∀ w ∈ ws, w < 2 ^ 32) (k : Nat) :
    ((ws.map u32).getD k 0).toNat = ws.getD k 0 := by
  rw [List.getD_eq_getElem?_getD, List.getElem?_map, List.getD_eq_getElem?_getD]
  cases hk : ws[k]? with
  | none => rfl
  | some w => exact Nat.mod_eq_of_lt (h w (List.mem_of_getElem? hk))

/-- Where the descriptor cache holds no copy of an entry, a command uses the entry in memory (R208). -/
theorem State.desc_of_no_copy {s : State} {own h : Nat} (hc : ∀ y ∈ s.dcache, y.own = own → y.h ≠ h) :
    s.desc own h = descOf (fun k => ((s.descWords own h).getD k 0).toNat) := by
  have hnone (m : List U32) : s.descOld own h m = [] := by
    rw [State.descOld, List.filter_eq_nil_iff.2, List.map_nil]
    intro y hy hm
    simp only [Bool.and_eq_true, beq_iff_eq] at hm
    obtain ⟨⟨hown, hh⟩, -⟩ := hm
    exact hc y hy hown hh
  simp only [State.desc, hnone, List.isEmpty_nil, if_true]

/-- The words that follow words 0 to 13 of an entry give EXTENT, HALF and VALID (R214). -/
theorem descOf_append {ws : List Nat} (hlen : ws.length = 14) (lo hi : Nat) :
    descOf (fun k => (ws ++ [lo, hi]).getD k 0)
      = { descOf (fun k => ws.getD k 0) with ext := lo + 2 ^ 32 * fld hi 15 0, half := bitOf hi 30, valid := bitOf hi 31 } := by
  match ws, hlen with
  | [_, _, _, _, _, _, _, _, _, _, _, _, _, _], _ => rfl

/-- The last eight bytes of an entry, of extent x, as words. -/
def entryTail (x : Nat) (half : Bool) : Nat := x + 2 ^ 62 * b2n half + 2 ^ 63

section
variable {x : Nat} (hx : x < 2 ^ 48) (half : Bool)
include hx

theorem entryTail_lt : entryTail x half / 2 ^ 32 < 2 ^ 32 := by
  rw [entryTail, b2n]
  split <;> omega

theorem ext_entryTail : entryTail x half % 2 ^ 32 + 2 ^ 32 * fld (entryTail x half / 2 ^ 32) 15 0 = x := by
  rw [entryTail, b2n, fld]
  split <;> omega

theorem half_entryTail : bitOf (entryTail x half / 2 ^ 32) 30 = half := by
  cases half with
  | false =>
    rw [entryTail, b2n, if_neg Bool.false_ne_true, bitOf, beq_eq_false_iff_ne]
    omega
  | true =>
    rw [entryTail, b2n, if_pos rfl, bitOf, beq_iff_eq]
    omega

theorem valid_entryTail : bitOf (entryTail x half / 2 ^ 32) 31 = true := by
  rw [entryTail, b2n, bitOf, beq_iff_eq]
  split <;> omega

end

/-- The entry that DESC_CREATE stores reads back as its descriptor (R208, R214). -/
theorem State.desc_wr_entry (s : State) {own h x : Nat} {half : Bool} {ws : List Nat} (hlen : ws.length = 14)
    (hws : ∀ w ∈ ws, w < 2 ^ 32) (hx : x < 2 ^ 48) (hc : ∀ y ∈ s.dcache, y.own = own → y.h ≠ h) :
    (s.wr (s.descAddr own h) (wordsBytes ws ++ natLe 8 (entryTail x half))).desc own h
      = { descOf (fun k => ws.getD k 0) with ext := x, half := half, valid := true } := by
  have hcache (bs : List Byte) : (s.wr (s.descAddr own h) bs).dcache = s.dcache := by rw [s.wr_frame]
  have hall : ∀ w ∈ ws ++ [entryTail x half % 2 ^ 32, entryTail x half / 2 ^ 32], w < 2 ^ 32 := by
    refine List.forall_mem_append.2 ⟨hws, List.forall_mem_cons.2 ⟨Nat.mod_lt _ (Nat.two_pow_pos 32), ?_⟩⟩
    exact List.forall_mem_singleton.2 (entryTail_lt hx half)
  rw [State.desc_of_no_copy (by rw [hcache]; exact hc), natLe_eight, ← wordsBytes_append, s.descWords_wr own h (by simp [hlen])]
  have hword (k : Nat) : (((ws ++ [entryTail x half % 2 ^ 32, entryTail x half / 2 ^ 32]).map u32).getD k 0).toNat
      = (ws ++ [entryTail x half % 2 ^ 32, entryTail x half / 2 ^ 32]).getD k 0 := toNat_getD_map_u32 hall k
  simp only [hword, descOf_append hlen, ext_entryTail hx, half_entryTail hx, valid_entryTail hx]

-- the runs

section
variable {s : State} {q : Nat} {i : U32} {c : Cmd}

theorem exec_descCreate (h : Runs s q i 0x48 c) :
    exec (.descCreate q i) s = .next ((s.chargeReads (s.owner q) (flatReads 1 64)).complete q i []) := by
  change execDescCreate q i s = _
  rw [execDescCreate, State.runCmd_of_runs h, s.shown_of_op q i c (.inr (by rw [h.op]; decide))]

/-- The start of a DESC_CREATE whose image passes the checks prepares the entry (R213, R214). -/
theorem startDescCreate_of_ok {a : Nat} {ws : List Nat} (ha : a = c.s 1 + 2 ^ 32 * c.s 2)
    (hws : ws = (List.range 16).map (fun k => s.rd32 (a + 4 * k)))
    (hok : s.descChecks (s.owner q) c (fun k => ws.getD k 0) = none) :
    startDescCreate s q c = .go s { c with acts := [.write (s.descAddr (s.owner q) (c.h 0)) (wordsBytes (ws.take 14)
      ++ natLe 8 (entryTail ((descOf (fun k => ws.getD k 0)).extent % 2 ^ 48) (descOf (fun k => ws.getD k 0)).isHalf)),
        .descSync (c.h 0) 1] } := by
  subst ha hws
  simp only [startDescCreate, hok]
  rfl

/-- A DESC_RETIRE waits, changing nothing, while a handle of its range is bound; then it is complete (R216). -/
theorem exec_descRetire (h : Runs s q i 0x49 c) :
    exec (.descRetire q i) s = .next (if s.rangeBound (s.owner q) c then s else s.complete q i (c.retire.flatMap (fun x =>
      [.write (s.descAddr (s.owner q) x + 60) (natLe 4 (putFld (s.rd32 (s.descAddr (s.owner q) x + 60)) 31 31 0)),
        .descSync x 1]))) := by
  change execDescRetire q i s = _
  rw [execDescRetire, State.runCmd_of_runs h, s.shown_of_op q i c (.inr (by rw [h.op]; decide))]
  by_cases hb : s.rangeBound (s.owner q) c = true
  · simp only [if_pos hb]
  · simp only [if_neg hb]

end

/-- Settles O16: the runs and the start of the two commands, and the stored entry word by word (`State.desc_wr_entry`). -/
theorem descriptorsAreStoredAndRetired : Obligations.DescriptorsAreStoredAndRetired := by
  refine ⟨⟨fun s q i c h => ?_, fun s q c a ws d ha hws hd hok => hd ▸ startDescCreate_of_ok ha hws hok,
    fun s own h x half ws hlen hws hx hc => s.desc_wr_entry hlen hws hx hc⟩, fun s q i c hs h hhs => ?_⟩
  · obtain ⟨honly, hqueues⟩ := ((Moved.refl s).chargeReads (s.owner q) (flatReads 1 64)).onlyMemory
    exact ⟨_, exec_descCreate h, honly, hqueues, s.mem_chargeReads _ _⟩
  · subst hhs
    exact ⟨fun hb => (exec_descRetire h).trans (congrArg _ (if_pos hb)),
      fun hb => (exec_descRetire h).trans (congrArg _ (if_neg (ne_true_of_eq_false hb)))⟩

end Sys2Proof.Machine
end

section
/-! PROOFS. FU_APPLY (R237, R249): every row is read and passed through its function before a row is written. -/
namespace Sys2Proof.Machine

theorem Charged.readsAndRows {t u : State} (h : Charged t u) (own : Nat) (reads : List (Nat × Nat × Bool)) (k r n : Nat)
    (half : Bool) : Charged t ((u.chargeReads own reads).chargeRows own k r n half) :=
  ⟨(h.moved.chargeReads _ _).chargeRows _ _ _ _ _, by rw [State.mem_chargeRows, State.mem_chargeReads, h.mem]⟩

/-- Rows taken from a list of results that is computed before a row is written: p is the part of a result that is stored. -/
theorem State.foldl_strWr_computed {α : Type} [Inhabited α] (s : State) (d : Desc) (n : Nat) (g : Nat → α)
    (p : α → List Byte) :
    (List.range n).foldl (fun s r => s.strWr d (r * d.rowB) (p (((List.range n).map g).getD r default))) s
      = s.puts (d.rowsPut n (fun r => p (g r))) := by
  have hres (r : Nat) (hr : r ∈ List.range n) : ((List.range n).map g).getD r default = g r := by
    rw [List.getD_eq_getElem?_getD, List.getElem?_map, List.getElem?_range (List.mem_range.1 hr), Option.map_some,
      Option.getD_some]
  rw [State.foldl_strWr d (fun r => p (((List.range n).map g).getD r default)), Desc.rowsPut]
  exact congrArg s.puts (flatMap_congr_of_mem fun r hr => by rw [hres r hr])

variable (s : State) (own : Nat) (c : Cmd)

/-- What FU_APPLY makes of source row r: its bytes, and what is recorded and counted for it (R249). -/
def State.fuApplied (r : Nat) : List Byte × Bool × Nat :=
  s.fuRow (c.fuB.getD 0) (c.s 3) (s.dsc own c 1).fmt (s.dsc own c 2).fmt (s.dsc own c 2).d0
    (s.strRd (s.dsc own c 1) (r * (s.dsc own c 1).rowB) (s.dsc own c 1).rowB)

theorem runFuApply_writes : ∃ u acts, runFuApply s own c = .done u acts
    ∧ Wrote s u ((s.dsc own c 2).rowsPut (c.s 0) (fun r => (s.fuApplied own c r).1)) := by
  unfold runFuApply
  extract_lets sd dd fb n rows s1 s2
  have hs1 : s1 = s.puts (dd.rowsPut (c.s 0) (fun r => (s.fuApplied own c r).1)) :=
    s.foldl_strWr_computed dd (c.s 0) (s.fuApplied own c) Prod.fst
  have h2 : Charged s1 s2 := (((Charged.refl s1).mxCount _ _ _ _).fuCharge _ _ _ _ _).opCount _ _ _
  exact ⟨_, _, rfl, .of_charged (hs1 ▸ h2.readsAndRows _ _ _ _ _ _)⟩

/-- Settles O13: the run of FU_APPLY (`runFuApply_writes`), which is not a Gantry command and so runs on memory as it stands. -/
theorem fuApplyWritesItsRows : Obligations.FuApplyWritesItsRows := by
  intro s q i c sd dd row hrun hsd hdd hrow
  subst hsd hdd hrow
  obtain ⟨u, acts, hdone, hw⟩ := runFuApply_writes s (s.owner q) c
  have hshown : s.shown q i c = s := s.shown_of_op q i c (.inr (by rw [hrun.op]; decide))
  have hexec : exec (.fuApply q i) s = .next (u.complete q i acts) :=
    congrArg _ (State.runCmd_of_done hrun (by rw [hshown, hdone]))
  obtain ⟨honly, hqueues⟩ := hw.moved.onlyMemory
  exact ⟨u, acts, hexec, honly, hqueues, fun a => hw.rd8_out, hw.holdsRows⟩

end Sys2Proof.Machine
end

section
/-! PROOFS. POOL_CONFIG (R264, R265), the result digests (R173, R174) and GROUP_TABLE (R135 to R137): what their runs write. -/
namespace Sys2Proof.Machine

theorem Charged.chargeReads {t u : State} (h : Charged t u) (own : Nat) (reads : List (Nat × Nat × Bool)) :
    Charged t (u.chargeReads own reads) :=
  ⟨h.moved.chargeReads _ _, (u.mem_chargeReads _ _).trans h.mem⟩

theorem Charged.charge {t u : State} (h : Charged t u) (own : Nat) (ks : List Nat) : Charged t (u.charge own ks) :=
  ⟨h.moved.charge _ _, (u.mem_charge _ _).trans h.mem⟩

-- POOL_CONFIG

/-- The metadata of n buffers: their state words, all free and unreferenced, and the free stack with buffer 0 on top (R265). -/
def poolWords (n : Nat) : List Nat := List.replicate n 0 ++ (List.range n).map (fun k => n - 1 - k)

theorem length_poolWords (n : Nat) : (poolWords n).length = 2 * n := by
  rw [poolWords, List.length_append, List.length_replicate, List.length_map, List.length_range, Nat.two_mul]

theorem poolWords_state {n k : Nat} (hk : k < n) : (poolWords n)[k]? = some 0 := by
  rw [poolWords, List.getElem?_append_left (by rwa [List.length_replicate]), List.getElem?_replicate, if_pos hk]

theorem poolWords_stack {n k : Nat} (hk : k < n) : (poolWords n)[n + k]? = some (n - 1 - k) := by
  rw [poolWords, List.getElem?_append_right (by rw [List.length_replicate]; omega), List.length_replicate,
    Nat.add_sub_cancel_left, List.getElem?_map, List.getElem?_range hk, Option.map_some]

theorem wordsBytes_replicate_zero (n : Nat) : wordsBytes (List.replicate n 0) = List.replicate (4 * n) 0 := by
  induction n with
  | zero => rfl
  | succ n ih =>
    rw [List.replicate_succ, wordsBytes, List.flatMap_cons]
    exact congrArg (natLe 4 0 ++ ·) ih

theorem wordsBytes_poolWords (n : Nat) : wordsBytes (poolWords n)
    = List.replicate (4 * n) 0 ++ (List.range n).flatMap (fun k => natLe 4 (n - 1 - k)) := by
  rw [poolWords, wordsBytes_append, wordsBytes_replicate_zero, wordsBytes, List.flatMap_map]

/-- s with the metadata of n buffers at an address. -/
def State.poolWritten (s : State) (mt n : Nat) : State := s.wr mt (wordsBytes (poolWords n))

theorem exec_poolConfig {s : State} {q : Nat} {i : U32} {c : Cmd} (h : Runs s q i 0x4E c) :
    exec (.poolConfig q i) s = .next ((s.poolWritten (c.s 4 + 2 ^ 32 * c.s 5) (c.s 0)).complete q i [.pool (fld (c.s 1) 2 0)
      (u32 (c.s 0 + fld (c.s 1) 12 8 * 2 ^ 21 + b2n (bitOf (c.s 1) 16) * 2 ^ 26)) (u32 (c.s 2)) (u32 (c.s 3)) (u32 (c.s 4))
      (u32 (c.s 5)) (u32 (c.s 6)) (u32 (c.s 0))]) := by
  have hwr : (if c.s 0 = 0 then s else s.wr (c.s 4 + 2 ^ 32 * c.s 5) (wordsBytes (poolWords (c.s 0))))
      = s.poolWritten (c.s 4 + 2 ^ 32 * c.s 5) (c.s 0) := by
    by_cases hn : c.s 0 = 0
    · rw [if_pos hn, hn]
      rfl
    · exact if_neg hn
  change execPoolConfig q i s = _
  rw [execPoolConfig, State.runCmd_of_runs h, s.shown_of_op q i c (.inr (by rw [h.op]; decide))]
  simp only [← wordsBytes_poolWords, hwr]

section
variable (s : State) (mt : Nat) {n k : Nat} (hn : n < 2 ^ 32) (hk : k < n)
include hn hk

/-- Every buffer is free and unreferenced. -/
theorem State.rd32_poolWritten_state : (s.poolWritten mt n).rd32 (mt + 4 * k) = 0 :=
  s.rd32_wr_words mt (poolWords_state hk) (by rw [length_poolWords, addrMod]; omega)

/-- Buffer k lies k below the top of the free stack. -/
theorem State.rd32_poolWritten_stack : (s.poolWritten mt n).rd32 (mt + 4 * n + 4 * k) = n - 1 - k := by
  have hread := s.rd32_wr_words mt (poolWords_stack hk) (by rw [length_poolWords, addrMod]; omega)
  rwa [Nat.mul_add, ← Nat.add_assoc, Nat.mod_eq_of_lt (by omega)] at hread

end

theorem State.rd8_poolWritten_out (s : State) (mt : Nat) {n a : Nat}
    (h : ∀ k, k < 8 * n → (mt + k) % addrMod ≠ a % addrMod) : (s.poolWritten mt n).rd8 a = s.rd8 a :=
  State.rd8_wr_out _ s mt a fun k hk => h k (by rw [length_wordsBytes, length_poolWords] at hk; omega)

-- the digests

section
variable {s : State} {q : Nat} {i : U32} {c : Cmd}

/-- The byte strings of the regions that a DIGEST command names from slot k on. -/
def State.regionStrs (s : State) (own : Nat) (c : Cmd) (k : Nat) : List (List Byte) :=
  (c.regions k).map (fun h => s.strRd (s.desc own h) 0 (s.desc own h).len)

/-- t, once the regions have been hashed as s holds them: what is counted and charged for it. -/
def State.hashed (s t : State) (own : Nat) (c : Cmd) (k : Nat) : State :=
  (t.opCount 25 14 ((s.regionStrs own c k).map (fun r => r.length)).sum).chargeReads own
    ((c.regions k).flatMap (fun h => (s.desc own h).rowReads (s.desc own h).rows))

theorem State.charged_hashed (s t : State) (own : Nat) (c : Cmd) (k : Nat) : Charged t (s.hashed t own c k) :=
  ((Charged.refl t).opCount _ _ _).chargeReads _ _

theorem exec_digestBegin (h : Runs s q i 0x50 c) : exec (.digestBegin q i) s
    = .next ((s.hashed s (s.owner q) c 2).complete q i [.digestOpen (fld (c.s 1) 1 0)
      ((s.regionStrs (s.owner q) c 2).map regionDigest) ((s.regionStrs (s.owner q) c 2).map (fun r => r.length)).sum]) := by
  change execDigestBegin q i s = _
  rw [execDigestBegin, State.runCmd_of_runs h, s.shown_of_op q i c (.inr (by rw [h.op]; decide))]
  rfl

/-- s with the record that a DIGEST_END of session d writes. -/
def State.recordWritten (s : State) (own : Nat) (c : Cmd) (d : Digest) : State :=
  s.strWr (s.dsc own c 2) 0 (s.digestRecord own d (s.regionStrs own c 3))

theorem exec_digestEnd {d : Digest} (h : Runs s q i 0x51 c)
    (hd : s.digests.find? (fun d => d.ctx == s.owner q && d.sid == fld (c.s 1) 1 0 && d.q == q) = some d) :
    exec (.digestEnd q i) s = .next ((s.hashed (s.recordWritten (s.owner q) c d) (s.owner q) c 3).complete q i
      [.digestClose (fld (c.s 1) 1 0)]) := by
  change execDigestEnd q i s = _
  rw [execDigestEnd, State.runCmd_of_runs h, s.shown_of_op q i c (.inr (by rw [h.op]; decide))]
  simp only [hd]
  rfl

end

-- GROUP_TABLE

section
variable (s : State) (own : Nat) (c : Cmd)

/-- The entry that GROUP_TABLE writes for entry k of the feed list of an expert table (R137). -/
def State.expertEntry (k : Nat) : List Byte :=
  gotEntry (fun j => s.flWord (s.dsc own c 1) k j) false 0
    (pitchOf (rowBytes (wireFmt (fld (s.flWord (s.dsc own c 1) k 2) 19 17)) (elemsOf (s.flWord (s.dsc own c 1) k 2))))
    ((s.desc own (fld (s.flWord (s.dsc own c 1) k 6) 19 0)).p1 % 2 ^ 32) 0
    (s.desc own (fld (s.flWord (s.dsc own c 1) k 6) 19 0)).base 0

/-- The writes of GROUP_TABLE for an expert table: the header, and an entry for each entry of the feed list (R136, R137). -/
def State.expertTable : List (Nat × List Byte) :=
  (s.dsc own c 2).put 0 (wordsBytes ([c.s 0] ++ List.replicate 15 0))
    ++ (List.range (c.s 0)).flatMap (fun k => (s.dsc own c 2).put (64 + 64 * k) (s.expertEntry own c k))

theorem runGroup_expert (hexp : bitOf (c.s 3) 0 = false) :
    ∃ u, runGroup s own c = .done u [] ∧ Wrote s u (s.expertTable own c) := by
  unfold runGroup
  extract_lets gate l fl got x idx rows cnt base list ent hdr s1 s2
  have hrows : rows = [] := if_neg (ne_true_of_eq_false hexp)
  have hlist : list = [] := by simp [list, hrows]
  have hent : ent = s.expertEntry own c := by
    funext k
    exact if_neg (ne_true_of_eq_false hexp)
  have hhdr : hdr = wordsBytes ([c.s 0] ++ List.replicate 15 0) := by simp [hdr, gate, hexp, b2n, l]
  have hs1 : s1 = s.puts (s.expertTable own c) := by
    rw [State.expertTable, State.puts_append, ← hhdr, ← hent]
    rfl
  have hs2 : s2 = s1 := if_pos (by rw [hlist]; rfl)
  rw [hs2, hs1]
  exact ⟨_, rfl, .of_charged (((Charged.refl _).charge _ _).chargeReads _ _)⟩

end

/-- Settles O17: the metadata word by word (`State.poolWritten`), the runs of the digest commands, and the writes of an expert
GROUP_TABLE (`runGroup_expert`). -/
theorem tableCommandsWriteTheirTables : Obligations.TableCommandsWriteTheirTables := by
  refine ⟨fun s q i c n mt hrun hn hmt => ?_, fun s q i c str hstr => ⟨fun hrun => ?_, fun d hrun hd => ?_⟩,
    fun s q i c fl got ent hrun hfl hgot hexp hent => ?_⟩
  · subst hn hmt
    have hlt : c.s 0 < 2 ^ 32 := (c.slots.getD 0 (c.words.getD 8 0)).isLt
    obtain ⟨honly, hqueues⟩ := ((Moved.refl s).wr (c.s 4 + 2 ^ 32 * c.s 5) (wordsBytes (poolWords (c.s 0)))).onlyMemory
    exact ⟨_, exec_poolConfig hrun, honly, hqueues,
      fun k hk => ⟨s.rd32_poolWritten_state _ hlt hk, s.rd32_poolWritten_stack _ hlt hk⟩, fun a => s.rd8_poolWritten_out _⟩
  · subst hstr
    have hu := s.charged_hashed s (s.owner q) c 2
    obtain ⟨honly, hqueues⟩ := hu.moved.onlyMemory
    have hexec := exec_digestBegin hrun
    rw [State.regionStrs, List.map_map, List.map_map] at hexec
    exact ⟨_, hexec, honly, hqueues, hu.mem⟩
  · subst hstr
    have hu := s.charged_hashed (s.recordWritten (s.owner q) c d) (s.owner q) c 3
    obtain ⟨honly, hqueues⟩ := (((Moved.refl s).strWr _ _ _).trans hu.moved).onlyMemory
    exact ⟨_, exec_digestEnd hrun hd, honly, hqueues, hu.mem⟩
  · subst hfl hgot hent
    obtain ⟨u, hdone, hw⟩ := runGroup_expert s (s.owner q) c hexp
    have hshown : s.shown q i c = s := s.shown_of_op q i c (.inl (by rw [hrun.op]; decide))
    have hexec : exec (.groupTable q i) s = .next (u.complete q i []) :=
      congrArg _ (State.runCmd_of_done hrun (by rw [hshown, hdone]))
    obtain ⟨honly, hqueues⟩ := hw.moved.onlyMemory
    have hmem := hw.mem
    rw [State.expertTable, State.puts_append] at hmem
    exact ⟨u, hexec, honly, hqueues, hmem, fun a => hw.rd8_out⟩

end Sys2Proof.Machine
end

section
/-! PROOFS. The event queues (R256, R261, R262): the write of KEVQ_RD, the enable, and the coalescing timer. -/
namespace Sys2Proof.Machine

theorem State.asked_rbit (s : State) (a i : Nat) (h : a ≠ 0x1014) : s.asked.rbit a i = s.rbit a i := by
  rw [State.rbit, s.asked_reg a h, State.rbit]

/-- The registers of an event queue are apart from KERR_INJECT. -/
theorem kevq_add_ne (e r : Nat) : kevq e + r ≠ 0x1014 := by
  rw [kevq]
  omega

theorem i32diff_toNat_left (w : U32) (v : Nat) : i32diff w.toNat v = (w - u32 v).toInt := by
  rw [i32diff, BitVec.ofNat_toNat, BitVec.setWidth_eq]

theorem i32diff_toNat_right (v : Nat) (w : U32) : i32diff v w.toNat = (u32 v - w).toInt := by
  rw [i32diff, BitVec.ofNat_toNat, BitVec.setWidth_eq]

-- KEVQ_RD (R261)

theorem exec_eventRdWrite {s : State} {e : Nat} {window : Bool} {w : U32} {priv : Bool} (he : e ≤ 16)
    (h : Reaches s (if window then win e + 0xB10 else kevq e + 0x10) priv) :
    exec (.eventRdWrite e window w priv) s = .next (s.asked.writeEvRd e w.toNat) := by
  change Host.Outcome.next (if 16 < e then s else s.ctlWrite _ priv _) = _
  rw [if_neg (by omega), h.ctlWrite]

/-- A value from RD to WR, by i32 differences. -/
def State.EvRdTakes (s : State) (e v : Nat) : Prop :=
  0 ≤ i32diff v (s.reg (kevq e + 0x10)) ∧ 0 ≤ i32diff (s.reg (kevq e + 0xC)) v

theorem State.evRdTakes_asked (s : State) (e : Nat) (w : U32) : s.asked.EvRdTakes e w.toNat
    ↔ 0 ≤ (w - u32 (s.reg (kevq e + 0x10))).toInt ∧ 0 ≤ (u32 (s.reg (kevq e + 0xC)) - w).toInt := by
  rw [State.EvRdTakes, s.asked_reg _ (kevq_add_ne e _), s.asked_reg _ (kevq_add_ne e _), i32diff_toNat_left, i32diff_toNat_right]

/-- An accepted write moves RD; with no record unread, the queue's coalescing time is over. -/
theorem State.writeEvRd_of_takes {s : State} {e v : Nat} (h : s.EvRdTakes e v) :
    ∃ held, s.writeEvRd e v = { s.setReg (kevq e + 0x10) v with evHeld := held } := by
  by_cases hu : (s.setReg (kevq e + 0x10) v).evUnread e = 0
  · exact ⟨_, (if_pos h).trans (if_pos hu)⟩
  · exact ⟨_, (if_pos h).trans (if_neg hu)⟩

theorem State.writeEvRd_of_not_takes {s : State} {e v : Nat} (h : ¬ s.EvRdTakes e v) : s.writeEvRd e v = s := if_neg h

/-- Settles O41, by the two equations of a write of KEVQ_RD on the state that has taken the request. -/
theorem eventReadIndexMoves : Obligations.EventReadIndexMoves := by
  intro s e window w priv he h
  rw [exec_eventRdWrite he h]
  refine ⟨fun hrd hwr => ?_, fun hno => ?_⟩
  · obtain ⟨held, ht⟩ := State.writeEvRd_of_takes ((s.evRdTakes_asked e w).2 ⟨hrd, hwr⟩)
    rw [ht]
    exact ⟨_, rfl, State.reg_setReg_of_lt _ _ _ w.isLt, rfl, fun a ha => State.reg_setReg_of_ne _ _ _ _ ha⟩
  · rw [State.writeEvRd_of_not_takes (mt (s.evRdTakes_asked e w).1 hno)]

-- the enable (R256)

theorem exec_eventQueueEnable {s : State} {e : Nat} {w : U32} {priv : Bool} (he : e ≤ 16) (h : Reaches s (kevq e + 8) priv) :
    exec (.eventQueueEnable e w priv) s = .next (s.asked.writeEvCtl e w.toNat) := by
  change Host.Outcome.next (if 16 < e then s else s.ctlWrite _ priv _) = _
  rw [if_neg (by omega), h.ctlWrite]

theorem State.evUnread_of_equal {s : State} {e : Nat} (h : s.reg (kevq e + 0xC) = s.reg (kevq e + 0x10)) : s.evUnread e = 0 := by
  rw [State.evUnread, h, BitVec.sub_self]
  rfl

/-- The size or the place of the ring of an event queue is not allowed. -/
def State.EvRingBad (s : State) (e : Nat) : Prop :=
  s.rf (kevq e + 4) 4 0 < 8 ∨ 15 < s.rf (kevq e + 4) 4 0
    ∨ s.reg 0x90008 * 2 ^ 21 < s.reg (kevq e) + 16 * 2 ^ s.rf (kevq e + 4) 4 0

theorem State.evRingBad_asked (s : State) (e : Nat) : s.asked.EvRingBad e ↔ s.EvRingBad e := by
  rw [State.EvRingBad, s.asked_rf _ _ _ (kevq_add_ne e 4), s.asked_reg 0x90008 (by decide), s.asked_reg (kevq e) (kevq_add_ne e 0),
    State.EvRingBad]

/-- The registers of a queue that is enabled: EN set, WR, RD and PKTS 0, and no CFG_ERR. -/
def State.evEnabled (s : State) (e : Nat) : State :=
  ((((s.setReg (kevq e + 8) 1).setReg (kevq e + 0xC) 0).setReg (kevq e + 0x10) 0).setReg (kevq e + 0x18) 0).setRbit
    (kevq e + 0x1C) 3 false

theorem State.reg_evEnabled (s : State) (e : Nat) : (s.evEnabled e).reg (kevq e + 8) = 1
    ∧ (s.evEnabled e).reg (kevq e + 0xC) = 0 ∧ (s.evEnabled e).reg (kevq e + 0x10) = 0
    ∧ (s.evEnabled e).reg (kevq e + 0x18) = 0 := by
  refine ⟨?_, ?_, ?_, ?_⟩ <;> rw [State.evEnabled, State.reg_setRbit_of_ne _ _ _ _ _ (by omega)] <;> simp

section
variable {s : State} {e w : Nat} (hoff : s.rbit (kevq e + 8) 0 = false) (hen : bitOf w 0 = true)
include hoff hen

theorem State.writeEvCtl_refused (hbad : s.EvRingBad e) : s.writeEvCtl e w = s.setRbit (kevq e + 0x1C) 3 true :=
  (if_neg (by simp [hoff, hen])).trans (if_pos hbad)

theorem State.writeEvCtl_enabled (hgood : ¬ s.EvRingBad e) : s.writeEvCtl e w = { s with
    regs := (s.evEnabled e).regs, evHeld := s.evHeld.filter (fun x => x != e), evNew := s.evNew.filter (fun p => p.1 != e) } :=
  (if_neg (by simp [hoff, hen])).trans (if_neg hgood)

theorem State.reg_writeEvCtl_enabled (hgood : ¬ s.EvRingBad e) (a : Nat) :
    (s.writeEvCtl e w).reg a = (s.evEnabled e).reg a :=
  State.reg_of_regs (congrArg State.regs (State.writeEvCtl_enabled hoff hen hgood)) a

theorem State.mem_writeEvCtl_enabled (hgood : ¬ s.EvRingBad e) : (s.writeEvCtl e w).mem = s.mem := by
  rw [State.writeEvCtl_enabled hoff hen hgood]

end

-- the coalescing timer (R262)

/-- s once the coalescing timer of an event queue has run out: PEND is set, and the time of its records is over. -/
def State.evTimedOut (s : State) (e : Nat) : State :=
  { s.setRbit (kevq e + 0x1C) 0 true with evHeld := s.evHeld.filter (fun x => x != e) ++ [e] }

theorem State.reg_evTimedOut (s : State) (e a : Nat) :
    (s.evTimedOut e).reg a = (s.setRbit (kevq e + 0x1C) 0 true).reg a := State.reg_of_regs rfl a

theorem exec_eventCoalesceTimeout {s : State} {e : Nat} (he : e ≤ 16) (hclk : s.refclk = true) (hrst : s.rst.level = none)
    (hen : s.rbit (kevq e + 8) 0 = true) (htmo : s.rf (kevq e + 4) 31 24 ≠ 0) (hun : s.evUnread e ≠ 0) :
    exec (.eventCoalesceTimeout e) s = .next (s.evTimedOut e) :=
  congrArg Host.Outcome.next (if_pos ⟨he, hclk, by rw [hrst]; rfl, hen, htmo, hun⟩)

theorem exec_eventCoalesceTimeout_read {s : State} {e : Nat} (hun : s.evUnread e = 0) :
    exec (.eventCoalesceTimeout e) s = .next s :=
  congrArg Host.Outcome.next (if_neg fun h => h.2.2.2.2.2 hun)

/-- While records of a queue have stood for TMO, a write of its status leaves PEND set. -/
theorem State.pend_writeEvStatus {s : State} {e : Nat} (h : s.evLate e = true) (v : Nat) :
    (s.writeEvStatus e v).rbit (kevq e + 0x1C) 0 = true := by
  unfold State.writeEvStatus
  extract_lets k o c
  have hne (r : Nat) (hr : r ≠ 0x1C) : kevq e + r ≠ k := by omega
  have hlate : (s.setReg k (c 0 + c 1 + c 2 + fld o 3 3 * 8)).evLate e = true := by
    rw [← h]
    simp only [State.evLate, State.evUnread, State.evHeld_setReg, State.rf_setReg_of_ne _ _ _ _ _ _ (hne 4 (by decide)),
      State.reg_setReg_of_ne _ _ _ _ (hne 0xC (by decide)), State.reg_setReg_of_ne _ _ _ _ (hne 0x10 (by decide))]
  rw [State.evThresh, if_pos (.inr hlate)]
  exact State.rbit_setRbit _ _ 0 true (by decide)

/-- Records on which the timer has run out have stood for TMO. -/
theorem State.evLate_evTimedOut {s : State} {e : Nat} (htmo : s.rf (kevq e + 4) 31 24 ≠ 0) (hun : s.evUnread e ≠ 0) :
    (s.evTimedOut e).evLate e = true := by
  have hreg (r : Nat) (hr : r ≠ 0x1C) : (s.evTimedOut e).reg (kevq e + r) = s.reg (kevq e + r) := by
    rw [State.reg_evTimedOut, State.reg_setRbit_of_ne _ _ _ _ _ (by omega)]
  have htmo' : (s.evTimedOut e).rf (kevq e + 4) 31 24 ≠ 0 := by rwa [State.rf, hreg 4 (by decide)]
  have hun' : (s.evTimedOut e).evUnread e ≠ 0 := by rwa [State.evUnread, hreg 0xC (by decide), hreg 0x10 (by decide)]
  have hheld : (s.evTimedOut e).evHeld.contains e = true := by simp [State.evTimedOut]
  exact Bool.and_eq_true_iff.2 ⟨Bool.and_eq_true_iff.2 ⟨hheld, bne_iff_ne.2 htmo'⟩, bne_iff_ne.2 hun'⟩

/-- Settles O42: the enable by its two equations on the state that has taken the request, and the timer, after which records
stand for TMO (`State.evLate_evTimedOut`). -/
theorem eventQueueEnableAndCoalesce : Obligations.EventQueueEnableAndCoalesce := by
  intro s e w priv k n he hk hn
  subst hk hn
  refine ⟨fun h hoff hen => ?_, fun hclk hrst hen htmo hun => ?_, exec_eventCoalesceTimeout_read⟩
  · rw [exec_eventQueueEnable he h]
    rw [← s.asked_rbit _ _ (kevq_add_ne e 8)] at hoff
    refine ⟨fun hlo hhi hroom => ?_, fun hbad => ?_⟩
    · have hgood : ¬ s.asked.EvRingBad e := by
        rw [State.evRingBad_asked, State.EvRingBad]
        omega
      have hregs := s.asked.reg_evEnabled e
      simp only [← State.reg_writeEvCtl_enabled hoff hen hgood] at hregs
      obtain ⟨hctl, hwr, hrd, hpkts⟩ := hregs
      exact ⟨_, rfl, by rw [State.rbit, hctl]; rfl, hwr, hrd, hpkts, State.evUnread_of_equal (hwr.trans hrd.symm),
        (State.mem_writeEvCtl_enabled hoff hen hgood).trans s.asked_mem⟩
    · rw [State.writeEvCtl_refused hoff hen (s.evRingBad_asked e |>.2 hbad)]
      refine ⟨_, rfl, ?_, State.rbit_setRbit _ _ 3 true (by decide), s.asked_mem⟩
      rw [State.rbit, State.reg_setRbit_of_ne _ _ _ _ _ (by omega)]
      exact hoff
  · refine ⟨_, exec_eventCoalesceTimeout he hclk hrst hen htmo hun, ?_, rfl, fun a ha => ?_,
      State.pend_writeEvStatus (State.evLate_evTimedOut htmo hun)⟩
    · rw [State.rbit, State.reg_evTimedOut]
      exact State.rbit_setRbit s _ 0 true (by decide)
    · rw [State.reg_evTimedOut, State.reg_setRbit_of_ne _ _ _ _ _ ha]

end Sys2Proof.Machine
end

section
/-! PROOFS. The Caisson pools (R265, R269, R270): their registers and state words once a request has been taken and after a
write, and the references that CAS_FREE and CAS_REF drop and add. -/
namespace Sys2Proof.Machine

-- registers

/-- The registers of a Caisson pool are apart from KERR_INJECT. -/
theorem kcas_add_ne (p r : Nat) : kcas p + r ≠ 0x1014 := by
  rw [kcas]
  omega

/-- The registers of a Caisson pool are apart from those of every window. -/
theorem kcas_add_ne_win {p r : Nat} (hp : p < 8) (hr : r < 0x40) (c r' : Nat) : kcas p + r ≠ win c + r' := by
  rw [kcas, win]
  split <;> omega

/-- The bit of a word with a mask of that bit set. -/
theorem bitOf_or_two_pow (v i : Nat) : bitOf (v ||| 2 ^ i) i = true := by
  have hbit := Nat.testBit_or v (2 ^ i) i
  rw [Nat.testBit_two_pow_self, Bool.or_true, Nat.testBit_eq_decide_div_mod_eq, decide_eq_true_eq] at hbit
  exact beq_iff_eq.2 hbit

theorem State.rbit_casStick (s : State) (c : Nat) {b : Nat} (hb : b < 32) : (s.casStick c b).rbit (win c + 0xA1C) b = true := by
  have hlt : s.reg (win c + 0xA1C) ||| 2 ^ b < 2 ^ 32 :=
    Nat.or_lt_two_pow (s.reg_lt _) (Nat.pow_lt_pow_right (by decide) hb)
  rw [State.casStick, State.stick, if_pos (.inr rfl), State.rbit, State.reg_setReg_of_lt _ _ _ hlt]
  exact bitOf_or_two_pow _ b

-- the pools once a request has been taken

section
variable (s : State)

theorem State.asked_kcas (p r : Nat) : s.asked.reg (kcas p + r) = s.reg (kcas p + r) := s.asked_reg _ (kcas_add_ne p r)

theorem State.asked_rpair_kcas (p r : Nat) : s.asked.rpair (kcas p + r) = s.rpair (kcas p + r) := by
  rw [State.rpair, s.asked_kcas, Nat.add_assoc, s.asked_kcas, State.rpair, Nat.add_assoc]

@[simp] theorem State.asked_poolCount (p : Nat) : s.asked.poolCount p = s.poolCount p := s.asked_rf _ _ _ (kcas_add_ne p 0)
@[simp] theorem State.asked_poolSz (p : Nat) : s.asked.poolSz p = s.poolSz p := s.asked_rf _ _ _ (kcas_add_ne p 0)
@[simp] theorem State.asked_poolIso (p : Nat) : s.asked.poolIso p = s.poolIso p := s.asked_rbit _ _ (kcas_add_ne p 0)
@[simp] theorem State.asked_poolBase (p : Nat) : s.asked.poolBase p = s.poolBase p := s.asked_rpair_kcas p 4
@[simp] theorem State.asked_poolMeta (p : Nat) : s.asked.poolMeta p = s.poolMeta p := s.asked_rpair_kcas p 0xC
@[simp] theorem State.asked_poolFree (p : Nat) : s.asked.poolFree p = s.poolFree p := s.asked_kcas p 0x18
@[simp] theorem State.asked_rd32 (a : Nat) : s.asked.rd32 a = s.rd32 a := State.rdLe_of_mem s.asked_mem a 4
@[simp] theorem State.asked_landings : s.asked.landings = s.landings := by rw [s.asked_frame]
@[simp] theorem State.asked_casPend : s.asked.casPend = s.casPend := by rw [s.asked_frame]
@[simp] theorem State.asked_reclaims : s.asked.reclaims = s.reclaims := by rw [s.asked_frame]
@[simp] theorem State.asked_free : s.asked.free = s.free := by rw [s.asked_frame]

@[simp] theorem State.asked_bufWord (p i : Nat) : s.asked.bufWord p i = s.bufWord p i := by
  rw [State.bufWord, s.asked_poolMeta, s.asked_rd32, State.bufWord]

@[simp] theorem State.asked_bufAddr (p i : Nat) : s.asked.bufAddr p i = s.bufAddr p i := by
  rw [State.bufAddr, s.asked_poolBase, s.asked_poolSz, State.bufAddr]

@[simp] theorem State.asked_candidates (own size : Nat) : s.asked.candidates own size = s.candidates own size := by
  simp only [State.candidates, State.asked_poolCount, State.asked_poolSz, s.asked_rbit _ _ (kcas_add_ne _ 0x14)]

@[simp] theorem State.asked_casTest (own h : Nat) (take : Bool) : s.asked.casTest own h take = s.casTest own h take := by
  simp only [State.casTest, State.asked_poolCount, State.asked_bufWord]

@[simp] theorem State.asked_landingIn (p i : Nat) : s.asked.landingIn p i = s.landingIn p i := by
  simp only [State.landingIn, State.bufAt, State.asked_landings, State.asked_poolCount, State.asked_poolBase, State.asked_poolSz]

end

-- state words (R265)

section
variable (s : State) (p i : Nat)

theorem State.rd32_lt (a : Nat) : s.rd32 a < 2 ^ 32 := by
  have h := leNat_lt (s.rd a 4)
  rwa [State.rd, List.length_map, List.length_range] at h

@[simp] theorem State.regs_setBufWord (w : Nat) : (s.setBufWord p i w).regs = s.regs := s.regs_wr32 _ _

theorem State.poolMeta_of_reg {s t : State} {p : Nat} (h : ∀ r, r < 0x18 → t.reg (kcas p + r) = s.reg (kcas p + r)) :
    t.poolMeta p = s.poolMeta p := by
  rw [State.poolMeta, State.rpair, h 0xC (by decide), Nat.add_assoc, h (0xC + 4) (by decide)]
  rfl

theorem State.poolMeta_of_regs {s t : State} (h : t.regs = s.regs) (p : Nat) : t.poolMeta p = s.poolMeta p :=
  State.poolMeta_of_reg fun _ _ => State.reg_of_regs h _

/-- A state word reads as it was written. -/
theorem State.bufWord_setBufWord {w : Nat} (hw : w < 2 ^ 32) : (s.setBufWord p i w).bufWord p i = w := by
  rw [State.bufWord, State.poolMeta_of_regs (s.regs_setBufWord p i w), State.setBufWord, State.rd32_wr32, Nat.mod_eq_of_lt hw]

/-- A word reads as before where another is written. -/
theorem State.rd32_wr32_out {a b : Nat} (v : Nat) (h : ∀ j k, j < 4 → k < 4 → (a + j) % addrMod ≠ (b + k) % addrMod) :
    (s.wr32 a v).rd32 b = s.rd32 b := by
  refine congrArg leNat (List.map_congr_left fun k hk => ?_)
  exact s.rd8_wr32_out a v _ fun j hj => h j k hj (List.mem_range.1 hk)

/-- A returned buffer's number goes on the free stack, clear of the state words. -/
theorem State.bufWord_releaseBuf {j : Nat} (hi : i < s.poolCount p) (hf : s.poolFree p < s.poolCount p) :
    (s.releaseBuf p j).bufWord p i = s.bufWord p i := by
  have hcount : s.poolCount p < 2 ^ 21 := Nat.mod_lt _ (by decide)
  have hmeta : (s.releaseBuf p j).poolMeta p = s.poolMeta p := State.poolMeta_of_reg fun r hr =>
    (State.reg_setReg_of_ne _ _ _ _ (by omega)).trans (State.reg_of_regs (s.regs_wr32 _ _) _)
  rw [State.bufWord, hmeta]
  refine s.rd32_wr32_out _ fun a b ha hb => ?_
  rw [addrMod]
  omega

end

-- references (R269, R270)

section
variable {s : State} {p i : Nat} {h : Nat} (hp : p = hPool h) (hi : i = hIdx h)
include hp hi

theorem State.dropRef_of_last (href : fld (s.bufWord p i) 7 0 = 1) (hland : s.landingIn p i = false) :
    s.dropRef h = (s.setBufWord p i (putFld (s.bufWord p i) 7 0 0)).releaseBuf p i := by
  subst hp hi
  rw [State.dropRef]
  simp only [href, hland, if_true, Bool.false_eq_true, if_false]

theorem State.dropRef_of_more (href : fld (s.bufWord p i) 7 0 ≠ 1) : s.dropRef h = s.setBufWord p i (s.bufWord p i - 1) := by
  subst hp hi
  exact if_neg href

theorem State.takeRef_eq : s.takeRef h = s.setBufWord p i (s.bufWord p i + 1) := by
  subst hp hi
  rfl

/-- A handle that passes the test names a buffer of its pool. -/
theorem State.lt_poolCount_of_casTest {own : Nat} {take : Bool} (ht : s.casTest own h take = .ok) : i < s.poolCount p := by
  subst hp hi
  rw [← Nat.not_le]
  intro hle
  simp only [State.casTest, if_pos hle, reduceCtorEq] at ht

/-- A buffer that may be taken once more has fewer than 255 references. -/
theorem State.ref_lt_of_casTest {own : Nat} (ht : s.casTest own h true = .ok) : fld (s.bufWord p i) 7 0 ≠ 255 := by
  subst hp hi
  intro hsat
  simp only [State.casTest, hsat, and_self, if_true] at ht
  split_ifs at ht

end

section
variable {s : State} {p i : Nat}

/-- A buffer that returns: its references are none, the rest of its word stands, and it is on top of its pool's stack. -/
theorem State.released (hi : i < s.poolCount p) (hf : s.poolFree p < s.poolCount p) (hlt : i < 2 ^ 32) {t : State}
    (ht : t = (s.setBufWord p i (putFld (s.bufWord p i) 7 0 0)).releaseBuf p i) :
    t.reg (kcas p + 0x18) = s.poolFree p + 1 ∧ t.rd32 (s.poolMeta p + 4 * s.poolCount p + 4 * s.poolFree p) = i
      ∧ fld (t.bufWord p i) 7 0 = 0 ∧ fld (t.bufWord p i) 31 8 = fld (s.bufWord p i) 31 8 := by
  obtain ⟨w, hw⟩ : ∃ w, w = putFld (s.bufWord p i) 7 0 0 := ⟨_, rfl⟩
  have hwlt : w < 2 ^ 32 := hw ▸ putFld_lt _ 7 0 0 32 (by decide) (by decide) (s.rd32_lt _)
  rw [← hw] at ht
  have hreg (a : Nat) : (s.setBufWord p i w).reg a = s.reg a := State.reg_of_regs (s.regs_setBufWord p i w) a
  have hcount : (s.setBufWord p i w).poolCount p = s.poolCount p := by rw [State.poolCount, State.rf, hreg]; rfl
  have hfree : (s.setBufWord p i w).poolFree p = s.poolFree p := hreg _
  have hmeta : (s.setBufWord p i w).poolMeta p = s.poolMeta p := State.poolMeta_of_reg fun _ _ => hreg _
  have hmax : s.poolCount p < 2 ^ 21 := Nat.mod_lt _ (by decide)
  have hword : t.bufWord p i = w := by
    rw [ht, State.bufWord_releaseBuf _ _ _ (by rwa [hcount]) (by rwa [hcount, hfree]), State.bufWord_setBufWord _ _ _ hwlt]
  refine ⟨?_, ?_, ?_, ?_⟩
  · rw [ht, State.releaseBuf, hfree]
    exact State.reg_setReg_of_lt _ _ _ (by omega)
  · rw [ht, State.releaseBuf, hfree, hmeta, hcount]
    exact (State.rd32_wr32 _ _ i).trans (Nat.mod_eq_of_lt hlt)
  · rw [hword, hw, fld_putFld _ 7 0 0 (by decide), Nat.zero_mod]
  · rw [hword, hw, fld_putFld_of_disjoint _ 7 0 0 31 8 (by decide) (.inl (by decide))]

end

section
variable {s : State} {c : Nat} {w : U32} {priv : Bool} (hc : c ≤ 16)
include hc

theorem exec_casFree (h : Reaches s (win c + 0xA14) priv) :
    exec (.casFree c w priv) s = .next (s.asked.writeCasFree c w.toNat) := by
  change Host.Outcome.next (if 16 < c then s else s.ctlWrite _ priv _) = _
  rw [if_neg (by omega), h.ctlWrite]

theorem exec_casRef (h : Reaches s (win c + 0xA18) priv) :
    exec (.casRef c w priv) s = .next (s.asked.writeCasRef c w.toNat) := by
  change Host.Outcome.next (if 16 < c then s else s.ctlWrite _ priv _) = _
  rw [if_neg (by omega), h.ctlWrite]

end

section
variable {s : State} {c h : Nat}

theorem State.writeCasFree_ok (ht : s.casTest c h false = .ok) : s.writeCasFree c h = s.dropRef h := by
  rw [State.writeCasFree, ht]

theorem State.writeCasFree_foreign (ht : s.casTest c h false = .foreign) : s.writeCasFree c h = s.casStick c 2 := by
  rw [State.writeCasFree, ht]

theorem State.writeCasRef_ok (ht : s.casTest c h true = .ok) : s.writeCasRef c h = s.takeRef h := by
  rw [State.writeCasRef, ht]

theorem State.writeCasRef_foreign (ht : s.casTest c h true = .foreign) : s.writeCasRef c h = s.casStick c 2 := by
  rw [State.writeCasRef, ht]

end

/-- CAS_FREE: a good handle loses one reference, and the last one returns the buffer; one of another owner only sets STICKY. -/
theorem casFree_acts {s : State} {c : Nat} {w : U32} {priv : Bool} {p i : Nat} (hc : c ≤ 16) (hp : p = hPool w.toNat)
    (hi : i = hIdx w.toNat) (h : Reaches s (win c + 0xA14) priv) :
    (s.casTest c w.toNat false = .ok → fld (s.bufWord p i) 7 0 = 1 → s.landingIn p i = false → s.poolFree p < s.poolCount p →
      ∃ t : State, exec (.casFree c w priv) s = .next t ∧ t.reg (kcas p + 0x18) = s.poolFree p + 1
        ∧ t.rd32 (s.poolMeta p + 4 * s.poolCount p + 4 * s.poolFree p) = i
        ∧ fld (t.bufWord p i) 7 0 = 0 ∧ fld (t.bufWord p i) 31 8 = fld (s.bufWord p i) 31 8)
    ∧ (s.casTest c w.toNat false = .ok → fld (s.bufWord p i) 7 0 ≠ 1 →
      ∃ t : State, exec (.casFree c w priv) s = .next t ∧ t.bufWord p i = s.bufWord p i - 1 ∧ t.regs = s.asked.regs)
    ∧ (s.casTest c w.toNat false = .foreign → exec (.casFree c w priv) s = .next (s.asked.casStick c 2)) := by
  rw [exec_casFree hc h, ← s.asked_casTest]
  refine ⟨fun ht href hland hroom => ⟨_, rfl, ?_⟩, fun ht href => ⟨_, rfl, ?_⟩,
    fun ht => by rw [State.writeCasFree_foreign ht]⟩
  · have hidx : i < 2 ^ 32 := by
      have : i < 2 ^ 20 := hi ▸ Nat.mod_lt _ (by decide)
      omega
    have hin := State.lt_poolCount_of_casTest hp hi ht
    have hdrop := State.dropRef_of_last hp hi (s := s.asked) (by rwa [s.asked_bufWord]) (by rwa [s.asked_landingIn])
    have hrel := State.released hin (by rwa [s.asked_poolFree, s.asked_poolCount]) hidx hdrop
    rw [← State.writeCasFree_ok ht] at hrel
    simpa only [State.asked_poolFree, State.asked_poolMeta, State.asked_poolCount, State.asked_bufWord] using hrel
  · have hlt : s.asked.bufWord p i < 2 ^ 32 := s.asked.rd32_lt _
    rw [State.writeCasFree_ok ht, State.dropRef_of_more hp hi (by rwa [s.asked_bufWord]),
      State.bufWord_setBufWord _ _ _ (Nat.lt_of_le_of_lt (Nat.sub_le _ 1) hlt), s.asked_bufWord]
    exact ⟨rfl, State.regs_setBufWord _ _ _ _⟩

/-- CAS_REF: a good handle gains one reference; one of another owner only sets STICKY. -/
theorem casRef_acts {s : State} {c : Nat} {w : U32} {priv : Bool} {p i : Nat} (hc : c ≤ 16) (hp : p = hPool w.toNat)
    (hi : i = hIdx w.toNat) (h : Reaches s (win c + 0xA18) priv) :
    (s.casTest c w.toNat true = .ok →
      ∃ t : State, exec (.casRef c w priv) s = .next t ∧ t.bufWord p i = s.bufWord p i + 1 ∧ t.regs = s.asked.regs)
    ∧ (s.casTest c w.toNat true = .foreign → exec (.casRef c w priv) s = .next (s.asked.casStick c 2)) := by
  rw [exec_casRef hc h, ← s.asked_casTest]
  refine ⟨fun ht => ⟨_, rfl, ?_⟩, fun ht => by rw [State.writeCasRef_foreign ht]⟩
  have hlt : s.asked.bufWord p i + 1 < 2 ^ 32 := by
    have hword : s.asked.bufWord p i < 2 ^ 32 := s.asked.rd32_lt _
    have href := State.ref_lt_of_casTest hp hi ht
    rw [fld] at href
    omega
  rw [State.writeCasRef_ok ht, State.takeRef_eq hp hi, State.bufWord_setBufWord _ _ _ hlt, s.asked_bufWord]
  exact ⟨rfl, State.regs_setBufWord _ _ _ _⟩

end Sys2Proof.Machine
end

section
/-! PROOFS. What serving a Caisson request finds (R266, R267, R271, R272): the buffer that is taken, its state word, and the
answer. -/
namespace Sys2Proof.Machine

-- allocation

/-- The state word of an allocated buffer: REF 1, the next GEN, the requester (R265, R266). -/
def takenWord (own gen w : Nat) : Nat :=
  1 + gen * 2 ^ 8 + (if own = 16 then 2 ^ 20 else own * 2 ^ 16) + fld w 22 22 * 2 ^ 22 + 2 ^ 23

section
variable {own gen : Nat} (w : Nat)

theorem ref_takenWord : fld (takenWord own gen w) 7 0 = 1 := by
  rw [takenWord, fld, fld]
  split <;> omega

section
variable (hgen : gen < 256)
include hgen

theorem gen_takenWord : fld (takenWord own gen w) 15 8 = gen := by
  rw [takenWord, fld, fld]
  split <;> omega

variable (hown : own ≤ 16)
include hown

theorem takenWord_lt : takenWord own gen w < 2 ^ 32 := by
  rw [takenWord, fld]
  split <;> omega

theorem owner_takenWord : if own = 16 then bitOf (takenWord own gen w) 20 = true
    else fld (takenWord own gen w) 19 16 = own ∧ bitOf (takenWord own gen w) 20 = false := by
  rw [takenWord, bitOf, fld, fld, beq_iff_eq, beq_eq_false_iff_ne]
  split <;> omega

theorem held_takenWord : bitOf (takenWord own gen w) 21 = false ∧ bitOf (takenWord own gen w) 23 = true := by
  rw [takenWord, bitOf, bitOf, fld, beq_iff_eq, beq_eq_false_iff_ne]
  split <;> omega

end
end

section
variable {s : State} {own size : Nat} {nofall zero : Bool}

theorem State.alloc_of_empty (h : ∀ p ∈ s.candidates own size, s.poolFree p = 0) : s.alloc own size nofall zero = none := by
  unfold State.alloc
  extract_lets cs tryl
  have hsub : ∀ p ∈ tryl, p ∈ cs := by
    cases nofall with
    | false => exact fun p hp => hp
    | true => exact fun p hp => List.mem_of_mem_take hp
  have hnone : tryl.find? (fun p => decide (s.poolFree p ≠ 0)) = none :=
    List.find?_eq_none.2 fun p hp => by simp [h p (hsub p hp)]
  rw [hnone]

theorem State.alloc_of_first {p : Nat} {ps : List Nat} (h : s.candidates own size = p :: ps) (hf : s.poolFree p ≠ 0) :
    s.alloc own size nofall zero = some (s.popBuf own p zero) := by
  unfold State.alloc
  extract_lets cs tryl
  have hcs : cs = p :: ps := h
  have hfind : tryl.find? (fun p => decide (s.poolFree p ≠ 0)) = some p := by
    rw [show tryl = if nofall then cs.take 1 else cs from rfl, hcs]
    cases nofall with
    | false => exact List.find?_cons_of_pos (by simpa using hf)
    | true => exact List.find?_cons_of_pos (by simpa using hf)
  rw [hfind, hcs]
  simp only [List.head?_cons, if_true]

/-- The buffer on top of a pool's free stack. -/
def State.topBuf (s : State) (p : Nat) : Nat := s.rd32 (s.poolMeta p + 4 * s.poolCount p + 4 * (s.poolFree p - 1))

/-- A buffer is popped where nothing is zeroed and no low mark is set. -/
theorem State.popBuf_plain {p i gen : Nat} (hiso : s.poolIso p = false) (hmark : s.reg (kcas p + 0x1C) = 0)
    (hi : i = s.topBuf p) (hgen : gen = (fld (s.bufWord p i) 15 8 + 1) % 256) :
    s.popBuf own p false = (bufHandle p i gen, s.bufAddr p i,
      (s.setBufWord p i (takenWord own gen (s.bufWord p i))).setReg (kcas p + 0x18) (s.poolFree p - 1)) := by
  subst hgen
  have htop : s.rd32 (s.poolMeta p + 4 * s.poolCount p + 4 * (s.poolFree p - 1)) = i := hi.symm
  have hmark' (j w : Nat) : (s.setBufWord p j w).reg (kcas p + 0x1C) = 0 :=
    (State.reg_of_regs (s.regs_setBufWord p j w) _).trans hmark
  rw [State.popBuf]
  simp only [hiso, Bool.false_and, Bool.or_false, Bool.false_eq_true, if_false, State.setFree, htop, hmark', ne_eq,
    not_true, decide_false, takenWord]

end

/-- The candidates of a request are pools 0 to 7. -/
theorem State.lt_of_mem_candidates {s : State} {own size p : Nat} (h : p ∈ s.candidates own size) : p < 8 := by
  rw [State.candidates, List.mem_flatMap] at h
  obtain ⟨z, -, hp⟩ := h
  exact List.mem_range.1 (List.mem_of_mem_filter hp)

-- the answer to a request

/-- The word of a Caisson window's status: DONE, FAIL f, and the tag g of the request (R267). -/
def casStat (f g : Nat) : Nat := 1 + f * 2 + g * 2 ^ 28

section
variable {f g : Nat} (hf : f < 2) (hg : g < 16)
include hf hg

theorem casStat_lt : casStat f g < 2 ^ 32 := by
  rw [casStat]
  omega

theorem fields_casStat : bitOf (casStat f g) 0 = true ∧ (bitOf (casStat f g) 1 = true ↔ f = 1)
    ∧ fld (casStat f g) 31 28 = g := by
  rw [casStat, bitOf, bitOf, fld, beq_iff_eq, beq_iff_eq]
  omega

end

/-- s with the answer to a request of window c, of tag g: handle h and address a (R267). -/
def State.casAnswer (s : State) (c h a g : Nat) : State :=
  (((s.setReg (win c + 0xA04) h).setReg (win c + 0xA0C) a).setReg (win c + 0xA10) (a / 2 ^ 32)).setReg (win c + 0xA08)
    (casStat 0 g)

theorem State.reg_kcas_casAnswer {p r : Nat} (hp : p < 8) (hr : r < 0x40) (s : State) (c h a g : Nat) :
    (s.casAnswer c h a g).reg (kcas p + r) = s.reg (kcas p + r) := by
  have hne := kcas_add_ne_win hp hr c
  rw [State.casAnswer]
  iterate 4 rw [State.reg_setReg_of_ne _ _ _ _ (hne _)]

/-- s with the failure of a request of window c, of tag g and for n units (R267, R274). -/
def State.casFailure (s : State) (c n g : Nat) : State :=
  (((s.allocFail c (256 * n)).casStick c 1).setReg (win c + 0xA04) 0).setReg (win c + 0xA08) (casStat 1 g)

theorem State.mem_allocFail (s : State) (own size : Nat) : (s.allocFail own size).mem = s.mem := by
  rw [State.allocFail]
  split
  · exact s.mem_setReg _ _
  · rfl

/-- What serving a request finds: a handle with its address and the state that has taken it, or nothing (R266, R275). -/
def State.casGot (s : State) (c w : Nat) : Option (Nat × Nat × State) :=
  if c < 16 ∧ !s.rbit (kctx c) 0 then none else s.alloc c (256 * fld w 20 0) (bitOf w 21) (bitOf w 22)

section
variable {s : State} {c w : Nat}

theorem State.casGot_of_on (hctx : c = 16 ∨ s.rbit (kctx c) 0 = true) :
    s.casGot c w = s.alloc c (256 * fld w 20 0) (bitOf w 21) (bitOf w 22) := by
  refine if_neg ?_
  rcases hctx with rfl | hon
  · simp
  · simp [hon]

theorem State.casServe_of_none (h : s.casGot c w = none) : s.casServe c w = s.casFailure c (fld w 20 0) (fld w 31 28) := by
  rw [State.casGot] at h
  rw [State.casServe]
  simp only [h]
  rfl

theorem State.casServe_of_some {hd a : Nat} {t : State} (h : s.casGot c w = some (hd, a, t)) :
    s.casServe c w = t.casAnswer c hd a (fld w 31 28) := by
  rw [State.casGot] at h
  rw [State.casServe]
  simp only [h]
  rfl

end

end Sys2Proof.Machine
end

section
/-! PROOFS. A Caisson request beside others that are pending (R267): serving it, and the event of a low mark with it, does not
look at them. -/
namespace Sys2Proof.Machine

-- an event packet in parts (R257 to R262)

/-- RD of an event queue once its ring has room for m records (R260). -/
def State.evRoom (s : State) (e m : Nat) : Nat :=
  s.passOld (s.rpair 0x90000 + s.reg (kevq e)) (s.rf (kevq e + 4) 4 0) (s.reg (kevq e + 0xC)) m 4 (s.reg (kevq e + 0x10))

/-- s with RD of an event queue moved past records that are lost (R260). -/
def State.evPassed (s : State) (e rd : Nat) : State :=
  if rd = s.reg (kevq e + 0x10) then s
  else ((s.setReg (kevq e + 0x10) rd).satAdd (kevq e + 0x14)
    (BitVec.ofNat 32 rd - BitVec.ofNat 32 (s.reg (kevq e + 0x10))).toNat).setRbit (kevq e + 0x1C) 1 true

/-- t with the records of a packet in a ring. -/
def State.evStored (t : State) (e base n wr : Nat) (rs : List EvRec) : State :=
  ({ t with evNew := t.evNew.filter (fun p => p.1 != e) ++ [(e, t.oldRecs base n wr rs.length)] } : State).putRecs base n wr rs

/-- t with PEND of an event queue set where a packet holds a record that asks for it (R262). -/
def State.evMarked (t : State) (e : Nat) (rs : List EvRec) : State :=
  if rs.any (fun r => r.kind == 2 || r.kind == 3) then t.setRbit (kevq e + 0x1C) 0 true else t

/-- t once a packet has been counted in an event queue whose write index was wr. -/
def State.evCounted (t : State) (e wr m : Nat) : State :=
  (t.setReg (kevq e + 0xC) (wr + m)).setReg (kevq e + 0x18) (t.reg (kevq e + 0x18) + 1)

theorem State.post_of_on {s : State} {e : Nat} (rs : List EvRec)
    (hon : ¬ ((!s.rbit (kevq e + 8) 0) = true ∨ (!s.rst.posted) = true)) :
    s.post e rs = (((((s.evPassed e (s.evRoom e rs.length)).evStored e (s.rpair 0x90000 + s.reg (kevq e))
      (s.rf (kevq e + 4) 4 0) (s.reg (kevq e + 0xC)) rs).evCounted e (s.reg (kevq e + 0xC)) rs.length).evMarked e rs).evThresh
      e) :=
  if_neg hon

-- a request does not look at the requests that are pending

/-- s with other requests pending. -/
def State.withPend (s : State) (l : List Nat) : State := { s with casPend := l }

section
variable (s : State) (l : List Nat)

theorem State.reg_withPend (a : Nat) : (s.withPend l).reg a = s.reg a := State.reg_of_regs rfl a
theorem State.setReg_withPend (a v : Nat) : (s.withPend l).setReg a v = (s.setReg a v).withPend l := rfl
theorem State.rf_withPend (a hi lo : Nat) : (s.withPend l).rf a hi lo = s.rf a hi lo := by
  rw [State.rf, s.reg_withPend l, State.rf]
theorem State.rd32_withPend (a : Nat) : (s.withPend l).rd32 a = s.rd32 a := State.rdLe_of_mem rfl a 4
theorem State.rpair_withPend (a : Nat) : (s.withPend l).rpair a = s.rpair a := by
  rw [State.rpair, s.reg_withPend l, s.reg_withPend l, State.rpair]

theorem State.ite_withPend {p : Prop} [Decidable p] {s s' t t' : State} (hs : s' = s.withPend l) (ht : t' = t.withPend l) :
    (if p then s' else t') = (if p then s else t).withPend l := by
  rw [hs, ht]
  exact (apply_ite (State.withPend · l) p s t).symm

theorem State.wr_withPend (bs : List Byte) (a : Nat) : (s.withPend l).wr a bs = (s.wr a bs).withPend l := by
  induction bs generalizing s a with
  | nil => rfl
  | cons b bs ih => exact ih (s.wr8 a b) (a + 1)

theorem State.putRecs_cons (base n i : Nat) (r : EvRec) (rs : List EvRec) : s.putRecs base n i (r :: rs)
    = (s.wr (base + 16 * (i % 2 ^ n)) (r.bytes n i rs.isEmpty)).putRecs base n (i + 1) rs :=
  State.putRecs.eq_def s base n i (r :: rs)

theorem State.putRecs_withPend (base n i : Nat) (rs : List EvRec) :
    (s.withPend l).putRecs base n i rs = (s.putRecs base n i rs).withPend l := by
  induction rs generalizing s i with
  | nil => rfl
  | cons r rs ih => rw [State.putRecs_cons, State.wr_withPend, ih, State.putRecs_cons]

theorem State.packetLen_withPend (base n i k : Nat) : (s.withPend l).packetLen base n i k = s.packetLen base n i k := by
  induction k generalizing i with
  | zero => rfl
  | succ k ih => rw [State.packetLen, s.rd32_withPend l, ih, State.packetLen]

theorem State.passOld_withPend (base n wr m k rd : Nat) :
    (s.withPend l).passOld base n wr m k rd = s.passOld base n wr m k rd := by
  induction k generalizing rd with
  | zero => rfl
  | succ k ih => rw [State.passOld, ih, State.packetLen_withPend, State.passOld]

theorem State.evRoom_withPend (e m : Nat) : (s.withPend l).evRoom e m = s.evRoom e m := by
  simp only [State.evRoom, State.passOld_withPend, State.reg_withPend, State.rf_withPend, State.rpair_withPend]

theorem State.evPassed_withPend (e rd : Nat) : (s.withPend l).evPassed e rd = (s.evPassed e rd).withPend l := by
  rw [State.evPassed, State.evPassed, s.reg_withPend l]
  exact State.ite_withPend l rfl rfl

theorem State.evStored_withPend (e base n wr : Nat) (rs : List EvRec) :
    (s.withPend l).evStored e base n wr rs = (s.evStored e base n wr rs).withPend l := by
  have hold : (s.withPend l).oldRecs base n wr rs.length = s.oldRecs base n wr rs.length := rfl
  rw [State.evStored, hold, State.evStored, ← State.putRecs_withPend]
  rfl

theorem State.evCounted_withPend (e wr m : Nat) : (s.withPend l).evCounted e wr m = (s.evCounted e wr m).withPend l := rfl

theorem State.evMarked_withPend (e : Nat) (rs : List EvRec) : (s.withPend l).evMarked e rs = (s.evMarked e rs).withPend l :=
  State.ite_withPend l rfl rfl

theorem State.evThresh_withPend (e : Nat) : (s.withPend l).evThresh e = (s.evThresh e).withPend l :=
  State.ite_withPend l rfl rfl

theorem State.post_withPend (e : Nat) (rs : List EvRec) : (s.withPend l).post e rs = (s.post e rs).withPend l := by
  by_cases hoff : (!s.rbit (kevq e + 8) 0) = true ∨ (!s.rst.posted) = true
  · exact (if_pos hoff).trans (congrArg (State.withPend · l) (if_pos hoff).symm)
  · rw [State.post_of_on rs (s := s.withPend l) hoff, State.post_of_on rs hoff]
    simp only [State.evRoom_withPend, State.evPassed_withPend, State.reg_withPend, State.rf_withPend, State.rpair_withPend,
      State.evStored_withPend, State.evCounted_withPend, State.evMarked_withPend, State.evThresh_withPend]

theorem State.setFree_withPend (p n : Nat) : (s.withPend l).setFree p n = (s.setFree p n).withPend l :=
  State.ite_withPend l ((s.setReg (kcas p + 0x18) n).post_withPend l 16 _) rfl

end

-- a whole request beside other requests that are pending

section
variable (s : State) (l : List Nat)

/-- An answer that holds a state: the state with other requests pending. -/
def pendAnswer (l : List Nat) (x : Nat × Nat × State) : Nat × Nat × State := (x.1, x.2.1, x.2.2.withPend l)

theorem State.popBuf_withPend (own p : Nat) (zero : Bool) :
    (s.withPend l).popBuf own p zero = pendAnswer l (s.popBuf own p zero) := by
  unfold State.popBuf
  extract_lets f i w gen iso w' s1 a s2 f' i' w0 gen' iso' w0' s1' a' s2'
  have h1 : s1 = s1'.withPend l := s.wr_withPend l _ _
  have h2 : s2 = s2'.withPend l :=
    State.ite_withPend l ((congrArg (State.wr · a _) h1).trans (s1'.wr_withPend l _ _)) h1
  rw [h2, State.setFree_withPend]
  rfl

theorem State.candidates_withPend (own size : Nat) : (s.withPend l).candidates own size = s.candidates own size := rfl

theorem State.alloc_withPend (own size : Nat) (nofall zero : Bool) :
    (s.withPend l).alloc own size nofall zero = (s.alloc own size nofall zero).map (pendAnswer l) := by
  unfold State.alloc
  extract_lets cs tryl cs' tryl'
  have hfind : tryl.find? (fun p => decide ((s.withPend l).poolFree p ≠ 0))
      = tryl'.find? (fun p => decide (s.poolFree p ≠ 0)) := rfl
  rw [hfind]
  cases tryl'.find? (fun p => decide (s.poolFree p ≠ 0)) with
  | none => rfl
  | some p =>
    have hfrom : (if cs.head? = some p then s.withPend l else (s.withPend l).satAdd (kcas p + 0x20) 1)
        = (if cs'.head? = some p then s else s.satAdd (kcas p + 0x20) 1).withPend l := State.ite_withPend l rfl rfl
    exact congrArg some ((congrArg (State.popBuf · own p zero) hfrom).trans (State.popBuf_withPend _ l own p zero))

theorem State.allocFail_withPend (own size : Nat) :
    (s.withPend l).allocFail own size = (s.allocFail own size).withPend l := by
  rw [State.allocFail, State.candidates_withPend, State.allocFail]
  cases s.candidates own size with
  | nil => rfl
  | cons p ps => rfl

theorem State.casStick_withPend (c b : Nat) : (s.withPend l).casStick c b = (s.casStick c b).withPend l :=
  State.ite_withPend l rfl rfl

theorem State.casGot_withPend (c w : Nat) : (s.withPend l).casGot c w = (s.casGot c w).map (pendAnswer l) := by
  by_cases hoff : c < 16 ∧ (!s.rbit (kctx c) 0) = true
  · rw [State.casGot, State.casGot, if_pos hoff]
    exact if_pos hoff
  · rw [State.casGot, State.casGot, if_neg hoff, ← State.alloc_withPend]
    exact if_neg hoff

theorem State.casAnswer_withPend (c h a g : Nat) : (s.withPend l).casAnswer c h a g = (s.casAnswer c h a g).withPend l := by
  rw [State.casAnswer, State.casAnswer]
  iterate 4 rw [State.setReg_withPend]

theorem State.casFailure_withPend (c n g : Nat) : (s.withPend l).casFailure c n g = (s.casFailure c n g).withPend l := by
  rw [State.casFailure, State.casFailure, State.allocFail_withPend, State.casStick_withPend, State.setReg_withPend,
    State.setReg_withPend]

theorem State.casServe_withPend (c w : Nat) : (s.withPend l).casServe c w = (s.casServe c w).withPend l := by
  have hgot := s.casGot_withPend l c w
  cases hs : s.casGot c w with
  | none =>
    rw [hs] at hgot
    rw [State.casServe_of_none hgot, State.casServe_of_none hs, State.casFailure_withPend]
  | some x =>
    rw [hs] at hgot
    rw [State.casServe_of_some hgot, State.casServe_of_some hs, State.casAnswer_withPend]

/-- A request leaves the requests that are pending. -/
theorem State.casPend_casServe (c w : Nat) : (s.casServe c w).casPend = s.casPend := by
  have hserve : s.casServe c w = (s.casServe c w).withPend s.casPend := s.casServe_withPend s.casPend c w
  rw [hserve]
  rfl

/-- s with a request of window c served, and pending until it is seen DONE. -/
def State.casServed (s : State) (c w : Nat) : State :=
  (s.casServe c w).withPend ((s.casServe c w).casPend.filter (fun x => x != c) ++ [c])

/-- A request that is served does not look at an earlier one of its window. -/
theorem State.casServed_withPend (c w : Nat) :
    (s.withPend (s.casPend.filter (fun x => x != c))).casServed c w = s.casServed c w := by
  rw [State.casServed, State.casPend_casServe, State.casServe_withPend, State.casServed, State.casPend_casServe]
  simp [State.withPend]

end

end Sys2Proof.Machine
end

section
/-! PROOFS. CAS_REQUEST (R266, R267, R272): a request that is ignored, one that fails, and one that takes a buffer. -/
namespace Sys2Proof.Machine

-- KCTX_CAS_REQ

theorem exec_casRequest {s : State} {c : Nat} {w : U32} {priv : Bool} (hc : c ≤ 16)
    (h : Reaches s (win c + 0xA00) priv) :
    exec (.casRequest c w priv) s = .next (s.asked.writeCasReq c w.toNat) := by
  change Host.Outcome.next (if 16 < c then s else s.ctlWrite _ priv _) = _
  rw [if_neg (by omega), h.ctlWrite]

/-- s once a free number has been drawn. -/
def State.drawn (s : State) : State := { s with free := s.free + 1 }

section
variable {s : State} {c w : Nat}

theorem State.writeCasReq_bad (hidle : s.casPend.contains c = false) (hbad : fld w 20 0 = 0 ∨ 1048576 < fld w 20 0) :
    s.writeCasReq c w = s.casStick c 4 := by
  simp only [State.writeCasReq, hidle, Bool.false_eq_true, false_and, if_false, if_pos hbad]

theorem State.writeCasReq_good (hidle : s.casPend.contains c = false) (hgood : ¬ (fld w 20 0 = 0 ∨ 1048576 < fld w 20 0)) :
    s.writeCasReq c w = s.casServed c w := by
  simp only [State.writeCasReq, hidle, Bool.false_eq_true, false_and, if_false, if_neg hgood]
  rfl

/-- A request that finds the one before it pending is ignored, or goes on as any other (log entry 33). -/
theorem State.writeCasReq_pending (hpend : s.casPend.contains c = true) : s.writeCasReq c w = s.drawn.casStick c 3
    ∨ s.writeCasReq c w = if fld w 20 0 = 0 ∨ 1048576 < fld w 20 0 then s.drawn.casStick c 4 else s.drawn.casServed c w := by
  by_cases hpick : Config.freePick s.free % 2 = 1
  · left
    simp only [State.writeCasReq, hpend, hpick, and_self, if_true]
    rfl
  · right
    simp only [State.writeCasReq, hpend, hpick, and_false, if_true, if_false]
    rfl

end

theorem State.arrayWrite_drawn_withPend (s : State) (l : List Nat) (a : Nat) :
    (s.drawn.withPend l).arrayWrite a = (s.arrayWrite a).drawn.withPend l := by
  obtain ⟨v, hv⟩ : ∃ v, v = putFld (s.reg 0x1014) 31 31 (b2n false) := ⟨_, rfl⟩
  have hreg : (s.drawn.withPend l).reg 0x1014 = s.reg 0x1014 := State.reg_of_regs rfl _
  have harmed : ((s.drawn.withPend l).rbit 0x1014 31 = true ∧ (s.drawn.withPend l).rf 0x1014 7 0 = a)
      ↔ (s.rbit 0x1014 31 = true ∧ s.rf 0x1014 7 0 = a) := by
    rw [State.rbit, State.rf, hreg, State.rbit, State.rf]
  rw [State.arrayWrite_eq _ v a (by rwa [hreg]), State.arrayWrite_eq _ v a hv]
  by_cases harm : s.rbit 0x1014 31 = true ∧ s.rf 0x1014 7 0 = a
  · rw [if_pos harm, if_pos (harmed.2 harm)]
    rfl
  · rw [if_neg harm, if_neg (mt harmed.1 harm)]

/-- The state that has taken a request does not rest on the free numbers drawn and the requests pending before it. -/
theorem State.asked_drawn_withPend (s : State) (l : List Nat) : (s.drawn.withPend l).asked = s.asked.drawn.withPend l :=
  State.arrayWrite_drawn_withPend { s with ctl := {}, evNew := [] } l 0xB

section
variable {s : State} {c : Nat} {w : U32} {priv : Bool} (hc : c ≤ 16) (h : Reaches s (win c + 0xA00) priv)
include hc h

theorem casRequest_pending_good (hpend : s.casPend.contains c = true)
    (hgood : ¬ (fld w.toNat 20 0 = 0 ∨ 1048576 < fld w.toNat 20 0)) :
    exec (.casRequest c w priv) s = .next (s.asked.drawn.casStick c 3)
    ∨ exec (.casRequest c w priv) s = exec (.casRequest c w priv) (s.drawn.withPend (s.casPend.filter (fun x => x != c))) := by
  rw [exec_casRequest hc h]
  rcases State.writeCasReq_pending (s := s.asked) (w := w.toNat) (by rwa [s.asked_casPend]) with hreq | hreq
  · exact .inl (congrArg _ hreq)
  · right
    have h' : Reaches (s.drawn.withPend (s.casPend.filter (fun x => x != c))) (win c + 0xA00) priv := ⟨h.up, h.mode, h.ready⟩
    have hidle : (s.casPend.filter (fun x => x != c)).contains c = false := by simp
    rw [hreq, if_neg hgood, exec_casRequest hc h', State.asked_drawn_withPend, State.writeCasReq_good hidle hgood,
      ← s.asked_casPend]
    exact congrArg _ (s.asked.drawn.casServed_withPend c w.toNat).symm

theorem casRequest_pending_bad (hpend : s.casPend.contains c = true)
    (hbad : fld w.toNat 20 0 = 0 ∨ 1048576 < fld w.toNat 20 0) :
    ∃ b, (b = 3 ∨ b = 4) ∧ exec (.casRequest c w priv) s = .next (s.asked.drawn.casStick c b) := by
  rw [exec_casRequest hc h]
  rcases State.writeCasReq_pending (s := s.asked) (w := w.toNat) (by rwa [s.asked_casPend]) with hreq | hreq
  · exact ⟨3, .inl rfl, congrArg _ hreq⟩
  · rw [if_pos hbad] at hreq
    exact ⟨4, .inr rfl, congrArg _ hreq⟩

theorem casRequest_idle_bad (hidle : s.casPend.contains c = false)
    (hbad : fld w.toNat 20 0 = 0 ∨ 1048576 < fld w.toNat 20 0) :
    exec (.casRequest c w priv) s = .next (s.asked.casStick c 4) := by
  rw [exec_casRequest hc h, State.writeCasReq_bad (by rwa [s.asked_casPend]) hbad]

theorem casRequest_idle_good (hidle : s.casPend.contains c = false)
    (hgood : ¬ (fld w.toNat 20 0 = 0 ∨ 1048576 < fld w.toNat 20 0)) :
    exec (.casRequest c w priv) s = .next (s.asked.casServed c w.toNat) := by
  rw [exec_casRequest hc h, State.writeCasReq_good (by rwa [s.asked_casPend]) hgood]

end

/-- The failure of a request: no handle, DONE and FAIL with the tag, STICKY, and memory as it was. -/
theorem State.casFailure_fields (s : State) (c n : Nat) {g : Nat} (hg : g < 16) {t : State} (ht : t = s.casFailure c n g) :
    t.reg (win c + 0xA04) = 0 ∧ t.reg (win c + 0xA08) = casStat 1 g ∧ t.rbit (win c + 0xA1C) 1 = true ∧ t.mem = s.mem := by
  subst ht
  rw [State.casFailure]
  refine ⟨?_, State.reg_setReg_of_lt _ _ _ (casStat_lt (by decide) hg), ?_, ?_⟩
  · rw [State.reg_setReg_of_ne _ _ _ _ (by omega), State.reg_setReg_of_lt _ _ _ (by decide)]
  · rw [State.rbit_setReg_of_ne _ _ _ _ _ (by omega), State.rbit_setReg_of_ne _ _ _ _ _ (by omega)]
    exact State.rbit_casStick _ c (by decide)
  · rw [State.mem_setReg, State.mem_setReg, State.casStick, State.mem_stick, State.mem_allocFail]

/-- s with buffer i of pool p taken by a requester, at generation gen. -/
def State.bufTaken (s : State) (own p i gen : Nat) : State :=
  (s.setBufWord p i (takenWord own gen (s.bufWord p i))).setReg (kcas p + 0x18) (s.poolFree p - 1)

/-- The registers that answer a request which takes a buffer. -/
theorem State.reg_casAnswer (s : State) (c h a : Nat) {g : Nat} (hg : g < 16) :
    (s.casAnswer c h a g).reg (win c + 0xA04) = h % 2 ^ 32 ∧ (s.casAnswer c h a g).reg (win c + 0xA08) = casStat 0 g
      ∧ (s.casAnswer c h a g).reg (win c + 0xA0C) = a % 2 ^ 32 := by
  refine ⟨?_, State.reg_setReg_of_lt _ _ _ (casStat_lt (by decide) hg), ?_⟩ <;> simp [State.casAnswer]

/-- The pool after a buffer has been taken and the request answered: one buffer fewer is free, and the state word is the
requester's. -/
theorem State.pool_casAnswer_bufTaken (s : State) {c own p i gen : Nat} (hp : p < 8) (hown : own ≤ 16) (hgen : gen < 256)
    (h a g : Nat) : ((s.bufTaken own p i gen).casAnswer c h a g).reg (kcas p + 0x18) = s.poolFree p - 1
      ∧ ((s.bufTaken own p i gen).casAnswer c h a g).bufWord p i = takenWord own gen (s.bufWord p i) := by
  have hfree : s.poolFree p < 2 ^ 32 := s.reg_lt _
  have hmeta : ((s.bufTaken own p i gen).casAnswer c h a g).poolMeta p
      = (s.setBufWord p i (takenWord own gen (s.bufWord p i))).poolMeta p := State.poolMeta_of_reg fun r hr => by
    rw [State.reg_kcas_casAnswer hp (by omega), State.bufTaken, State.reg_setReg_of_ne _ _ _ _ (by omega)]
  refine ⟨?_, ?_⟩
  · rw [State.reg_kcas_casAnswer hp (by decide), State.bufTaken, State.reg_setReg_of_lt _ _ _ (by omega)]
  · have hword := s.bufWord_setBufWord p i (takenWord_lt (s.bufWord p i) hgen hown)
    rw [State.bufWord, ← hmeta] at hword
    have hmem : ((s.bufTaken own p i gen).casAnswer c h a g).mem
        = (s.setBufWord p i (takenWord own gen (s.bufWord p i))).mem := by
      simp only [State.casAnswer, State.bufTaken, State.mem_setReg]
    exact (State.rdLe_of_mem hmem _ _).trans hword

-- a request that is served

theorem State.asked_drawn (s : State) : s.asked.drawn = { s.asked with free := s.free + 1 } := by
  rw [State.drawn, s.asked_free]

section
variable {s : State} {c : Nat} {w : U32} {priv : Bool} (hc : c ≤ 16) (h : Reaches s (win c + 0xA00) priv)
  (hidle : s.casPend.contains c = false) (hgood : ¬ (fld w.toNat 20 0 = 0 ∨ 1048576 < fld w.toNat 20 0))
  (hctx : c = 16 ∨ s.rbit (kctx c) 0 = true)
include hctx

/-- A request that finds its context on goes to the pools. -/
theorem casGot_asked : s.asked.casGot c w.toNat
    = s.asked.alloc c (256 * fld w.toNat 20 0) (bitOf w.toNat 21) (bitOf w.toNat 22) := by
  refine State.casGot_of_on (hctx.imp_right fun hon => ?_)
  rwa [s.asked_rbit _ _ (by rw [kctx]; omega)]

include hc h hidle hgood

/-- With no buffer free in any candidate, a request fails. -/
theorem casRequest_fails (hfull : ∀ p ∈ s.candidates c (256 * fld w.toNat 20 0), s.poolFree p = 0) :
    ∃ t : State, exec (.casRequest c w priv) s = .next t ∧ t.reg (win c + 0xA04) = 0 ∧ t.rbit (win c + 0xA08) 0 = true
      ∧ t.rbit (win c + 0xA08) 1 = true ∧ t.rf (win c + 0xA08) 31 28 = fld w.toNat 31 28
      ∧ t.rbit (win c + 0xA1C) 1 = true ∧ t.mem = s.mem := by
  have hgot := casGot_asked (w := w) hctx
  rw [State.alloc_of_empty (by simpa only [State.asked_candidates, State.asked_poolFree] using hfull)] at hgot
  have hfields := s.asked.casFailure_fields c (fld w.toNat 20 0) (g := fld w.toNat 31 28) (Nat.mod_lt _ (by decide)) rfl
  obtain ⟨hdone, hfail, htag⟩ := fields_casStat (f := 1) (g := fld w.toNat 31 28) (by decide) (Nat.mod_lt _ (by decide))
  rw [casRequest_idle_good hc h hidle hgood, State.casServed, State.casServe_of_none hgot]
  obtain ⟨t, ht⟩ : ∃ t, t = s.asked.casFailure c (fld w.toNat 20 0) (fld w.toNat 31 28) := ⟨_, rfl⟩
  rw [← ht] at hfields ⊢
  obtain ⟨hres, hstat, hstick, hmem⟩ := hfields
  refine ⟨_, rfl, ?_, ?_, ?_, ?_, ?_, ?_⟩
  · rw [State.reg_withPend, hres]
  · rw [State.rbit, State.reg_withPend, hstat, hdone]
  · rw [State.rbit, State.reg_withPend, hstat, hfail.2 rfl]
  · rw [State.rf_withPend, State.rf, hstat, htag]
  · rw [State.rbit, State.reg_withPend, ← State.rbit, hstick]
  · exact hmem.trans s.asked_mem

/-- A request that finds a buffer in its first candidate takes the one on top of the stack. -/
theorem casRequest_takes {p i gen : Nat} {ps : List Nat} (hcand : s.candidates c (256 * fld w.toNat 20 0) = p :: ps)
    (hfree : s.poolFree p ≠ 0) (hzero : bitOf w.toNat 22 = false) (hiso : s.poolIso p = false)
    (hmark : s.reg (kcas p + 0x1C) = 0) (hi : i = s.topBuf p) (hgen : gen = (fld (s.bufWord p i) 15 8 + 1) % 256) :
    ∃ t : State, exec (.casRequest c w priv) s = .next t ∧ t.reg (win c + 0xA04) = bufHandle p i gen % 2 ^ 32
      ∧ t.reg (win c + 0xA08) = casStat 0 (fld w.toNat 31 28) ∧ t.reg (win c + 0xA0C) = s.bufAddr p i % 2 ^ 32
      ∧ t.reg (kcas p + 0x18) = s.poolFree p - 1 ∧ t.bufWord p i = takenWord c gen (s.bufWord p i) := by
  have hp : p < 8 := State.lt_of_mem_candidates (hcand ▸ List.mem_cons_self)
  have hgen256 : gen < 256 := hgen ▸ Nat.mod_lt _ (by decide)
  have htop : i = s.asked.topBuf p := by
    rwa [State.topBuf, s.asked_poolMeta, s.asked_poolCount, s.asked_poolFree, s.asked_rd32]
  have hgot := casGot_asked (w := w) hctx
  have hpop : s.asked.popBuf c p false = (bufHandle p i gen, s.asked.bufAddr p i, s.asked.bufTaken c p i gen) :=
    State.popBuf_plain (by rwa [s.asked_poolIso]) (by rwa [s.asked_kcas]) htop (by rwa [s.asked_bufWord])
  rw [State.alloc_of_first (by rwa [s.asked_candidates]) (by rwa [s.asked_poolFree]), hzero, hpop] at hgot
  have hanswer := (s.asked.bufTaken c p i gen).reg_casAnswer c (bufHandle p i gen) (s.asked.bufAddr p i)
    (g := fld w.toNat 31 28) (Nat.mod_lt _ (by decide))
  have hpool := s.asked.pool_casAnswer_bufTaken (c := c) (i := i) hp hc hgen256 (bufHandle p i gen) (s.asked.bufAddr p i)
    (fld w.toNat 31 28)
  rw [casRequest_idle_good hc h hidle hgood, State.casServed, State.casServe_of_some hgot]
  obtain ⟨t, ht⟩ : ∃ t, t = (s.asked.bufTaken c p i gen).casAnswer c (bufHandle p i gen) (s.asked.bufAddr p i)
    (fld w.toNat 31 28) := ⟨_, rfl⟩
  rw [← ht] at hanswer hpool ⊢
  obtain ⟨hres, hstat, haddr⟩ := hanswer
  obtain ⟨hleft, hword⟩ := hpool
  refine ⟨_, rfl, ?_, ?_, ?_, ?_, ?_⟩
  · rw [State.reg_withPend, hres]
  · rw [State.reg_withPend, hstat]
  · rw [State.reg_withPend, haddr, s.asked_bufAddr]
  · rw [State.reg_withPend, hleft, s.asked_poolFree]
  · rw [State.bufWord, State.rd32_withPend, State.poolMeta, State.rpair_withPend, ← State.poolMeta, ← State.bufWord, hword,
      s.asked_bufWord]

end

end Sys2Proof.Machine
end

section
/-! PROOFS. RECLAIM (R273): a reclaim that is refused, that waits, or that completes; and the Caisson requests as a whole. -/
namespace Sys2Proof.Machine

-- buffers that return

theorem State.anyEnabled_of_reg {s t : State} (h : ∀ q r, 0 < r → r < 0x10 → t.reg (kq q + r) = s.reg (kq q + r)) (c : Nat) :
    t.anyEnabled c = s.anyEnabled c := by
  have howner (q : Nat) : t.owner q = s.owner q := by
    rw [State.owner, State.rbit, State.rf, h q 8 (by decide) (by decide), State.owner, State.rbit, State.rf]
  have hctl (q : Nat) : t.rbit (kq q + 0xC) 0 = s.rbit (kq q + 0xC) 0 := by
    rw [State.rbit, h q 0xC (by decide) (by decide), State.rbit]
  simp only [State.anyEnabled, howner, hctl]

/-- The registers of the queues are apart from KCAS_RECLAIM. -/
theorem State.anyEnabled_setRf (s : State) (c hi lo x : Nat) : (s.setRf 0xA0400 hi lo x).anyEnabled c = s.anyEnabled c :=
  State.anyEnabled_of_reg (fun q r h0 hr => s.reg_setRf_of_ne 0xA0400 hi lo x (kq q + r) (by rw [kq]; omega)) c

theorem State.asked_anyEnabled (s : State) (c : Nat) : s.asked.anyEnabled c = s.anyEnabled c :=
  State.anyEnabled_of_reg (fun q r h0 hr => s.asked_reg (kq q + r) (by rw [kq]; omega)) c

/-- t is s after buffers have been returned: the reclaims that wait and KCAS_RECLAIM are as they were. -/
def Returned (s t : State) : Prop := t.reclaims = s.reclaims ∧ t.reg 0xA0400 = s.reg 0xA0400

theorem Returned.ite {s t u : State} {p : Prop} [Decidable p] (ht : Returned s t) (hu : Returned s u) :
    Returned s (if p then t else u) := by
  by_cases h : p
  · rwa [if_pos h]
  · rwa [if_neg h]

theorem Returned.foldl {α : Type} {s t : State} (l : List α) (f : State → α → State)
    (hf : ∀ t a, Returned s t → Returned s (f t a)) (h : Returned s t) : Returned s (l.foldl f t) := by
  induction l generalizing t with
  | nil => exact h
  | cons a l ih => exact ih (hf t a h)

theorem Returned.releaseBuf {s t : State} (h : Returned s t) (p i w : Nat) :
    Returned s ((t.setBufWord p i w).releaseBuf p i) := by
  obtain ⟨hrec, hreg⟩ := h
  have hframe (u : State) (a v : Nat) : (u.wr32 a v).reclaims = u.reclaims ∧ (u.wr32 a v).reg 0xA0400 = u.reg 0xA0400 :=
    ⟨by rw [State.wr32, State.wr_frame], State.reg_of_regs (u.regs_wr32 a v) _⟩
  rw [State.releaseBuf]
  refine ⟨?_, ?_⟩
  · rw [State.reclaims_setReg, (hframe _ _ _).1, State.setBufWord, (hframe _ _ _).1, hrec]
  · rw [State.reg_setReg_of_ne _ _ _ _ (by rw [kcas]; omega), (hframe _ _ _).2, State.setBufWord, (hframe _ _ _).2, hreg]

/-- s with buffer i of pool p returned, where it is held by context c and not in quarantine (R273). -/
def State.reclaimBuf (s : State) (c p i : Nat) : State :=
  if fld (s.bufWord p i) 19 16 = c ∧ !bitOf (s.bufWord p i) 20 ∧ !bitOf (s.bufWord p i) 22
      ∧ (fld (s.bufWord p i) 7 0 ≠ 0 ∨ bitOf (s.bufWord p i) 21) then
    (s.setBufWord p i (putFld (putFld (s.bufWord p i) 7 0 0) 21 21 0)).releaseBuf p i
  else s

theorem Returned.reclaimBuf {s t : State} (h : Returned s t) (c p i : Nat) : Returned s (t.reclaimBuf c p i) := by
  unfold State.reclaimBuf
  exact .ite (h.releaseBuf p i _) h

/-- s with every buffer of context c returned. -/
def State.reclaimBufs (s : State) (c : Nat) : State :=
  (List.range 8).foldl (fun s p => (List.range (s.poolCount p)).foldl (fun s i => s.reclaimBuf c p i) s) s

theorem State.returned_reclaimBufs (s : State) (c : Nat) : Returned s (s.reclaimBufs c) :=
  Returned.foldl _ _ (fun _ p ht => Returned.foldl _ _ (fun _ i ht => ht.reclaimBuf c p i) ht) ⟨rfl, rfl⟩

/-- s with other reclaims waiting. -/
def State.withReclaims (s : State) (l : List Nat) : State := { s with reclaims := l }

theorem State.reg_withReclaims (s : State) (l : List Nat) (a : Nat) : (s.withReclaims l).reg a = s.reg a :=
  State.reg_of_regs rfl a

theorem State.reclaimNow_eq (s : State) (c : Nat) : s.reclaimNow c
    = ((s.withReclaims (s.reclaims.filter (fun x => x != c))).reclaimBufs c).setRbit 0xA0400 30 true := rfl

/-- A reclaim that completes waits no longer, and sets DONE. -/
theorem State.reclaimNow_fields (s : State) (c : Nat) : (s.reclaimNow c).reclaims = s.reclaims.filter (fun x => x != c)
    ∧ (s.reclaimNow c).reg 0xA0400 = putFld (s.reg 0xA0400) 30 30 1 := by
  obtain ⟨hrec, hreg⟩ := (s.withReclaims (s.reclaims.filter (fun x => x != c))).returned_reclaimBufs c
  rw [State.reclaimNow_eq, State.setRbit, State.reg_setRf _ _ _ _ _ (by decide) (by decide), hreg, State.reg_withReclaims,
    b2n, if_pos rfl, State.setRf, State.reclaims_setReg, hrec]
  exact ⟨rfl, rfl⟩

/-- With no landing of a context in progress, and no teardown of it, its reclaim completes. -/
theorem State.landingsOver_reclaims {s : State} {c : Nat} (hland : ∀ l ∈ s.landings, l.ctx ≠ c)
    (htdn : s.rf (kctx c + 4) 1 0 ≠ 2) (hwait : c ∈ s.reclaims) : s.landingsOver c = s.reclaimNow c := by
  have hnone : s.landings.any (fun l => l.ctx == c) = false := by simpa using hland
  have hstay : ¬ (c < 16 ∧ s.rf (kctx c + 4) 1 0 = 2) := fun h => htdn h.2
  rw [State.landingsOver, hnone]
  simp only [Bool.false_eq_true, if_false, if_neg hstay, List.contains_iff_mem, hwait, if_true]

theorem State.landingsOver_waits {s : State} {c : Nat} (hland : ∃ l ∈ s.landings, l.ctx = c) : s.landingsOver c = s :=
  if_pos (by simpa using hland)

-- KCAS_RECLAIM

theorem exec_reclaim {s : State} {w : U32} {priv : Bool} (h : Reaches s 0xA0400 priv) :
    exec (.reclaim w priv) s = .next (s.asked.writeReclaim w.toNat) :=
  congrArg Host.Outcome.next (h.ctlWrite _)

theorem bits_of_fld_eq_zero {v : Nat} (h : fld v 30 29 = 0) : bitOf v 29 = false ∧ bitOf v 30 = false := by
  rw [fld] at h
  rw [bitOf, bitOf, beq_eq_false_iff_ne, beq_eq_false_iff_ne]
  omega

/-- s with a reclaim of context c accepted: REFUSED and DONE are clear. -/
def State.reclaimCleared (s : State) (c : Nat) : State := (s.setRf 0xA0400 3 0 c).setRf 0xA0400 30 29 0

/-- s with a reclaim of context c waiting. -/
def State.reclaimWaits (s : State) (c : Nat) : State := s.withReclaims (s.reclaims.filter (fun x => x != c) ++ [c])

theorem State.reclaims_reclaimCleared (s : State) (c : Nat) : (s.reclaimCleared c).reclaims = s.reclaims := by
  rw [State.reclaimCleared, State.setRf, State.reclaims_setReg, State.setRf, State.reclaims_setReg]

theorem State.landings_reclaimCleared (s : State) (c : Nat) : (s.reclaimCleared c).landings = s.landings := by
  rw [State.reclaimCleared, State.setRf, State.landings_setReg, State.setRf, State.landings_setReg]

theorem State.landings_reclaimWaits (s : State) (c : Nat) : (s.reclaimWaits c).landings = s.landings := rfl
theorem State.mem_reclaimWaits (s : State) (c : Nat) : (s.reclaimWaits c).mem = s.mem := rfl

/-- The landings in progress are the same once a reclaim has been accepted. -/
theorem State.landings_accepted {s : State} {c : Nat} : s.landings = ((s.asked.reclaimCleared c).reclaimWaits c).landings := by
  rw [State.landings_reclaimWaits, State.landings_reclaimCleared, s.asked_landings]

section
variable {s : State} {w : Nat}

theorem State.writeReclaim_noGo (hgo : bitOf w 31 = false) : s.writeReclaim w = s.setRf 0xA0400 3 0 (fld w 3 0) :=
  if_pos (by rw [hgo]; rfl)

section
variable (hgo : bitOf w 31 = true)
include hgo

theorem State.writeReclaim_refused (hen : s.anyEnabled (fld w 3 0) = true) :
    s.writeReclaim w = (s.setRf 0xA0400 3 0 (fld w 3 0)).setRbit 0xA0400 29 true :=
  (if_neg (by simp [hgo])).trans (if_pos ((s.anyEnabled_setRf _ _ _ _).trans hen))

theorem State.writeReclaim_accepted (hen : s.anyEnabled (fld w 3 0) = false) :
    s.writeReclaim w = ((s.reclaimCleared (fld w 3 0)).reclaimWaits (fld w 3 0)).landingsOver (fld w 3 0) := by
  unfold State.writeReclaim
  extract_lets c s1 s2
  rw [if_neg (by simp [hgo]), if_neg (by simp [s1, State.anyEnabled_setRf, c, hen])]
  rfl

end
end

section
variable (s : State) {c : Nat}

theorem State.reg_reclaimWaits (a : Nat) : (s.reclaimWaits c).reg a = s.reg a := s.reg_withReclaims _ a

theorem State.mem_reclaims_reclaimWaits : c ∈ (s.reclaimWaits c).reclaims :=
  List.mem_append_right _ (List.mem_singleton_self c)

theorem State.filter_reclaims_reclaimWaits :
    (s.reclaimWaits c).reclaims.filter (fun x => x != c) = s.reclaims.filter (fun x => x != c) := by
  simp [State.reclaimWaits, State.withReclaims]

theorem State.reg_reclaimCleared_of_ne {a : Nat} (h : a ≠ 0xA0400) : (s.reclaimCleared c).reg a = s.reg a := by
  rw [State.reclaimCleared, State.reg_setRf_of_ne _ _ _ _ _ _ h, State.reg_setRf_of_ne _ _ _ _ _ _ h]

theorem State.bits_reclaimCleared :
    (s.reclaimCleared c).rbit 0xA0400 29 = false ∧ (s.reclaimCleared c).rbit 0xA0400 30 = false :=
  bits_of_fld_eq_zero (State.rf_setRf _ _ _ _ _ (by decide) (by decide))

variable (hc : c < 16)
include hc

theorem State.rf_reclaimNamed : (s.setRf 0xA0400 3 0 c).rf 0xA0400 3 0 = c := by
  rw [State.rf_setRf _ _ _ _ _ (by decide) (by decide)]
  omega

theorem State.rf_reclaimCleared : (s.reclaimCleared c).rf 0xA0400 3 0 = c := by
  rw [State.reclaimCleared, State.rf_setRf_of_disjoint _ _ _ _ _ _ _ (by decide) (by decide) (by decide),
    State.rf_reclaimNamed _ hc]

end

/-- RECLAIM: without GO it names a context; with GO it is refused, or waits for the landings of the context, or is done. -/
theorem reclaim_acts {s : State} {w : U32} {priv : Bool} (h : Reaches s 0xA0400 priv) :
    (bitOf w.toNat 31 = false → exec (.reclaim w priv) s = .next (s.asked.setRf 0xA0400 3 0 (fld w.toNat 3 0)))
    ∧ (bitOf w.toNat 31 = true → s.anyEnabled (fld w.toNat 3 0) = true →
      ∃ t : State, exec (.reclaim w priv) s = .next t ∧ t.rbit 0xA0400 29 = true ∧ t.rf 0xA0400 3 0 = fld w.toNat 3 0
        ∧ t.reclaims = s.reclaims ∧ t.mem = s.mem)
    ∧ (bitOf w.toNat 31 = true → s.anyEnabled (fld w.toNat 3 0) = false → (∃ l ∈ s.landings, l.ctx = fld w.toNat 3 0) →
      ∃ t : State, exec (.reclaim w priv) s = .next t ∧ fld w.toNat 3 0 ∈ t.reclaims ∧ t.rf 0xA0400 3 0 = fld w.toNat 3 0
        ∧ t.rbit 0xA0400 30 = false ∧ t.rbit 0xA0400 29 = false ∧ t.mem = s.mem)
    ∧ (bitOf w.toNat 31 = true → s.anyEnabled (fld w.toNat 3 0) = false → (∀ l ∈ s.landings, l.ctx ≠ fld w.toNat 3 0) →
      s.rf (kctx (fld w.toNat 3 0) + 4) 1 0 ≠ 2 →
      ∃ t : State, exec (.reclaim w priv) s = .next t ∧ t.reclaims = s.reclaims.filter (fun x => x != fld w.toNat 3 0)
        ∧ t.rbit 0xA0400 29 = false ∧ t.rbit 0xA0400 30 = true) := by
  have hc : fld w.toNat 3 0 < 16 := Nat.mod_lt _ (by decide)
  rw [exec_reclaim h, ← s.asked_anyEnabled]
  generalize hcw : fld w.toNat 3 0 = c at hc ⊢
  refine ⟨fun hgo => ?_, fun hgo hen => ?_, fun hgo hen hland => ?_, fun hgo hen hland htdn => ?_⟩
  · rw [State.writeReclaim_noGo hgo, hcw]
  · rw [State.writeReclaim_refused hgo (hcw ▸ hen), hcw]
    refine ⟨_, rfl, State.rbit_setRbit _ _ 29 true (by decide), ?_, ?_, ?_⟩
    · rw [State.setRbit, State.rf_setRf_of_disjoint _ _ _ _ _ _ _ (by decide) (by decide) (by decide),
        State.rf_reclaimNamed _ hc]
    · rw [State.setRbit, State.setRf, State.reclaims_setReg, State.setRf, State.reclaims_setReg, s.asked_reclaims]
    · rw [State.mem_setRbit, State.mem_setRf, s.asked_mem]
  · obtain ⟨hrefused, hdone⟩ := s.asked.bits_reclaimCleared (c := c)
    rw [State.writeReclaim_accepted hgo (hcw ▸ hen), hcw, State.landingsOver_waits (State.landings_accepted ▸ hland)]
    refine ⟨_, rfl, State.mem_reclaims_reclaimWaits _, ?_, ?_, ?_, ?_⟩
    · rw [State.rf, State.reg_reclaimWaits, ← State.rf, State.rf_reclaimCleared _ hc]
    · rw [State.rbit, State.reg_reclaimWaits, ← State.rbit, hdone]
    · rw [State.rbit, State.reg_reclaimWaits, ← State.rbit, hrefused]
    · rw [State.mem_reclaimWaits, State.reclaimCleared, State.mem_setRf, State.mem_setRf, s.asked_mem]
  · obtain ⟨hrefused, -⟩ := s.asked.bits_reclaimCleared (c := c)
    have hstay : ((s.asked.reclaimCleared c).reclaimWaits c).rf (kctx c + 4) 1 0 ≠ 2 := by
      rwa [State.rf, State.reg_reclaimWaits, s.asked.reg_reclaimCleared_of_ne (by rw [kctx]; omega),
        s.asked_reg _ (by rw [kctx]; omega)]
    obtain ⟨hrec, hreg⟩ := ((s.asked.reclaimCleared c).reclaimWaits c).reclaimNow_fields c
    rw [State.reg_reclaimWaits] at hreg
    rw [State.writeReclaim_accepted hgo (hcw ▸ hen), hcw,
      State.landingsOver_reclaims (State.landings_accepted ▸ hland) hstay (State.mem_reclaims_reclaimWaits _)]
    refine ⟨_, rfl, ?_, ?_, ?_⟩
    · rw [hrec, State.filter_reclaims_reclaimWaits, State.reclaims_reclaimCleared, s.asked_reclaims]
    · rw [State.rbit_eq_rf, State.rf, hreg, fld_putFld_of_disjoint _ _ _ _ _ _ (by decide) (by decide), ← State.rf,
        ← State.rbit_eq_rf, hrefused]
    · rw [State.rbit_eq_rf, State.rf, hreg, fld_putFld _ _ _ _ (by decide)]
      rfl

/-- Settles O40: a request by what serving it finds in the pools (`casRequest_fails`, `casRequest_takes`), beside one that is
pending by `State.casServed_withPend`; references by the state word that is written; a reclaim by `reclaim_acts`. -/
theorem caissonRequestsAct : Obligations.CaissonRequestsAct := by
  refine ⟨fun s c w priv hc h => ⟨fun hpend h0 hmax => ?_, fun hpend hbad => ?_, casRequest_idle_bad hc h,
      fun hidle h0 hmax hctx => ⟨casRequest_fails hc h hidle (by omega) hctx,
        fun p ps i gen hcand hfree hzero hiso hmark hi hgen => ?_⟩⟩,
    fun s c w priv p i hc hp hi => ⟨casFree_acts hc hp hi, casRef_acts hc hp hi⟩, fun s w priv => reclaim_acts⟩
  · have hreq := casRequest_pending_good hc h hpend (by omega : ¬ (fld w.toNat 20 0 = 0 ∨ 1048576 < fld w.toNat 20 0))
    rwa [s.asked_drawn] at hreq
  · have hreq := casRequest_pending_bad hc h hpend hbad
    rwa [s.asked_drawn] at hreq
  · have hgen256 : gen < 256 := hgen ▸ Nat.mod_lt _ (by decide)
    obtain ⟨t, hexec, hres, hstat, haddr, hleft, hword⟩ :=
      casRequest_takes hc h hidle (by omega) hctx hcand hfree hzero hiso hmark hi hgen
    obtain ⟨hdone, hfail, htag⟩ := fields_casStat (f := 0) (g := fld w.toNat 31 28) (by decide) (Nat.mod_lt _ (by decide))
    obtain ⟨hheld, hvalid⟩ := held_takenWord (s.bufWord p i) hgen256 hc
    refine ⟨t, hexec, hres, ?_, ?_, ?_, haddr, hleft, ?_, ?_, ?_, ?_, ?_⟩
    · rw [State.rbit, hstat, hdone]
    · rw [State.rbit, hstat, Bool.eq_false_iff]
      exact fun hset => absurd (hfail.1 hset) (by decide)
    · rw [State.rf, hstat, htag]
    · rw [hword, ref_takenWord]
    · rw [hword, gen_takenWord _ hgen256]
    · rw [hword]
      exact owner_takenWord _ hgen256 hc
    · rw [hword, hheld]
    · rw [hword, hvalid]

end Sys2Proof.Machine
end
